-- ==== Sys2Proof/Word.lean ====
section
/-! DEFINITION. The word types of the OX40 (00_scope.md R1) and their plainest arithmetic. -/

namespace Sys2Proof

/-- A general register, an address or a system register (02 R24). -/
abbrev Word := BitVec 64
/-- One instruction word (10 R197). -/
abbrev Insn := BitVec 32
/-- One byte of memory. -/
abbrev Byte := BitVec 8
/-- A vector register of 4,096 bytes, byte k in bits [8k+7:8k] (13 R275). -/
abbrev VReg := BitVec 32768
/-- A mask of 16,384 element bits (13 R275). -/
abbrev Mask := BitVec 16384
/-- A set of logical clusters, bit c naming cluster c (14 R331). -/
abbrev ClSet := BitVec 256

/-- The field [lo+len-1:lo] of a word as a number (00 R1). -/
def field {w : Nat} (v : BitVec w) (lo len : Nat) : Nat := v.toNat / 2 ^ lo % 2 ^ len

/-- Bit n of a word (00 R1). -/
def bitOf {w : Nat} (v : BitVec w) (n : Nat) : Bool := v.getLsbD n

end Sys2Proof
end

