-- ==== Sys2Proof/Syntax.lean ====
section
/-! DEFINITION. The instructions and events of the OX40, one constructor for each row of the opcode table.
A row with an instruction word carries the operand fields of its encoding (10_formats_and_opcode_map.md), without
the bits L and S of R197, which belong to the bundle. A row without a word is an event; its operands are the model's
(log 11): the piece of the machine it acts on and the data that the outside world brings. -/

namespace Sys2Proof

/-- The five port queues of a cluster (03 R60). -/
inductive Port where
  | matrix | copy | batcher | fabric | vector
  deriving DecidableEq, Repr

/-- What power-on finds outside the model's reach (22 R413, R414): the training and test results, the SMC's
configuration and the drawn system key. -/
structure BootData where
  failStage : Nat          -- 0: no failure
  failCode : Nat
  failed : List Nat        -- physical clusters 72 x die + n that failed their test
  pkgid : BitVec 15
  netId : Word             -- the fabric prefix, bits [127:64] of the package's IPv6 address (23 R417)
  iface : BitVec 49        -- bits [63:15] of its interface ID (23 R417)
  modules : Nat
  fwVersion : BitVec 32
  image : List Byte        -- the firmware image of the boot flash (22 R414)
  key : List Byte          -- the XMSS public key that it carries
  sig : List Byte          -- its signature over the image's digest
  systemKey : BitVec 512
  deriving DecidableEq, Repr

/-- One fabric packet after its transport headers (23 R424), with the addressing the switch reads (R417, R419). -/
structure Packet where
  target : BitVec 15       -- target package
  iface : BitVec 49        -- bits [63:15] of the target's interface ID (R417)
  ev : BitVec 16           -- entropy value (R423)
  opc : BitVec 8
  flags : BitVec 8
  arg : BitVec 8
  rsv : BitVec 8           -- offset 0x03
  mode : BitVec 2          -- 0 RUD, 1 ROD, 2 RUDI, 3 UUD (R421)
  seq : BitVec 32
  fkey : Word
  stream : Word
  addr : Word
  ncount : List (BitVec 16)
  payload : List Byte
  trimmed : Bool
  ce : Bool                -- marked for congestion (R422)
  crcBad : Bool            -- its CRC does not match on receipt (R100, R430)
  psn : BitVec 32          -- its PDS sequence number: a copy that is sent again has the same (R421)
  urgent : Bool            -- forwarded at the highest priority, as a trimmed packet is (R422)
  hops : Nat               -- non-minimal hops made (R420)
  vc : Nat                 -- virtual channel: 0 adaptive, 1 and 2 the escape channels 0 and 1 (R419)
  deriving DecidableEq, Repr

/-- The rows of the opcode table. -/
inductive Instr where
  /-- Writes the 64-bit sum of two general registers to a general register (R222). -/
  | add (d : BitVec 5) (a : BitVec 5) (b : BitVec 5)
  /-- Writes the 64-bit difference of two general registers (R222). -/
  | sub (d : BitVec 5) (a : BitVec 5) (b : BitVec 5)
  /-- Writes the bitwise AND of two general registers (R222). -/
  | and (d : BitVec 5) (a : BitVec 5) (b : BitVec 5)
  /-- Writes the bitwise OR of two general registers (R222). -/
  | or (d : BitVec 5) (a : BitVec 5) (b : BitVec 5)
  /-- Writes the bitwise exclusive OR of two general registers (R222). -/
  | xor (d : BitVec 5) (a : BitVec 5) (b : BitVec 5)
  /-- Writes x AND NOT y (R222). -/
  | andn (d : BitVec 5) (a : BitVec 5) (b : BitVec 5)
  /-- Writes x OR NOT y (R222). -/
  | orn (d : BitVec 5) (a : BitVec 5) (b : BitVec 5)
  /-- Shifts x left by y mod 64 (R222). -/
  | shl (d : BitVec 5) (a : BitVec 5) (b : BitVec 5)
  /-- Shifts x right logically by y mod 64 (R222). -/
  | shr (d : BitVec 5) (a : BitVec 5) (b : BitVec 5)
  /-- Shifts x right arithmetically by y mod 64 (R222). -/
  | sra (d : BitVec 5) (a : BitVec 5) (b : BitVec 5)
  /-- Rotates x left by y mod 64 (R222). -/
  | rol (d : BitVec 5) (a : BitVec 5) (b : BitVec 5)
  /-- Writes the signed minimum of two registers (R222). -/
  | min (d : BitVec 5) (a : BitVec 5) (b : BitVec 5)
  /-- Writes the signed maximum of two registers (R222). -/
  | max (d : BitVec 5) (a : BitVec 5) (b : BitVec 5)
  /-- Writes the unsigned minimum of two registers (R222). -/
  | minu (d : BitVec 5) (a : BitVec 5) (b : BitVec 5)
  /-- Writes the unsigned maximum of two registers (R222). -/
  | maxu (d : BitVec 5) (a : BitVec 5) (b : BitVec 5)
  /-- Selects x when predicate k is true, else y (R222). -/
  | cselT (d : BitVec 5) (a : BitVec 5) (b : BitVec 5) (k : BitVec 3)
  /-- Selects y when predicate k is true, else x (R222). -/
  | cselF (d : BitVec 5) (a : BitVec 5) (b : BitVec 5) (k : BitVec 3)
  /-- Copies the eight predicates into bits 7 to 0 of a general register (R222). -/
  | pmovToG (d : BitVec 5)
  /-- Sets all eight predicates from bits 7 to 0 of a general register (R222). -/
  | pmovToP (a : BitVec 5)
  /-- Writes the low 64 bits of the product (R223). -/
  | mul (d : BitVec 5) (a : BitVec 5) (b : BitVec 5)
  /-- Writes the high 64 bits of the signed 128-bit product (R223). -/
  | mulh (d : BitVec 5) (a : BitVec 5) (b : BitVec 5)
  /-- Writes the high 64 bits of the unsigned 128-bit product (R223). -/
  | mulhu (d : BitVec 5) (a : BitVec 5) (b : BitVec 5)
  /-- Writes G[d] plus x times y modulo 2^64 (R223). -/
  | madd (d : BitVec 5) (a : BitVec 5) (b : BitVec 5)
  /-- Starts an unsigned divide with a late quotient, trapping 3.0.0 on a zero divisor (R224). -/
  | divu (d : BitVec 5) (a : BitVec 5) (b : BitVec 5)
  /-- Starts an unsigned remainder with a late result, trapping 3.0.0 on a zero divisor (R224). -/
  | remu (d : BitVec 5) (a : BitVec 5) (b : BitVec 5)
  /-- Counts leading zero bits (R225). -/
  | clz (d : BitVec 5) (a : BitVec 5)
  /-- Counts trailing zero bits (R225). -/
  | ctz (d : BitVec 5) (a : BitVec 5)
  /-- Counts one bits (R225). -/
  | popc (d : BitVec 5) (a : BitVec 5)
  /-- Reverses the bit order of a register (R225). -/
  | brev (d : BitVec 5) (a : BitVec 5)
  /-- Reverses the byte order of a register (R225). -/
  | bswap (d : BitVec 5) (a : BitVec 5)
  /-- Extracts an unsigned bit field (R225). -/
  | bfx (d : BitVec 5) (a : BitVec 5) (b : BitVec 5)
  /-- Extracts a sign-extended bit field (R225). -/
  | bfxs (d : BitVec 5) (a : BitVec 5) (b : BitVec 5)
  /-- Inserts a bit field into G[d] (R225). -/
  | bfi (d : BitVec 5) (a : BitVec 5) (b : BitVec 5)
  /-- Writes 64 bits of the 128-bit concatenation shifted right by c (R225). -/
  | xshf (d : BitVec 5) (a : BitVec 5) (b : BitVec 5) (c : BitVec 6)
  /-- Adds a sign-extended 14-bit immediate (R226). -/
  | addi (d : BitVec 5) (a : BitVec 5) (i : BitVec 14)
  /-- ANDs with a sign-extended 14-bit immediate (R226). -/
  | andi (d : BitVec 5) (a : BitVec 5) (i : BitVec 14)
  /-- ORs with a zero-extended 14-bit immediate (R226). -/
  | ori (d : BitVec 5) (a : BitVec 5) (i : BitVec 14)
  /-- Exclusive-ORs with a zero-extended 14-bit immediate (R226). -/
  | xori (d : BitVec 5) (a : BitVec 5) (i : BitVec 14)
  /-- Shifts left by an immediate count (R226). -/
  | shli (d : BitVec 5) (a : BitVec 5) (c : BitVec 6)
  /-- Shifts right logically by an immediate count (R226). -/
  | shri (d : BitVec 5) (a : BitVec 5) (c : BitVec 6)
  /-- Shifts right arithmetically by an immediate count (R226). -/
  | srai (d : BitVec 5) (a : BitVec 5) (c : BitVec 6)
  /-- Rotates left by an immediate count (R226). -/
  | roli (d : BitVec 5) (a : BitVec 5) (c : BitVec 6)
  /-- Loads a sign-extended 19-bit immediate (R226). -/
  | movi (d : BitVec 5) (i : BitVec 19)
  /-- Replaces one 16-bit half-word of G[d], keeping the others (R226). -/
  | movk (d : BitVec 5) (h : BitVec 2) (i : BitVec 16)
  /-- Writes a 16-bit immediate into one half-word, clearing the others (R226). -/
  | movkZ (d : BitVec 5) (h : BitVec 2) (i : BitVec 16)
  /-- Sets a predicate from a register-register comparison under cond (R228). -/
  | cmp (p : BitVec 3) (c : BitVec 3) (a : BitVec 5) (b : BitVec 5)
  /-- Sets a predicate from a comparison with a sign-extended 13-bit immediate (R228). -/
  | cmpi (p : BitVec 3) (c : BitVec 3) (a : BitVec 5) (i : BitVec 13)
  /-- Sets a predicate from a logical operation on two predicates (R229). -/
  | plog (p : BitVec 3) (o : BitVec 3) (a : BitVec 3) (b : BitVec 3)
  /-- Branches when the predicate is true (R231). -/
  | brT (p : BitVec 3) (d : BitVec 20)
  /-- Branches when the predicate is false (R231). -/
  | brF (p : BitVec 3) (d : BitVec 20)
  /-- Jumps by a 24-bit word displacement (R231). -/
  | jmp (d : BitVec 24)
  /-- Writes the return address to g7 and jumps by displacement (R231). -/
  | call (d : BitVec 24)
  /-- Jumps to the address in a register (R231). -/
  | jr (a : BitVec 5)
  /-- Writes g7 and jumps to the address in a register (R231). -/
  | callr (a : BitVec 5)
  /-- Jumps to the address in g7 (R231). -/
  | ret
  /-- Decrements a counter register and branches back while it stays non-zero (R231). -/
  | loop (d : BitVec 5) (i : BitVec 14)
  /-- Does nothing; with S set it parks the thread as a switch point (R232). -/
  | nop
  /-- Checks a spawn descriptor, sends a spawn request and blocks until the target queue accepts it (R234). -/
  | spawn (d : BitVec 5) (a : BitVec 3)
  /-- Sends a spawn request without blocking and later sets a predicate to the acceptance result (R235). -/
  | spawnt (d : BitVec 5) (a : BitVec 3) (p : BitVec 3)
  /-- Stops the thread's issue and begins ending it as R32 states (R236). -/
  | quit
  /-- Sets the thread's base priority, clamped to the region's ceiling (R237). -/
  | setpri (k : BitVec 3)
  /-- Lowers the thread's register allotment and returns registers to the frame budget (R238). -/
  | rshrink (n : BitVec 2)
  /-- Makes the thread not ready for G[a] resident pulses (R239). -/
  | sleep (a : BitVec 5)
  /-- Begins a wait on a semaphore for n with an optional pulse limit (R242). -/
  | swait (d : BitVec 5) (a : BitVec 5) (e : BitVec 8)
  /-- Begins a wait on the ring pair 2k and 2k+1 and reports the served member in a predicate (R243). -/
  | qwait (d : BitVec 5) (a : BitVec 5) (p : BitVec 3) (e : BitVec 7)
  /-- Tries to take n from a semaphore at its arbiter and sets a predicate to the result later (R244). -/
  | stry (a : BitVec 5) (p : BitVec 3) (e : BitVec 8)
  /-- Signals a semaphore of the own cluster as a release at C scope (R245). -/
  | ssig (a : BitVec 5) (e : BitVec 8)
  /-- Signals a semaphore of the frame on the logical cluster in G[d] as a release at C scope (R245). -/
  | ssigRemote (d : BitVec 5) (a : BitVec 5) (e : BitVec 8)
  /-- Signals a semaphore of the own cluster as a release at D scope or wider (R245). -/
  | ssigG (a : BitVec 5) (e : BitVec 8)
  /-- Signals a semaphore on the logical cluster in G[d] as a release at max(D, its scope) (R245). -/
  | ssigGRemote (d : BitVec 5) (a : BitVec 5) (e : BitVec 8)
  /-- Sets a semaphore's count and poison bit, then serves waiters (R246). -/
  | sset (a : BitVec 5) (e : BitVec 8)
  /-- Reads a semaphore's count and poison into a register as a late result (R246). -/
  | sread (d : BitVec 5) (e : BitVec 8)
  /-- Sets a semaphore's poison bit, trapping every current waiter (R246). -/
  | spois (e : BitVec 8)
  /-- Sets a barrier's participant count and clears its arrival counter (R248). -/
  | barinit (a : BitVec 5) (b : BitVec 4)
  /-- Counts one arrival at a barrier and records its phase (R248). -/
  | barrive (b : BitVec 4)
  /-- Waits until the barrier's phase differs from the thread's arrival-phase bit (R248). -/
  | barwait (a : BitVec 5) (b : BitVec 4)
  /-- Arrives at a barrier and then waits for the phase to complete (R248). -/
  | barsync (a : BitVec 5) (b : BitVec 4)
  /-- Checks and issues a relaxed scalar load with a late result (R252). -/
  | ld (d : BitVec 5) (b : BitVec 5) (z : BitVec 3) (i : BitVec 9)
  /-- Issues a scalar load that is an acquire (R253). -/
  | ldAcq (d : BitVec 5) (b : BitVec 5) (z : BitVec 3) (i : BitVec 9)
  /-- Issues a load through the constant cache from the global window (R253). -/
  | ldc (d : BitVec 5) (b : BitVec 5) (z : BitVec 3) (i : BitVec 9)
  /-- Checks a relaxed scalar store and writes it to the bank or enters it in the store queue (R255). -/
  | st (r : BitVec 5) (b : BitVec 5) (z : BitVec 2) (i : BitVec 9)
  /-- Issues a release store at scope C, D or P (R255). -/
  | stRel (r : BitVec 5) (b : BitVec 5) (z : BitVec 2) (o : BitVec 2) (i : BitVec 9)
  /-- Writes the low nibble of a scratchpad byte by read-modify-write (R256). -/
  | stNlo (r : BitVec 5) (b : BitVec 5) (i : BitVec 9)
  /-- Writes the high nibble of a scratchpad byte by read-modify-write (R256). -/
  | stNhi (r : BitVec 5) (b : BitVec 5) (i : BitVec 9)
  /-- Issues an atomic read-modify-write at the given scope with the old value returned late (R258). -/
  | atom (d : BitVec 5) (b : BitVec 5) (z : BitVec 1) (c : BitVec 2) (o : BitVec 5)
  /-- Issues an atomic compare-and-swap using G[d] and G[d+1] (R257). -/
  | acas (d : BitVec 4) (b : BitVec 5) (z : BitVec 1) (c : BitVec 2)
  /-- Blocks the thread until its accesses in the scope's set have performed (R263). -/
  | fence (c : BitVec 3)
  /-- Invalidates every line of the cluster's instruction cache (R264). -/
  | icinvI
  /-- Invalidates every line of the cluster's constant cache (R264). -/
  | icinvC
  /-- Issues a remote store to a fabric address, optionally with the ordered flag (R268). -/
  | rst (d : BitVec 5) (a : BitVec 5) (z : BitVec 2) (f : BitVec 1)
  /-- Issues a remote load with a late result (R268). -/
  | rld (d : BitVec 5) (a : BitVec 5) (z : BitVec 2)
  /-- Issues a remote atomic with a late result, optionally with the ordered flag (R268). -/
  | ratom (d : BitVec 5) (a : BitVec 5) (z : BitVec 1) (o : BitVec 4) (f : BitVec 1)
  /-- Issues a signal to a semaphore on another package (R269). -/
  | rsig (d : BitVec 5) (a : BitVec 5) (f : BitVec 1)
  /-- Issues a spawn request to a kernel on another package (R269). -/
  | rspawn (d : BitVec 5) (a : BitVec 3)
  /-- Sets the thread's spray width for later remote operations (R270). -/
  | fpath (w : BitVec 3)
  /-- Enters a unit-stride vector load into the vector port (R289). -/
  | vld (d : BitVec 5) (a : BitVec 5) (m : BitVec 3) (k : BitVec 2)
  /-- Enters a strided vector load (R289). -/
  | vlds (d : BitVec 5) (a : BitVec 5) (b : BitVec 5) (m : BitVec 3) (k : BitVec 2)
  /-- Enters an indexed vector gather (R289). -/
  | vldx (d : BitVec 5) (a : BitVec 5) (b : BitVec 5) (m : BitVec 3) (k : BitVec 2)
  /-- Enters a transposing vector load from scratchpad (R287). -/
  | vldt (d : BitVec 5) (a : BitVec 5) (m : BitVec 3) (k : BitVec 2)
  /-- Enters a unit-stride vector store (R289). -/
  | vst (d : BitVec 5) (a : BitVec 5) (m : BitVec 3) (k : BitVec 2)
  /-- Enters a strided vector store (R289). -/
  | vsts (d : BitVec 5) (a : BitVec 5) (b : BitVec 5) (m : BitVec 3) (k : BitVec 2)
  /-- Enters an indexed vector scatter (R289). -/
  | vstx (d : BitVec 5) (a : BitVec 5) (b : BitVec 5) (m : BitVec 3) (k : BitVec 2)
  /-- Broadcasts a general register into each active element (R290). -/
  | vbcast (d : BitVec 5) (a : BitVec 5) (m : BitVec 3)
  /-- Moves element 0 of a vector register to a general register as a late result (R290). -/
  | vmovsToG (d : BitVec 5) (a : BitVec 5)
  /-- Moves a general register into element 0 of a vector register (R290). -/
  | vmovsToV (d : BitVec 5) (a : BitVec 5)
  /-- Extracts element G[b] of a vector register to a general register as a late result (R290). -/
  | vext (d : BitVec 5) (a : BitVec 5) (b : BitVec 5)
  /-- Sets VTYPE and VL at issue and writes VL to a general register (R276). -/
  | vsetvl (d : BitVec 5) (a : BitVec 5) (t : BitVec 4) (g : BitVec 2)
  /-- Writes each active element's index (R290). -/
  | viota (d : BitVec 5) (m : BitVec 3)
  /-- Holds the thread until every earlier vector instruction has retired, then acts as an acquire (R281). -/
  | vwait
  /-- Signals a semaphore once every earlier vector instruction of the thread has retired (R282). -/
  | vsig (e : BitVec 8) (i : BitVec 2)
  /-- Floating-point vector add (R291). -/
  | vadd (d : BitVec 5) (a : BitVec 5) (b : BitVec 5) (m : BitVec 3)
  /-- Floating-point vector subtract (R291). -/
  | vsub (d : BitVec 5) (a : BitVec 5) (b : BitVec 5) (m : BitVec 3)
  /-- Floating-point vector multiply (R291). -/
  | vmul (d : BitVec 5) (a : BitVec 5) (b : BitVec 5) (m : BitVec 3)
  /-- Fused multiply-add a × b + d (R291). -/
  | vfma (d : BitVec 5) (a : BitVec 5) (b : BitVec 5) (m : BitVec 3)
  /-- Fused multiply-subtract a × b − d (R291). -/
  | vfms (d : BitVec 5) (a : BitVec 5) (b : BitVec 5) (m : BitVec 3)
  /-- Fused negated multiply-add d − a × b (R291). -/
  | vfnma (d : BitVec 5) (a : BitVec 5) (b : BitVec 5) (m : BitVec 3)
  /-- Element-wise minimumNumber (R291). -/
  | vmin (d : BitVec 5) (a : BitVec 5) (b : BitVec 5) (m : BitVec 3)
  /-- Element-wise maximumNumber (R291). -/
  | vmax (d : BitVec 5) (a : BitVec 5) (b : BitVec 5) (m : BitVec 3)
  /-- Clears each element's sign bit (R291). -/
  | vabs (d : BitVec 5) (a : BitVec 5) (m : BitVec 3)
  /-- Inverts each element's sign bit (R291). -/
  | vneg (d : BitVec 5) (a : BitVec 5) (m : BitVec 3)
  /-- Writes a one-hot class code for each element (R291). -/
  | vclass (d : BitVec 5) (a : BitVec 5) (m : BitVec 3)
  /-- Integer vector add (R292). -/
  | viadd (d : BitVec 5) (a : BitVec 5) (b : BitVec 5) (m : BitVec 3)
  /-- Integer vector subtract (R292). -/
  | visub (d : BitVec 5) (a : BitVec 5) (b : BitVec 5) (m : BitVec 3)
  /-- Integer vector multiply, low bits (R292). -/
  | vimul (d : BitVec 5) (a : BitVec 5) (b : BitVec 5) (m : BitVec 3)
  /-- Integer vector multiply-add (R292). -/
  | vimad (d : BitVec 5) (a : BitVec 5) (b : BitVec 5) (m : BitVec 3)
  /-- Signed integer vector minimum (R292). -/
  | vimin (d : BitVec 5) (a : BitVec 5) (b : BitVec 5) (m : BitVec 3)
  /-- Signed integer vector maximum (R292). -/
  | vimax (d : BitVec 5) (a : BitVec 5) (b : BitVec 5) (m : BitVec 3)
  /-- Bitwise vector AND (R292). -/
  | vand (d : BitVec 5) (a : BitVec 5) (b : BitVec 5) (m : BitVec 3)
  /-- Bitwise vector OR (R292). -/
  | vor (d : BitVec 5) (a : BitVec 5) (b : BitVec 5) (m : BitVec 3)
  /-- Bitwise vector exclusive OR (R292). -/
  | vxor (d : BitVec 5) (a : BitVec 5) (b : BitVec 5) (m : BitVec 3)
  /-- Vector shift left (R292). -/
  | vshl (d : BitVec 5) (a : BitVec 5) (b : BitVec 5) (m : BitVec 3)
  /-- Vector logical shift right (R292). -/
  | vshr (d : BitVec 5) (a : BitVec 5) (b : BitVec 5) (m : BitVec 3)
  /-- Vector arithmetic shift right (R292). -/
  | vsra (d : BitVec 5) (a : BitVec 5) (b : BitVec 5) (m : BitVec 3)
  /-- Correctly rounded 2^x per element (R293). -/
  | vexp2 (d : BitVec 5) (a : BitVec 5) (m : BitVec 3)
  /-- Correctly rounded log2 x per element (R293). -/
  | vlog2 (d : BitVec 5) (a : BitVec 5) (m : BitVec 3)
  /-- Correctly rounded reciprocal per element (R293). -/
  | vrcp (d : BitVec 5) (a : BitVec 5) (m : BitVec 3)
  /-- Correctly rounded reciprocal square root per element (R293). -/
  | vrsq (d : BitVec 5) (a : BitVec 5) (m : BitVec 3)
  /-- Correctly rounded square root per element (R293). -/
  | vsqrt (d : BitVec 5) (a : BitVec 5) (m : BitVec 3)
  /-- Correctly rounded tanh per element (R293). -/
  | vtanh (d : BitVec 5) (a : BitVec 5) (m : BitVec 3)
  /-- Converts elements between formats, optionally saturating or stochastic (R294). -/
  | vcvt (d : BitVec 5) (a : BitVec 5) (t : BitVec 5) (m : BitVec 3) (r : BitVec 1) (c : BitVec 1)
  /-- Quantises blocks of 32 elements to an MX or FP4X block format (R295). -/
  | vqnt (d : BitVec 5) (a : BitVec 5) (b : BitVec 5) (m : BitVec 3) (n : BitVec 1) (f : BitVec 3)
  /-- Dequantises block-format elements into a float type (R296). -/
  | vdq (d : BitVec 5) (a : BitVec 5) (b : BitVec 5) (m : BitVec 3) (f : BitVec 3)
  /-- Sets per-lane generator keys and counters (R297). -/
  | vrseed (a : BitVec 5) (b : BitVec 5) (m : BitVec 3)
  /-- Draws one RNG-CB32 output per active element and advances the counter (R297). -/
  | vrng (d : BitVec 5) (m : BitVec 3)
  /-- Reduces the elements by a fixed tree into element 0 (R298). -/
  | vred (d : BitVec 5) (a : BitVec 5) (m : BitVec 3) (o : BitVec 3)
  /-- Computes a two-stage inclusive scan (R299). -/
  | vscan (d : BitVec 5) (a : BitVec 5) (m : BitVec 3) (o : BitVec 3)
  /-- Permutes elements by a vector of indices (R300). -/
  | vperm (d : BitVec 5) (a : BitVec 5) (b : BitVec 5) (m : BitVec 3)
  /-- Rotates elements by a general-register count (R300). -/
  | vrot (d : BitVec 5) (a : BitVec 5) (b : BitVec 5) (m : BitVec 3)
  /-- Interleaves the elements of two vectors (R300). -/
  | vshuf (d : BitVec 5) (a : BitVec 5) (b : BitVec 5) (m : BitVec 3)
  /-- Floating-point compare into a mask (R301). -/
  | vcmp (d : BitVec 3) (a : BitVec 5) (b : BitVec 5) (m : BitVec 3) (c : BitVec 3)
  /-- Integer compare into a mask (R301). -/
  | vicmp (d : BitVec 3) (a : BitVec 5) (b : BitVec 5) (m : BitVec 3) (c : BitVec 3)
  /-- Selects elements of two vectors by a mask (R301). -/
  | vsel (d : BitVec 5) (a : BitVec 5) (b : BitVec 5) (m : BitVec 3)
  /-- Logical operation on masks (R301). -/
  | vmlog (d : BitVec 3) (a : BitVec 3) (b : BitVec 3) (o : BitVec 3)
  /-- Counts set mask bits below VL into a general register as a late result (R301). -/
  | vmpop (d : BitVec 5) (a : BitVec 3)
  /-- Enters a command that clears a tile to the MCLR state (R150). -/
  | mclr (b : BitVec 3) (e : BitVec 8) (i : BitVec 2)
  /-- Enters a command that sets a tile's TRAPM (R305). -/
  | mmode (b : BitVec 3) (e : BitVec 8) (i : BitVec 2)
  /-- Enters a compaction or explicit shift of tile rows (R159). -/
  | mrnm (b : BitVec 3) (e : BitVec 8) (i : BitVec 2)
  /-- Enters a command that writes a tile's raw image (R309). -/
  | msave (b : BitVec 3) (e : BitVec 8) (i : BitVec 2)
  /-- Enters a command that reads, checks and loads a tile's raw image (R309). -/
  | mload (b : BitVec 3) (e : BitVec 8) (i : BitVec 2)
  /-- Enters a command that writes the first 832 bytes of a tile image to scratchpad (R309). -/
  | mhdr (b : BitVec 3) (e : BitVec 8) (i : BitVec 2)
  /-- Enters a command that returns tile status to the group base register (R311). -/
  | mstat (b : BitVec 3)
  /-- Enters a command that converts a tile rectangle to scratchpad (R310). -/
  | mdrain (b : BitVec 3) (e : BitVec 8) (i : BitVec 2)
  /-- Enters a matrix pass that reloads B and applies steps into a tile (R307). -/
  | mpass (b : BitVec 3) (e : BitVec 8) (i : BitVec 2) (t : BitVec 3)
  /-- Enters a matrix pass that reuses the held B when its tag matches (R308). -/
  | mpassh (b : BitVec 3) (e : BitVec 8) (i : BitVec 2) (t : BitVec 3)
  /-- Enters a box copy of up to three dimensions (R314). -/
  | cpy (b : BitVec 3) (e : BitVec 8) (i : BitVec 2)
  /-- Enters a gather copy by an index list (R315). -/
  | cpyx (b : BitVec 3) (e : BitVec 8) (i : BitVec 2)
  /-- Enters a multicast copy to clusters of the die (R315). -/
  | cpym (b : BitVec 3) (e : BitVec 8) (i : BitVec 2)
  /-- Enters a pattern fill (R315). -/
  | cpyf (b : BitVec 3) (e : BitVec 8) (i : BitVec 2)
  /-- Enters a command that configures the conflict batcher (R168). -/
  | cbcfg (b : BitVec 3) (e : BitVec 8) (i : BitVec 2)
  /-- Enters a command that pushes constraint records into the stream (R169). -/
  | cbpush (b : BitVec 3) (e : BitVec 8) (i : BitVec 2)
  /-- Enters a command that takes the oldest published flight (R173). -/
  | cbnext (b : BitVec 3)
  /-- Enters a command that releases a flight's bodies and frees its slot (R174). -/
  | cbdone (b : BitVec 3) (e : BitVec 8) (i : BitVec 2)
  /-- Enters a command that returns batcher status (R175). -/
  | cbstat (b : BitVec 3)
  /-- Reads a system register into a general register (R321). -/
  | sysr (d : BitVec 5) (r : BitVec 12)
  /-- Writes a general register to a system register under its field map (R321). -/
  | sysw (a : BitVec 5) (r : BitVec 12)
  /-- Raises the software trap 0.0.7 with a code (R326). -/
  | trap (c : BitVec 8)
  /-- Resumes a parked thread named by a descriptor (R329). -/
  | tresume (a : BitVec 5)
  /-- Copies part of a parked thread's context image to a buffer (R329). -/
  | tctxr (a : BitVec 5)
  /-- Copies a buffer into part of a parked thread's context image (R329). -/
  | tctxw (a : BitVec 5)
  /-- Ends a thread named by a descriptor (R329). -/
  | tkill (a : BitVec 5)
  /-- Checks a header and creates a kernel frame on every cluster of a set, all or nothing (R332). -/
  | kbind (a : BitVec 5)
  /-- Requests removal of a kernel frame, optionally forcing its threads to end (R333). -/
  | kunbind (a : BitVec 5)
  /-- A bundle whose major, function or framing is not assigned traps at decode with no effect (R217). -/
  | unassignedInstruction (w0 w1 : Insn)
  /-- A long-latency result arrives, is written to its register or predicate and clears its pending bit (R52). -/
  | resultWriteback (id : Nat)
  /-- A thread's next bundle is fetched into the instruction cache, after its range check and translation, or fails with fetch fault 2.0.0, 2.0.2, 2.0.6 or 7.0.1 (R202). -/
  | instructionFetch (cl slot : Nat)
  /-- A load, atomic, RLD or RATOM fails after issue, writes nothing and parks the thread before its next bundle (R259). -/
  | lateFailure (id : Nat) (cause : BitVec 9) (status : BitVec 16)
  /-- A port arbiter starts a queued engine or vector command, which makes its start checks and runs (R62). -/
  | commandStart (cl : Nat) (port : Port)
  /-- An engine command finishes and signals its semaphore as a release at its widest destination scope (R114). -/
  | commandCompletion (id : Nat)
  /-- An engine command ends with an error, performs its counted writes, poisons its semaphore and sends a record (R303). -/
  | errorCompletion (id : Nat)
  /-- A vector instruction retires with its register, flag and memory effects made (R281). -/
  | vectorRetire (id : Nat)
  /-- The batcher forms one flight from the window, writes its list and signals the flight semaphore (R170). -/
  | formation (cl : Nat)
  /-- A spawn request reaches a target pending-spawn queue and is accepted or refused at its arbiter (R29). -/
  | spawnRequestArrival (id : Nat)
  /-- An admissible queued request is admitted, giving the child a slot, registers and its entry PC (R26). -/
  | spawnAdmission (cl : Nat)
  /-- A blocked SPAWN reaches SPWLIM without acceptance and traps with 4.0.1 (R30). -/
  | spwlimExpiry (cl slot : Nat)
  /-- A store blocked on the store queue reaches SWLIM without a grant and traps with 4.1.2 (R90). -/
  | swlimExpiry (cl slot : Nat)
  /-- A semaphore or barrier wait reaches its limit and traps with 4.0.0 (R39). -/
  | waitLimitExpiry (cl slot : Nat)
  /-- A sleeping thread's count of resident pulses ends and it becomes ready (R239). -/
  | sleepExpiry (cl slot : Nat)
  /-- A signal takes effect at the semaphore's arbiter, saturating with poison on overflow (R37). -/
  | semaphoreSignal (id : Nat)
  /-- A store-queue entry is admitted to the write lane in the credit or surplus tier (R85). -/
  | storeEntryDeparture (cl : Nat)
  /-- At each 1,024-pulse window start every cluster's credit resets and deficits clear (R85). -/
  | writeWindowStart (die : Nat)
  /-- A departed write takes effect at its location's point of performance (R101). -/
  | writePerform (id : Nat) (crcBad : Bool)
  /-- The die walker resolves a TLB miss by reading page-table entries (R390). -/
  | tableWalk (die rgn : Nat) (va : BitVec 48) (ahead : Nat)
  /-- A waiting fence performs once its scope's accesses have performed and traps if the write-error latch is set (R263). -/
  | fencePerform (cl slot : Nat)
  /-- After pending results and vector instructions end, QUIT signals the join and returns the slot (R32). -/
  | quitComplete (cl slot : Nat)
  /-- The fault-queue arbiter writes a record to its slot and signals the fault semaphore or sends MSI-X (R365). -/
  | faultRecord (rgn : Nat)
  /-- Every 1,024 die pulses a kept record rereads its slot and is written if it is free (R365). -/
  | faultQueueRetry (rgn : Nat)
  /-- A suspend command stops a region's issue on the cluster and begins draining it (R374). -/
  | rgnctlSuspend (cl : Nat)
  /-- After the drain ends the save block is written, resources return and the command signals (R375). -/
  | saveBlockWrite (cl : Nat)
  /-- A resume checks the save block and restores the region's frames and threads (R376). -/
  | rgnctlResume (cl : Nat)
  /-- A kill ends a region and its descendants on every cluster of the package (R377). -/
  | rgnctlKill (cl : Nat)
  /-- Once every cluster has finished, the killed regions are deactivated and RESULT becomes 0 (R377). -/
  | killComplete (rgn : Nat)
  /-- After the frame's entries drain, pending spawns are dropped, state is discarded and resources return (R333). -/
  | kunbindTeardown (id : Nat)
  /-- Reads and checks an RCB and activates a region under the lowest free number (R408). -/
  | rcmdActivate (v : Word)
  /-- Rereads a region's RCB and applies the newly resolved values (R409). -/
  | rcmdReload (v : Word)
  /-- Kills a region through the region command register (R377). -/
  | rcmdKill (v : Word)
  /-- Host context-command window resumes a parked thread at M level (R404). -/
  | ccmdTresume
  /-- Host context-command window reads part of a context image (R404). -/
  | ccmdTctxr
  /-- Host context-command window writes part of a context image (R404). -/
  | ccmdTctxw
  /-- Host context-command window ends a thread (R404). -/
  | ccmdTkill
  /-- Host bind window binds a kernel at M level (R405). -/
  | bcmdKbind
  /-- Host bind window unbinds a kernel at M level (R405). -/
  | bcmdKunbind
  /-- The SMC signs an attestation report with its XMSS identity key: `signature` is what that key makes of it (R415; log 9). -/
  | attest (v : Word) (signature : List Byte)
  /-- The SMC unwraps and installs a key pair into a key slot (R415). -/
  | loadkey (v : Word) (slot : Nat) (kek : BitVec 256)
  /-- The SMC empties a key slot after writing back its lines (R415). -/
  | emptykey (v : Word) (slot : Nat)
  /-- The SMC marks a key slot as plaintext bypass (R415). -/
  | bypasskey (v : Word) (slot : Nat)
  /-- The SMC applies a pending spare remap for a host-assisted region (R415). -/
  | remap (v : Word) (rgn : Nat)
  /-- The SMC writes a 4,096-byte telemetry snapshot (R447). -/
  | telem (v : Word)
  /-- The SMC copies a suspended region's save blocks and ranges to its own and its +X neighbour's store (R449). -/
  | checkpoint (v : Word)
  /-- The SMC maps a logical cluster whose regions are suspended onto another physical cluster (R416). -/
  | move (v : Word)
  /-- A mailbox command number with no meaning completes with result 1 (R415). -/
  | mailboxUnknownCommand (v : Word)
  /-- A 64-byte host spawn request is checked, resolved and delivered to the target queue (R411). -/
  | foyerRequest (lane : Nat) (req : BitVec 512)
  /-- A host read of SEMVAL performs at the selected semaphore's arbiter (R412). -/
  | semvalRead (lane : Nat)
  /-- A host CXL.mem write is placed untranslated and performed at the memory-side cache before completion (R401). -/
  | hostMemWrite (hpa : Nat) (bytes : List Byte)
  /-- A host CXL.mem read is placed, performed and its data returned (R401). -/
  | hostMemRead (hpa n : Nat)
  /-- A CXL completion for a host-aperture read or write returns and performs the access (R403). -/
  | apertureCompletion (id : Nat) (status : BitVec 16)
  /-- Writing FLUSH writes back every dirty line of the die's memory-side cache (R398). -/
  | mscFlush (die : Nat)
  /-- Clearing a WAYEN bit writes back and invalidates that way before disabling it (R398). -/
  | mscWayChange (die : Nat) (wayen : BitVec 16)
  /-- A flush or way change ends and BUSY clears (R398). -/
  | mscOperationDone (die : Nat)
  /-- Reading MSCSTAT returns and clears its walk counters (R399). -/
  | mscstatRead (die : Nat)
  /-- Reading NEWELSTAT returns and clears MAXW (R59). -/
  | newelstatRead (d : BitVec 5)
  /-- A write of ones clears face bits of NBRLOST (R451). -/
  | nbrlostWrite (v : Word)
  /-- A write of the clock pattern takes effect at the next rotation boundary unless it has fewer than 4 ones (R433). -/
  | ipatWrite (cl : Nat) (v : Word)
  /-- At each 32-edge rotation boundary the effective pattern is recomputed from PAT and D (R434). -/
  | rotationBoundary (cl : Nat)
  /-- A performance-state request sets the pair's target and starts a switch or ramp (R438). -/
  | psreqWrite (cl : Nat) (v : Word)
  /-- The voltage ramp reaches the target voltage and the clock switches within a window (R439). -/
  | voltageReached (pair : Nat)
  /-- Every 256 die pulses the balancer measures imbalance and takes one ballast or duty action (R436). -/
  | balancerSample (pair ia ib : Nat)
  /-- Every 1 ms the SMC lowers or raises each pair's thermal cap: `power` is the device's, in watts averaged over the last 10 ms (R441). -/
  | thermalCapUpdate (pair temp power : Nat)
  /-- An over-temperature, over-current, rail or imbalance condition drops the pair to P3 and sends 7.7.4 records (R442). -/
  | powerEmergency (pair sensor : Nat)
  /-- After the condition has been clear for 10 ms the pair's cap starts to rise (R442). -/
  | emergencyClear (pair : Nat)
  /-- The watchdog count of no progress expires, fences the cluster and sends 7.7.2 (R362). -/
  | watchdogFire (cl : Nat) (why port : Nat)
  /-- The SMC fences the physical cluster that carries logical cluster `cl`, or from 256 up physical cluster cl - 256, discarding its commands
  and stores and sending 7.7.3 records (R444). -/
  | clusterFence (cl : Nat) (cause : BitVec 9)
  /-- The SMC maps a fenced logical cluster to a spare and resumes or restarts each region there (R445). -/
  | spareRemap (cl : Nat)
  /-- The HBM controller visits a row group and refreshes it unless a skip condition holds (R396). -/
  | refreshVisit (channel bankgroup bank group : Nat)
  /-- Power-on runs the SMC boot stages to Ready or a recorded failure (R413). -/
  | powerOn (boot : BootData)
  /-- An Ethernet port goes up or down (R418). -/
  | linkChange (port : Nat) (up : Bool)
  /-- The switch forwards a packet on a productive or escape route, marking or trimming it under congestion (R419). -/
  | transitPacket (port : Nat) (pkt : Packet)
  /-- A remote store packet is key-checked, translated and performed, or held under the ordered flag (R268). -/
  | inboundRst (pkt : Packet)
  /-- A remote load packet is checked, read and returned (R268). -/
  | inboundRld (pkt : Packet)
  /-- A remote atomic packet is checked, performed and returns the old value (R268). -/
  | inboundRatom (pkt : Packet)
  /-- A remote signal packet adds to a semaphore or is held while its cluster is suspended (R269). -/
  | inboundRsig (pkt : Packet)
  /-- A remote spawn packet is checked and enters the target queue or is held (R429). -/
  | inboundRspawn (pkt : Packet)
  /-- A remote copy piece is checked and its 64-byte line performed (R317). -/
  | inboundCopyPiece (pkt : Packet)
  /-- An inbound packet with an invalid opcode, mode or reserved field is dropped and counted (R424). -/
  | inboundDroppedPacket (port : Nat) (pkt : Packet)
  /-- An acknowledgement returns to the source, counting the path and freeing the operation (R116). -/
  | remoteAck (id : Nat)
  /-- A rejection returns to the source and is reported as a late failure or a write failure (R273). -/
  | remoteReject (id : Nat) (kind : BitVec 3) (detail : Word)
  /-- RLD or RATOM data returns to the source register (R268). -/
  | remoteReturn (id : Nat) (data : Word)
  /-- A RETRY answer makes the source resend the operation, with START when required (R426). -/
  | remoteRetry (id : Nat)
  /-- A NACK or trim answer triggers a selective retransmission (R421). -/
  | nack (id : Nat)
  /-- A retransmission timer expires and the packet is sent again (R421). -/
  | retransmitTimeout (id : Nat)
  /-- An operation's 8 ms retry budget ends and it fails with 6.6.7 (R427). -/
  | retryBudgetExpiry (id : Nat)
  /-- An OF write held for 4 ms at the target is discarded without a response (R427). -/
  | ofHoldExpiry (k : Nat)
  /-- An RSPAWN held for 4 ms is discarded without a response (R427). -/
  | rspawnHoldExpiry (k : Nat)
  /-- An RSIG held for 4 ms is discarded without a response (R428). -/
  | rsigHoldExpiry (k : Nat)
  /-- Every 100 ms the SMC sends a heartbeat on each up torus port (R451). -/
  | heartbeatSend
  /-- A neighbour's heartbeat arrives and renews its liveness (R451). -/
  | heartbeatReceive (face : Nat)
  /-- No heartbeat from a neighbour for 2 s sets its NBRLOST bit and sends MSI-X (R451). -/
  | neighbourLost (face pkg : Nat)
  /-- A neighbour's checkpoint copy arrives on a ROD stream and is kept in the store (R449). -/
  | checkpointCopyReceive (origin rgn : Nat) (ckseq : Word) (bytes : List Byte)
  /-- A write to a register without its own row stores fields under its access codes (R3). -/
  | registerWrite (off : Nat) (v : Word)
  /-- The target endpoint discards a stream entry that holds no OF write (R426). -/
  | streamEntryDiscard (k : Nat)
  deriving DecidableEq, Repr

/-- A row without an instruction word: an event of an engine, the store lane, the host, the SMC or the fabric. -/
def Instr.isEvent : Instr → Bool
  | .resultWriteback _ => true
  | .lateFailure _ _ _ => true
  | .commandStart _ _ => true
  | .commandCompletion _ => true
  | .errorCompletion _ => true
  | .vectorRetire _ => true
  | .formation _ => true
  | .spawnRequestArrival _ => true
  | .spawnAdmission _ => true
  | .spwlimExpiry _ _ => true
  | .swlimExpiry _ _ => true
  | .waitLimitExpiry _ _ => true
  | .sleepExpiry _ _ => true
  | .semaphoreSignal _ => true
  | .storeEntryDeparture _ => true
  | .writeWindowStart _ => true
  | .writePerform _ _ => true
  | .tableWalk _ _ _ _ => true
  | .fencePerform _ _ => true
  | .quitComplete _ _ => true
  | .faultRecord _ => true
  | .faultQueueRetry _ => true
  | .rgnctlSuspend _ => true
  | .saveBlockWrite _ => true
  | .rgnctlResume _ => true
  | .rgnctlKill _ => true
  | .killComplete _ => true
  | .kunbindTeardown _ => true
  | .rcmdActivate _ => true
  | .rcmdReload _ => true
  | .rcmdKill _ => true
  | .ccmdTresume => true
  | .ccmdTctxr => true
  | .ccmdTctxw => true
  | .ccmdTkill => true
  | .bcmdKbind => true
  | .bcmdKunbind => true
  | .attest _ _ => true
  | .loadkey _ _ _ => true
  | .emptykey _ _ => true
  | .bypasskey _ _ => true
  | .remap _ _ => true
  | .telem _ => true
  | .checkpoint _ => true
  | .move _ => true
  | .mailboxUnknownCommand _ => true
  | .foyerRequest _ _ => true
  | .semvalRead _ => true
  | .hostMemWrite _ _ => true
  | .hostMemRead _ _ => true
  | .apertureCompletion _ _ => true
  | .mscFlush _ => true
  | .mscWayChange _ _ => true
  | .mscOperationDone _ => true
  | .mscstatRead _ => true
  | .newelstatRead _ => true
  | .nbrlostWrite _ => true
  | .ipatWrite _ _ => true
  | .rotationBoundary _ => true
  | .psreqWrite _ _ => true
  | .voltageReached _ => true
  | .balancerSample _ _ _ => true
  | .thermalCapUpdate _ _ _ => true
  | .powerEmergency _ _ => true
  | .emergencyClear _ => true
  | .watchdogFire _ _ _ => true
  | .clusterFence _ _ => true
  | .spareRemap _ => true
  | .refreshVisit _ _ _ _ => true
  | .powerOn _ => true
  | .linkChange _ _ => true
  | .transitPacket _ _ => true
  | .inboundRst _ => true
  | .inboundRld _ => true
  | .inboundRatom _ => true
  | .inboundRsig _ => true
  | .inboundRspawn _ => true
  | .inboundCopyPiece _ => true
  | .inboundDroppedPacket _ _ => true
  | .remoteAck _ => true
  | .remoteReject _ _ _ => true
  | .remoteReturn _ _ => true
  | .remoteRetry _ => true
  | .nack _ => true
  | .retransmitTimeout _ => true
  | .retryBudgetExpiry _ => true
  | .ofHoldExpiry _ => true
  | .rspawnHoldExpiry _ => true
  | .rsigHoldExpiry _ => true
  | .heartbeatSend => true
  | .heartbeatReceive _ => true
  | .neighbourLost _ _ => true
  | .checkpointCopyReceive _ _ _ _ => true
  | .registerWrite _ _ => true
  | .instructionFetch _ _ => true
  | .streamEntryDiscard _ => true
  | _ => false

end Sys2Proof
end

