-- ==== Sys2Proof/WellFormed.lean ====
section
/-! DEFINITION. Which terms of `Instr` an instruction word or an event can stand for: assigned codes (10 R209 to R215),
reserved combinations within operand fields (10 R206, 12 R257, R265) and the ranges of event operands. -/

namespace Sys2Proof

/-- A field of fn, size, order, op, type or width holds an assigned code (10 R209 to R215). -/
def Instr.codeAssigned : Instr → Bool
  | .ld _ _ z _ | .ldAcq _ _ z _ | .ldc _ _ z _ => z.toNat ≤ 6
  | .stRel _ _ _ o _ => o.toNat ≠ 0
  | .atom _ _ _ _ o => o.toNat ≤ 8
  | .fence c => c.toNat ≤ 4
  | .ratom _ _ _ o _ => o.toNat ≤ 9
  | .fpath w => w.toNat ≤ 4
  | .vsetvl _ _ t g => t.toNat ≤ 7 && g.toNat ≤ 2
  | .vcvt _ _ t _ _ _ => t.toNat ≤ 7
  | .vqnt _ _ _ _ _ f => f.toNat ≤ 4
  | .vdq _ _ _ _ f => f.toNat ≤ 4
  | .vred _ _ _ o | .vscan _ _ _ o => o.toNat ≤ 5
  | .vmlog _ _ _ o => o.toNat ≤ 5
  | .mpass _ _ _ t | .mpassh _ _ _ t => t.toNat ≤ 6
  | _ => true

/-- A field that is reserved only under some code of the same word is zero (10 R210, R211, R213; 12 R265). -/
def Instr.condReservedOk : Instr → Bool
  | .plog _ o _ b => o.toNat < 6 || b.toNat = 0
  | .vmlog _ _ b o => o.toNat ≠ 5 || b.toNat = 0
  | .ratom d _ _ o _ => o.toNat ≠ 9 || d.toNat % 2 = 0
  | .loop d _ => d.toNat ≠ 0
  | _ => true

/-- The operands of an event name a cluster, slot, die, lane, port or face that exists (01 R10, R13). -/
def Instr.eventOk : Instr → Bool
  | .commandStart cl _ | .formation cl | .spawnAdmission cl | .storeEntryDeparture cl | .rgnctlSuspend cl
  | .saveBlockWrite cl | .rgnctlResume cl | .rgnctlKill cl | .ipatWrite cl _ | .psreqWrite cl _
  | .watchdogFire cl _ _ | .clusterFence cl _ | .spareRemap cl => cl < 256
  | .spwlimExpiry cl slot | .swlimExpiry cl slot | .waitLimitExpiry cl slot | .sleepExpiry cl slot
  | .fencePerform cl slot | .quitComplete cl slot | .instructionFetch cl slot => cl < 256 && slot < 512
  | .rotationBoundary p => p < 288
  | .writeWindowStart d | .mscFlush d | .mscWayChange d _ | .mscOperationDone d | .mscstatRead d => d < 4
  | .tableWalk d r _ n => d < 4 && r < 256 && n < 32
  | .faultRecord r | .faultQueueRetry r | .killComplete r => r < 256
  | .foyerRequest l _ | .semvalRead l => l < 64
  | .linkChange p _ | .transitPacket p _ | .inboundDroppedPacket p _ => p < 16
  | .heartbeatReceive f | .neighbourLost f _ => f < 6
  | .voltageReached p | .balancerSample p _ _ | .thermalCapUpdate p _ _ | .powerEmergency p _ | .emergencyClear p => p < 144
  | .refreshVisit c g b r => c < 256 && g < 4 && b < 4 && r < 2048
  | .registerWrite off _ => off < 2 ^ 24 && off % 8 = 0
  | _ => true

/-- A term of `Instr` that the encodings and the event table admit. -/
def Instr.wf (i : Instr) : Bool := i.codeAssigned && i.condReservedOk && i.eventOk

end Sys2Proof
end

