-- ==== Sys2Proof/Decode.lean ====
section
/-! DEFINITION. The decoder of one instruction word, total on 32 bits and rejecting by name (10 R203 to R217), and after
it the encoder, written from the same encoding tables. The framing of bundles (10 R198) is in Machine/Fetch.lean. -/

namespace Sys2Proof

/-- Why a word is no instruction, in the order of 10 R217. -/
inductive DecodeErr where
  | major                   -- 0.0.0
  | function                -- 0.0.1
  | reserved (bits : Insn)  -- 0.0.2, with the non-zero reserved bits
  deriving DecidableEq, Repr

/-- The field [lo+len-1:lo] of an instruction word. -/
abbrev x (w : Insn) (lo len : Nat) : BitVec len := w.extractLsb' lo len

/-- The bits of a word that lie in the listed fields (lowest bit, length). -/
def resBits (w : Insn) : List (Nat × Nat) → Nat
  | [] => 0
  | (lo, len) :: fs => (x w lo len).toNat * 2 ^ lo + resBits w fs

/-- The listed reserved fields are all zero. -/
def resZero (w : Insn) : List (Nat × Nat) → Bool
  | [] => true
  | (lo, len) :: fs => x w lo len == 0#len && resZero w fs

/-- The non-zero bits of a field that one code of an instruction reserves: pb of PLOG mov and not, vb of VMLOG not, d[19] of RATOM acas
(10 R206). -/
def condBits (i : Instr) : Nat :=
  if i.condReservedOk then 0
  else match i with
    | .plog _ _ _ b => b.toNat * 2 ^ 10
    | .vmlog _ _ b _ => b.toNat * 2 ^ 9
    | .ratom .. => 0x00080000
    | _ => 0

/-- Answers the instruction unless a code is unassigned or a reserved field is not zero; the error names every non-zero reserved bit
(10 R206, R217 checks 3, 4, R218). -/
def rsv (w : Insn) (fs : List (Nat × Nat)) (i : Instr) : Except DecodeErr Instr :=
  if !i.codeAssigned then .error .function
  else if resZero w fs && i.condReservedOk then .ok i
  else .error (.reserved (BitVec.ofNat 32 (resBits w fs + condBits i)))

/-- Major 0x00 (10 R208 to R215). -/
def decode00 (w : Insn) : Except DecodeErr Instr :=
  if x w 0 9 == 0#9 then
    rsv w [] (.add (x w 19 5) (x w 14 5) (x w 9 5))
  else
  if x w 0 9 == 1#9 then
    rsv w [] (.sub (x w 19 5) (x w 14 5) (x w 9 5))
  else
  if x w 0 9 == 2#9 then
    rsv w [] (.and (x w 19 5) (x w 14 5) (x w 9 5))
  else
  if x w 0 9 == 3#9 then
    rsv w [] (.or (x w 19 5) (x w 14 5) (x w 9 5))
  else
  if x w 0 9 == 4#9 then
    rsv w [] (.xor (x w 19 5) (x w 14 5) (x w 9 5))
  else
  if x w 0 9 == 5#9 then
    rsv w [] (.andn (x w 19 5) (x w 14 5) (x w 9 5))
  else
  if x w 0 9 == 6#9 then
    rsv w [] (.orn (x w 19 5) (x w 14 5) (x w 9 5))
  else
  if x w 0 9 == 8#9 then
    rsv w [] (.shl (x w 19 5) (x w 14 5) (x w 9 5))
  else
  if x w 0 9 == 9#9 then
    rsv w [] (.shr (x w 19 5) (x w 14 5) (x w 9 5))
  else
  if x w 0 9 == 10#9 then
    rsv w [] (.sra (x w 19 5) (x w 14 5) (x w 9 5))
  else
  if x w 0 9 == 11#9 then
    rsv w [] (.rol (x w 19 5) (x w 14 5) (x w 9 5))
  else
  if x w 0 9 == 16#9 then
    rsv w [] (.min (x w 19 5) (x w 14 5) (x w 9 5))
  else
  if x w 0 9 == 17#9 then
    rsv w [] (.max (x w 19 5) (x w 14 5) (x w 9 5))
  else
  if x w 0 9 == 18#9 then
    rsv w [] (.minu (x w 19 5) (x w 14 5) (x w 9 5))
  else
  if x w 0 9 == 19#9 then
    rsv w [] (.maxu (x w 19 5) (x w 14 5) (x w 9 5))
  else
  if x w 3 6 == 4#6 then
    rsv w [] (.cselT (x w 19 5) (x w 14 5) (x w 9 5) (x w 0 3))
  else
  if x w 3 6 == 5#6 then
    rsv w [] (.cselF (x w 19 5) (x w 14 5) (x w 9 5) (x w 0 3))
  else
  if x w 0 9 == 48#9 then
    rsv w [(9, 10)] (.pmovToG (x w 19 5))
  else
  if x w 0 9 == 49#9 then
    rsv w [(9, 5), (19, 5)] (.pmovToP (x w 14 5))
  else
  .error .function

/-- Major 0x01 (10 R208 to R215). -/
def decode01 (w : Insn) : Except DecodeErr Instr :=
  if x w 0 9 == 0#9 then
    rsv w [] (.mul (x w 19 5) (x w 14 5) (x w 9 5))
  else
  if x w 0 9 == 1#9 then
    rsv w [] (.mulh (x w 19 5) (x w 14 5) (x w 9 5))
  else
  if x w 0 9 == 2#9 then
    rsv w [] (.mulhu (x w 19 5) (x w 14 5) (x w 9 5))
  else
  if x w 0 9 == 3#9 then
    rsv w [] (.madd (x w 19 5) (x w 14 5) (x w 9 5))
  else
  if x w 0 9 == 8#9 then
    rsv w [] (.divu (x w 19 5) (x w 14 5) (x w 9 5))
  else
  if x w 0 9 == 9#9 then
    rsv w [] (.remu (x w 19 5) (x w 14 5) (x w 9 5))
  else
  .error .function

/-- Major 0x02 (10 R208 to R215). -/
def decode02 (w : Insn) : Except DecodeErr Instr :=
  if x w 0 9 == 0#9 then
    rsv w [(9, 5)] (.clz (x w 19 5) (x w 14 5))
  else
  if x w 0 9 == 1#9 then
    rsv w [(9, 5)] (.ctz (x w 19 5) (x w 14 5))
  else
  if x w 0 9 == 2#9 then
    rsv w [(9, 5)] (.popc (x w 19 5) (x w 14 5))
  else
  if x w 0 9 == 3#9 then
    rsv w [(9, 5)] (.brev (x w 19 5) (x w 14 5))
  else
  if x w 0 9 == 4#9 then
    rsv w [(9, 5)] (.bswap (x w 19 5) (x w 14 5))
  else
  if x w 0 9 == 8#9 then
    rsv w [] (.bfx (x w 19 5) (x w 14 5) (x w 9 5))
  else
  if x w 0 9 == 9#9 then
    rsv w [] (.bfxs (x w 19 5) (x w 14 5) (x w 9 5))
  else
  if x w 0 9 == 10#9 then
    rsv w [] (.bfi (x w 19 5) (x w 14 5) (x w 9 5))
  else
  if x w 6 3 == 1#3 then
    rsv w [] (.xshf (x w 19 5) (x w 14 5) (x w 9 5) (x w 0 6))
  else
  .error .function

/-- Major 0x03 (10 R208 to R215). -/
def decode03 (w : Insn) : Except DecodeErr Instr :=
  rsv w [] (.addi (x w 19 5) (x w 14 5) (x w 0 14))

/-- Major 0x04 (10 R208 to R215). -/
def decode04 (w : Insn) : Except DecodeErr Instr :=
  rsv w [] (.andi (x w 19 5) (x w 14 5) (x w 0 14))

/-- Major 0x05 (10 R208 to R215). -/
def decode05 (w : Insn) : Except DecodeErr Instr :=
  rsv w [] (.ori (x w 19 5) (x w 14 5) (x w 0 14))

/-- Major 0x06 (10 R208 to R215). -/
def decode06 (w : Insn) : Except DecodeErr Instr :=
  rsv w [] (.xori (x w 19 5) (x w 14 5) (x w 0 14))

/-- Major 0x07 (10 R208 to R215). -/
def decode07 (w : Insn) : Except DecodeErr Instr :=
  if x w 11 3 == 0#3 then
    rsv w [(6, 5)] (.shli (x w 19 5) (x w 14 5) (x w 0 6))
  else
  if x w 11 3 == 1#3 then
    rsv w [(6, 5)] (.shri (x w 19 5) (x w 14 5) (x w 0 6))
  else
  if x w 11 3 == 2#3 then
    rsv w [(6, 5)] (.srai (x w 19 5) (x w 14 5) (x w 0 6))
  else
  if x w 11 3 == 3#3 then
    rsv w [(6, 5)] (.roli (x w 19 5) (x w 14 5) (x w 0 6))
  else
  .error .function

/-- Major 0x08 (10 R208 to R215). -/
def decode08 (w : Insn) : Except DecodeErr Instr :=
  rsv w [] (.movi (x w 19 5) (x w 0 19))

/-- Major 0x09 (10 R208 to R215). -/
def decode09 (w : Insn) : Except DecodeErr Instr :=
  if x w 16 1 == 0#1 then
    rsv w [] (.movk (x w 19 5) (x w 17 2) (x w 0 16))
  else
  if x w 16 1 == 1#1 then
    rsv w [] (.movkZ (x w 19 5) (x w 17 2) (x w 0 16))
  else
  .error .function

/-- Major 0x0A (10 R208 to R215). -/
def decode0A (w : Insn) : Except DecodeErr Instr :=
  rsv w [(0, 8)] (.cmp (x w 21 3) (x w 18 3) (x w 13 5) (x w 8 5))

/-- Major 0x0B (10 R208 to R215). -/
def decode0B (w : Insn) : Except DecodeErr Instr :=
  rsv w [] (.cmpi (x w 21 3) (x w 18 3) (x w 13 5) (x w 0 13))

/-- Major 0x0C (10 R208 to R215). -/
def decode0C (w : Insn) : Except DecodeErr Instr :=
  rsv w [(0, 10), (16, 2)] (.plog (x w 21 3) (x w 18 3) (x w 13 3) (x w 10 3))

/-- Major 0x18 (10 R208 to R215). -/
def decode18 (w : Insn) : Except DecodeErr Instr :=
  if x w 23 1 == 0#1 then
    rsv w [] (.brT (x w 20 3) (x w 0 20))
  else
  if x w 23 1 == 1#1 then
    rsv w [] (.brF (x w 20 3) (x w 0 20))
  else
  .error .function

/-- Major 0x19 (10 R208 to R215). -/
def decode19 (w : Insn) : Except DecodeErr Instr :=
  rsv w [] (.jmp (x w 0 24))

/-- Major 0x1A (10 R208 to R215). -/
def decode1A (w : Insn) : Except DecodeErr Instr :=
  rsv w [] (.call (x w 0 24))

/-- Major 0x1B (10 R208 to R215). -/
def decode1B (w : Insn) : Except DecodeErr Instr :=
  if x w 0 14 == 0#14 then
    rsv w [(19, 5)] (.jr (x w 14 5))
  else
  if x w 0 14 == 1#14 then
    rsv w [(19, 5)] (.callr (x w 14 5))
  else
  if x w 0 14 == 2#14 then
    rsv w [(14, 10)] (.ret)
  else
  .error .function

/-- Major 0x1C (10 R208 to R215). -/
def decode1C (w : Insn) : Except DecodeErr Instr :=
  if x w 19 5 == 0#5 then
    rsv w [(0, 19)] (.nop)
  else
  rsv w [(14, 5)] (.loop (x w 19 5) (x w 0 14))

/-- Major 0x1D (10 R208 to R215). -/
def decode1D (w : Insn) : Except DecodeErr Instr :=
  if x w 10 4 == 0#4 then
    rsv w [(0, 10), (14, 2)] (.spawn (x w 19 5) (x w 16 3))
  else
  if x w 10 4 == 1#4 then
    rsv w [(3, 7), (14, 2)] (.spawnt (x w 19 5) (x w 16 3) (x w 0 3))
  else
  if x w 10 4 == 2#4 then
    rsv w [(0, 10), (14, 10)] (.quit)
  else
  if x w 10 4 == 3#4 then
    rsv w [(3, 7), (14, 10)] (.setpri (x w 0 3))
  else
  if x w 10 4 == 4#4 then
    rsv w [(2, 8), (14, 10)] (.rshrink (x w 0 2))
  else
  if x w 10 4 == 5#4 then
    rsv w [(0, 10), (19, 5)] (.sleep (x w 14 5))
  else
  .error .function

/-- Major 0x1E (10 R208 to R215). -/
def decode1E (w : Insn) : Except DecodeErr Instr :=
  if x w 11 3 == 0#3 then
    rsv w [(8, 3)] (.swait (x w 19 5) (x w 14 5) (x w 0 8))
  else
  if x w 11 3 == 1#3 then
    rsv w [(0, 1)] (.qwait (x w 19 5) (x w 14 5) (x w 8 3) (x w 1 7))
  else
  if x w 11 3 == 2#3 then
    rsv w [(19, 5)] (.stry (x w 14 5) (x w 8 3) (x w 0 8))
  else
  if x w 10 4 == 6#4 then
    rsv w [(8, 2), (19, 5)] (.ssig (x w 14 5) (x w 0 8))
  else
  if x w 10 4 == 7#4 then
    rsv w [(8, 2)] (.ssigRemote (x w 19 5) (x w 14 5) (x w 0 8))
  else
  if x w 10 4 == 8#4 then
    rsv w [(8, 2), (19, 5)] (.ssigG (x w 14 5) (x w 0 8))
  else
  if x w 10 4 == 9#4 then
    rsv w [(8, 2)] (.ssigGRemote (x w 19 5) (x w 14 5) (x w 0 8))
  else
  if x w 11 3 == 5#3 then
    rsv w [(8, 3), (19, 5)] (.sset (x w 14 5) (x w 0 8))
  else
  if x w 11 3 == 6#3 then
    rsv w [(8, 3), (14, 5)] (.sread (x w 19 5) (x w 0 8))
  else
  if x w 11 3 == 7#3 then
    rsv w [(8, 3), (14, 10)] (.spois (x w 0 8))
  else
  .error .function

/-- Major 0x1F (10 R208 to R215). -/
def decode1F (w : Insn) : Except DecodeErr Instr :=
  if x w 12 2 == 0#2 then
    rsv w [(4, 8), (19, 5)] (.barinit (x w 14 5) (x w 0 4))
  else
  if x w 12 2 == 1#2 then
    rsv w [(4, 8), (14, 10)] (.barrive (x w 0 4))
  else
  if x w 12 2 == 2#2 then
    rsv w [(4, 8), (19, 5)] (.barwait (x w 14 5) (x w 0 4))
  else
  if x w 12 2 == 3#2 then
    rsv w [(4, 8), (19, 5)] (.barsync (x w 14 5) (x w 0 4))
  else
  .error .function

/-- Major 0x20 (10 R208 to R215). -/
def decode20 (w : Insn) : Except DecodeErr Instr :=
  if x w 9 2 == 0#2 then
    rsv w [] (.ld (x w 19 5) (x w 14 5) (x w 11 3) (x w 0 9))
  else
  if x w 9 2 == 1#2 then
    rsv w [] (.ldAcq (x w 19 5) (x w 14 5) (x w 11 3) (x w 0 9))
  else
  if x w 9 2 == 2#2 then
    rsv w [] (.ldc (x w 19 5) (x w 14 5) (x w 11 3) (x w 0 9))
  else
  .error .function

/-- Major 0x21 (10 R208 to R215). -/
def decode21 (w : Insn) : Except DecodeErr Instr :=
  if x w 9 2 == 0#2 && x w 13 1 == 0#1 then
    rsv w [] (.st (x w 19 5) (x w 14 5) (x w 11 2) (x w 0 9))
  else
  if x w 13 1 == 0#1 then
    rsv w [] (.stRel (x w 19 5) (x w 14 5) (x w 11 2) (x w 9 2) (x w 0 9))
  else
  if x w 9 5 == 16#5 then
    rsv w [] (.stNlo (x w 19 5) (x w 14 5) (x w 0 9))
  else
  if x w 9 5 == 20#5 then
    rsv w [] (.stNhi (x w 19 5) (x w 14 5) (x w 0 9))
  else
  .error .function

/-- Major 0x22 (10 R208 to R215). -/
def decode22 (w : Insn) : Except DecodeErr Instr :=
  if x w 4 5 == 9#5 && x w 12 2 == 1#2 then
    rsv w [(0, 4), (19, 1)] (.acas (x w 20 4) (x w 14 5) (x w 11 1) (x w 9 2))
  else
  if x w 12 2 == 1#2 then
    rsv w [(0, 4)] (.atom (x w 19 5) (x w 14 5) (x w 11 1) (x w 9 2) (x w 4 5))
  else
  .error .function

/-- Major 0x23 (10 R208 to R215). -/
def decode23 (w : Insn) : Except DecodeErr Instr :=
  if x w 11 3 == 0#3 then
    rsv w [(3, 8), (14, 10)] (.fence (x w 0 3))
  else
  if x w 0 1 == 0#1 && x w 11 3 == 1#3 then
    rsv w [(1, 10), (14, 10)] (.icinvI)
  else
  if x w 0 1 == 1#1 && x w 11 3 == 1#3 then
    rsv w [(1, 10), (14, 10)] (.icinvC)
  else
  .error .function

/-- Major 0x24 (10 R208 to R215). -/
def decode24 (w : Insn) : Except DecodeErr Instr :=
  if x w 11 3 == 0#3 then
    rsv w [(0, 8)] (.rst (x w 19 5) (x w 14 5) (x w 9 2) (x w 8 1))
  else
  if x w 11 3 == 1#3 then
    rsv w [(0, 9)] (.rld (x w 19 5) (x w 14 5) (x w 9 2))
  else
  if x w 11 3 == 2#3 then
    rsv w [(0, 5)] (.ratom (x w 19 5) (x w 14 5) (x w 10 1) (x w 6 4) (x w 5 1))
  else
  if x w 11 3 == 3#3 then
    rsv w [(0, 8), (9, 2)] (.rsig (x w 19 5) (x w 14 5) (x w 8 1))
  else
  if x w 11 3 == 4#3 then
    rsv w [(0, 11), (14, 2)] (.rspawn (x w 19 5) (x w 16 3))
  else
  if x w 11 3 == 5#3 then
    rsv w [(3, 8), (14, 10)] (.fpath (x w 0 3))
  else
  .error .function

/-- Major 0x28 (10 R208 to R215). -/
def decode28 (w : Insn) : Except DecodeErr Instr :=
  if x w 0 1 == 0#1 && x w 3 3 == 0#3 then
    rsv w [(9, 5)] (.vld (x w 19 5) (x w 14 5) (x w 6 3) (x w 1 2))
  else
  if x w 0 1 == 0#1 && x w 3 3 == 1#3 then
    rsv w [] (.vlds (x w 19 5) (x w 14 5) (x w 9 5) (x w 6 3) (x w 1 2))
  else
  if x w 0 1 == 0#1 && x w 3 3 == 2#3 then
    rsv w [] (.vldx (x w 19 5) (x w 14 5) (x w 9 5) (x w 6 3) (x w 1 2))
  else
  if x w 0 1 == 0#1 && x w 3 3 == 3#3 then
    rsv w [(9, 5)] (.vldt (x w 19 5) (x w 14 5) (x w 6 3) (x w 1 2))
  else
  if x w 0 1 == 0#1 && x w 3 3 == 4#3 then
    rsv w [(9, 5)] (.vst (x w 19 5) (x w 14 5) (x w 6 3) (x w 1 2))
  else
  if x w 0 1 == 0#1 && x w 3 3 == 5#3 then
    rsv w [] (.vsts (x w 19 5) (x w 14 5) (x w 9 5) (x w 6 3) (x w 1 2))
  else
  if x w 0 1 == 0#1 && x w 3 3 == 6#3 then
    rsv w [] (.vstx (x w 19 5) (x w 14 5) (x w 9 5) (x w 6 3) (x w 1 2))
  else
  .error .function

/-- Major 0x29 (10 R208 to R215). -/
def decode29 (w : Insn) : Except DecodeErr Instr :=
  if x w 0 6 == 0#6 then
    rsv w [(9, 5)] (.vbcast (x w 19 5) (x w 14 5) (x w 6 3))
  else
  if x w 0 6 == 1#6 then
    rsv w [(6, 8)] (.vmovsToG (x w 19 5) (x w 14 5))
  else
  if x w 0 6 == 2#6 then
    rsv w [(6, 8)] (.vmovsToV (x w 19 5) (x w 14 5))
  else
  if x w 0 6 == 3#6 then
    rsv w [(6, 3)] (.vext (x w 19 5) (x w 14 5) (x w 9 5))
  else
  if x w 0 6 == 4#6 then
    rsv w [(6, 2)] (.vsetvl (x w 19 5) (x w 14 5) (x w 10 4) (x w 8 2))
  else
  if x w 0 6 == 5#6 then
    rsv w [(9, 10)] (.viota (x w 19 5) (x w 6 3))
  else
  if x w 0 6 == 6#6 then
    rsv w [(6, 18)] (.vwait)
  else
  if x w 0 6 == 7#6 then
    rsv w [(6, 3), (19, 5)] (.vsig (x w 11 8) (x w 9 2))
  else
  .error .function

/-- Major 0x2A (10 R208 to R215). -/
def decode2A (w : Insn) : Except DecodeErr Instr :=
  if x w 0 6 == 0#6 then
    rsv w [] (.vadd (x w 19 5) (x w 14 5) (x w 9 5) (x w 6 3))
  else
  if x w 0 6 == 1#6 then
    rsv w [] (.vsub (x w 19 5) (x w 14 5) (x w 9 5) (x w 6 3))
  else
  if x w 0 6 == 2#6 then
    rsv w [] (.vmul (x w 19 5) (x w 14 5) (x w 9 5) (x w 6 3))
  else
  if x w 0 6 == 3#6 then
    rsv w [] (.vfma (x w 19 5) (x w 14 5) (x w 9 5) (x w 6 3))
  else
  if x w 0 6 == 4#6 then
    rsv w [] (.vfms (x w 19 5) (x w 14 5) (x w 9 5) (x w 6 3))
  else
  if x w 0 6 == 5#6 then
    rsv w [] (.vfnma (x w 19 5) (x w 14 5) (x w 9 5) (x w 6 3))
  else
  if x w 0 6 == 6#6 then
    rsv w [] (.vmin (x w 19 5) (x w 14 5) (x w 9 5) (x w 6 3))
  else
  if x w 0 6 == 7#6 then
    rsv w [] (.vmax (x w 19 5) (x w 14 5) (x w 9 5) (x w 6 3))
  else
  if x w 0 6 == 8#6 then
    rsv w [(9, 5)] (.vabs (x w 19 5) (x w 14 5) (x w 6 3))
  else
  if x w 0 6 == 9#6 then
    rsv w [(9, 5)] (.vneg (x w 19 5) (x w 14 5) (x w 6 3))
  else
  if x w 0 6 == 10#6 then
    rsv w [(9, 5)] (.vclass (x w 19 5) (x w 14 5) (x w 6 3))
  else
  .error .function

/-- Major 0x2B (10 R208 to R215). -/
def decode2B (w : Insn) : Except DecodeErr Instr :=
  if x w 0 6 == 0#6 then
    rsv w [] (.viadd (x w 19 5) (x w 14 5) (x w 9 5) (x w 6 3))
  else
  if x w 0 6 == 1#6 then
    rsv w [] (.visub (x w 19 5) (x w 14 5) (x w 9 5) (x w 6 3))
  else
  if x w 0 6 == 2#6 then
    rsv w [] (.vimul (x w 19 5) (x w 14 5) (x w 9 5) (x w 6 3))
  else
  if x w 0 6 == 3#6 then
    rsv w [] (.vimad (x w 19 5) (x w 14 5) (x w 9 5) (x w 6 3))
  else
  if x w 0 6 == 4#6 then
    rsv w [] (.vimin (x w 19 5) (x w 14 5) (x w 9 5) (x w 6 3))
  else
  if x w 0 6 == 5#6 then
    rsv w [] (.vimax (x w 19 5) (x w 14 5) (x w 9 5) (x w 6 3))
  else
  if x w 0 6 == 6#6 then
    rsv w [] (.vand (x w 19 5) (x w 14 5) (x w 9 5) (x w 6 3))
  else
  if x w 0 6 == 7#6 then
    rsv w [] (.vor (x w 19 5) (x w 14 5) (x w 9 5) (x w 6 3))
  else
  if x w 0 6 == 8#6 then
    rsv w [] (.vxor (x w 19 5) (x w 14 5) (x w 9 5) (x w 6 3))
  else
  if x w 0 6 == 9#6 then
    rsv w [] (.vshl (x w 19 5) (x w 14 5) (x w 9 5) (x w 6 3))
  else
  if x w 0 6 == 10#6 then
    rsv w [] (.vshr (x w 19 5) (x w 14 5) (x w 9 5) (x w 6 3))
  else
  if x w 0 6 == 11#6 then
    rsv w [] (.vsra (x w 19 5) (x w 14 5) (x w 9 5) (x w 6 3))
  else
  .error .function

/-- Major 0x2C (10 R208 to R215). -/
def decode2C (w : Insn) : Except DecodeErr Instr :=
  if x w 0 6 == 0#6 then
    rsv w [(9, 5)] (.vexp2 (x w 19 5) (x w 14 5) (x w 6 3))
  else
  if x w 0 6 == 1#6 then
    rsv w [(9, 5)] (.vlog2 (x w 19 5) (x w 14 5) (x w 6 3))
  else
  if x w 0 6 == 2#6 then
    rsv w [(9, 5)] (.vrcp (x w 19 5) (x w 14 5) (x w 6 3))
  else
  if x w 0 6 == 3#6 then
    rsv w [(9, 5)] (.vrsq (x w 19 5) (x w 14 5) (x w 6 3))
  else
  if x w 0 6 == 4#6 then
    rsv w [(9, 5)] (.vsqrt (x w 19 5) (x w 14 5) (x w 6 3))
  else
  if x w 0 6 == 5#6 then
    rsv w [(9, 5)] (.vtanh (x w 19 5) (x w 14 5) (x w 6 3))
  else
  .error .function

/-- Major 0x2D (10 R208 to R215). -/
def decode2D (w : Insn) : Except DecodeErr Instr :=
  if x w 0 2 == 0#2 && x w 4 2 == 0#2 then
    rsv w [] (.vcvt (x w 19 5) (x w 14 5) (x w 9 5) (x w 6 3) (x w 3 1) (x w 2 1))
  else
  if x w 4 2 == 1#2 then
    rsv w [] (.vqnt (x w 19 5) (x w 14 5) (x w 9 5) (x w 6 3) (x w 3 1) (x w 0 3))
  else
  if x w 3 3 == 4#3 then
    rsv w [] (.vdq (x w 19 5) (x w 14 5) (x w 9 5) (x w 6 3) (x w 0 3))
  else
  if x w 0 6 == 48#6 then
    rsv w [(19, 5)] (.vrseed (x w 14 5) (x w 9 5) (x w 6 3))
  else
  if x w 0 6 == 49#6 then
    rsv w [(9, 10)] (.vrng (x w 19 5) (x w 6 3))
  else
  .error .function

/-- Major 0x2E (10 R208 to R215). -/
def decode2E (w : Insn) : Except DecodeErr Instr :=
  if x w 3 3 == 0#3 then
    rsv w [(9, 5)] (.vred (x w 19 5) (x w 14 5) (x w 6 3) (x w 0 3))
  else
  if x w 3 3 == 1#3 then
    rsv w [(9, 5)] (.vscan (x w 19 5) (x w 14 5) (x w 6 3) (x w 0 3))
  else
  if x w 0 6 == 16#6 then
    rsv w [] (.vperm (x w 19 5) (x w 14 5) (x w 9 5) (x w 6 3))
  else
  if x w 0 6 == 17#6 then
    rsv w [] (.vrot (x w 19 5) (x w 14 5) (x w 9 5) (x w 6 3))
  else
  if x w 0 6 == 18#6 then
    rsv w [] (.vshuf (x w 19 5) (x w 14 5) (x w 9 5) (x w 6 3))
  else
  .error .function

/-- Major 0x2F (10 R208 to R215). -/
def decode2F (w : Insn) : Except DecodeErr Instr :=
  if x w 3 3 == 0#3 then
    rsv w [(22, 2)] (.vcmp (x w 19 3) (x w 14 5) (x w 9 5) (x w 6 3) (x w 0 3))
  else
  if x w 3 3 == 1#3 then
    rsv w [(22, 2)] (.vicmp (x w 19 3) (x w 14 5) (x w 9 5) (x w 6 3) (x w 0 3))
  else
  if x w 0 6 == 16#6 then
    rsv w [] (.vsel (x w 19 5) (x w 14 5) (x w 9 5) (x w 6 3))
  else
  if x w 3 3 == 3#3 then
    rsv w [(6, 3), (12, 2), (17, 2), (22, 2)] (.vmlog (x w 19 3) (x w 14 3) (x w 9 3) (x w 0 3))
  else
  if x w 0 6 == 32#6 then
    rsv w [(6, 8), (17, 2)] (.vmpop (x w 19 5) (x w 14 3))
  else
  .error .function

/-- Major 0x30 (10 R208 to R215). -/
def decode30 (w : Insn) : Except DecodeErr Instr :=
  if x w 0 9 == 0#9 then
    rsv w [(19, 2)] (.mclr (x w 21 3) (x w 11 8) (x w 9 2))
  else
  if x w 0 9 == 1#9 then
    rsv w [(19, 2)] (.mmode (x w 21 3) (x w 11 8) (x w 9 2))
  else
  if x w 0 9 == 2#9 then
    rsv w [(19, 2)] (.mrnm (x w 21 3) (x w 11 8) (x w 9 2))
  else
  if x w 0 9 == 3#9 then
    rsv w [(19, 2)] (.msave (x w 21 3) (x w 11 8) (x w 9 2))
  else
  if x w 0 9 == 4#9 then
    rsv w [(19, 2)] (.mload (x w 21 3) (x w 11 8) (x w 9 2))
  else
  if x w 0 9 == 5#9 then
    rsv w [(19, 2)] (.mhdr (x w 21 3) (x w 11 8) (x w 9 2))
  else
  if x w 0 9 == 6#9 then
    rsv w [(9, 12)] (.mstat (x w 21 3))
  else
  if x w 0 9 == 7#9 then
    rsv w [(19, 2)] (.mdrain (x w 21 3) (x w 11 8) (x w 9 2))
  else
  if x w 3 6 == 4#6 then
    rsv w [(19, 2)] (.mpass (x w 21 3) (x w 11 8) (x w 9 2) (x w 0 3))
  else
  if x w 3 6 == 6#6 then
    rsv w [(19, 2)] (.mpassh (x w 21 3) (x w 11 8) (x w 9 2) (x w 0 3))
  else
  .error .function

/-- Major 0x31 (10 R208 to R215). -/
def decode31 (w : Insn) : Except DecodeErr Instr :=
  if x w 0 9 == 0#9 then
    rsv w [(19, 2)] (.cpy (x w 21 3) (x w 11 8) (x w 9 2))
  else
  if x w 0 9 == 1#9 then
    rsv w [(19, 2)] (.cpyx (x w 21 3) (x w 11 8) (x w 9 2))
  else
  if x w 0 9 == 2#9 then
    rsv w [(19, 2)] (.cpym (x w 21 3) (x w 11 8) (x w 9 2))
  else
  if x w 0 9 == 3#9 then
    rsv w [(19, 2)] (.cpyf (x w 21 3) (x w 11 8) (x w 9 2))
  else
  .error .function

/-- Major 0x32 (10 R208 to R215). -/
def decode32 (w : Insn) : Except DecodeErr Instr :=
  if x w 0 9 == 0#9 then
    rsv w [(19, 2)] (.cbcfg (x w 21 3) (x w 11 8) (x w 9 2))
  else
  if x w 0 9 == 1#9 then
    rsv w [(19, 2)] (.cbpush (x w 21 3) (x w 11 8) (x w 9 2))
  else
  if x w 0 9 == 2#9 then
    rsv w [(9, 12)] (.cbnext (x w 21 3))
  else
  if x w 0 9 == 3#9 then
    rsv w [(19, 2)] (.cbdone (x w 21 3) (x w 11 8) (x w 9 2))
  else
  if x w 0 9 == 4#9 then
    rsv w [(9, 12)] (.cbstat (x w 21 3))
  else
  .error .function

/-- Major 0x33 (10 R208 to R215). -/
def decode33 (w : Insn) : Except DecodeErr Instr :=
  if x w 12 2 == 0#2 then
    rsv w [(14, 5)] (.sysr (x w 19 5) (x w 0 12))
  else
  if x w 12 2 == 1#2 then
    rsv w [(19, 5)] (.sysw (x w 14 5) (x w 0 12))
  else
  if x w 8 6 == 32#6 then
    rsv w [(14, 10)] (.trap (x w 0 8))
  else
  if x w 8 6 == 33#6 then
    rsv w [(0, 8), (19, 5)] (.tresume (x w 14 5))
  else
  if x w 8 6 == 34#6 then
    rsv w [(0, 8), (19, 5)] (.tctxr (x w 14 5))
  else
  if x w 8 6 == 35#6 then
    rsv w [(0, 8), (19, 5)] (.tctxw (x w 14 5))
  else
  if x w 8 6 == 36#6 then
    rsv w [(0, 8), (19, 5)] (.tkill (x w 14 5))
  else
  if x w 8 6 == 37#6 then
    rsv w [(0, 8), (19, 5)] (.kbind (x w 14 5))
  else
  if x w 8 6 == 38#6 then
    rsv w [(0, 8), (19, 5)] (.kunbind (x w 14 5))
  else
  .error .function

/-- One word, whatever its bits L and S: an instruction, or the first failure of 10 R217 checks 2 to 4. -/
def decodeWord (w : Insn) : Except DecodeErr Instr :=
  match (x w 24 6).toNat with
  | 0x00 => decode00 w
  | 0x01 => decode01 w
  | 0x02 => decode02 w
  | 0x03 => decode03 w
  | 0x04 => decode04 w
  | 0x05 => decode05 w
  | 0x06 => decode06 w
  | 0x07 => decode07 w
  | 0x08 => decode08 w
  | 0x09 => decode09 w
  | 0x0A => decode0A w
  | 0x0B => decode0B w
  | 0x0C => decode0C w
  | 0x18 => decode18 w
  | 0x19 => decode19 w
  | 0x1A => decode1A w
  | 0x1B => decode1B w
  | 0x1C => decode1C w
  | 0x1D => decode1D w
  | 0x1E => decode1E w
  | 0x1F => decode1F w
  | 0x20 => decode20 w
  | 0x21 => decode21 w
  | 0x22 => decode22 w
  | 0x23 => decode23 w
  | 0x24 => decode24 w
  | 0x28 => decode28 w
  | 0x29 => decode29 w
  | 0x2A => decode2A w
  | 0x2B => decode2B w
  | 0x2C => decode2C w
  | 0x2D => decode2D w
  | 0x2E => decode2E w
  | 0x2F => decode2F w
  | 0x30 => decode30 w
  | 0x31 => decode31 w
  | 0x32 => decode32 w
  | 0x33 => decode33 w
  | _ => .error .major

/-- The bits [29:0] of a row's word: major and format fields (10 R197, R203, R204). -/
def encodeBody : Instr → Option (BitVec 30)
  | .add d a b => some (0#6 ++ d ++ a ++ b ++ 0#9)
  | .sub d a b => some (0#6 ++ d ++ a ++ b ++ 1#9)
  | .and d a b => some (0#6 ++ d ++ a ++ b ++ 2#9)
  | .or d a b => some (0#6 ++ d ++ a ++ b ++ 3#9)
  | .xor d a b => some (0#6 ++ d ++ a ++ b ++ 4#9)
  | .andn d a b => some (0#6 ++ d ++ a ++ b ++ 5#9)
  | .orn d a b => some (0#6 ++ d ++ a ++ b ++ 6#9)
  | .shl d a b => some (0#6 ++ d ++ a ++ b ++ 8#9)
  | .shr d a b => some (0#6 ++ d ++ a ++ b ++ 9#9)
  | .sra d a b => some (0#6 ++ d ++ a ++ b ++ 10#9)
  | .rol d a b => some (0#6 ++ d ++ a ++ b ++ 11#9)
  | .min d a b => some (0#6 ++ d ++ a ++ b ++ 16#9)
  | .max d a b => some (0#6 ++ d ++ a ++ b ++ 17#9)
  | .minu d a b => some (0#6 ++ d ++ a ++ b ++ 18#9)
  | .maxu d a b => some (0#6 ++ d ++ a ++ b ++ 19#9)
  | .cselT d a b k => some (0#6 ++ d ++ a ++ b ++ 4#6 ++ k)
  | .cselF d a b k => some (0#6 ++ d ++ a ++ b ++ 5#6 ++ k)
  | .pmovToG d => some (0#6 ++ d ++ 48#19)
  | .pmovToP a => some (0#6 ++ 0#5 ++ a ++ 49#14)
  | .mul d a b => some (1#6 ++ d ++ a ++ b ++ 0#9)
  | .mulh d a b => some (1#6 ++ d ++ a ++ b ++ 1#9)
  | .mulhu d a b => some (1#6 ++ d ++ a ++ b ++ 2#9)
  | .madd d a b => some (1#6 ++ d ++ a ++ b ++ 3#9)
  | .divu d a b => some (1#6 ++ d ++ a ++ b ++ 8#9)
  | .remu d a b => some (1#6 ++ d ++ a ++ b ++ 9#9)
  | .clz d a => some (2#6 ++ d ++ a ++ 0#14)
  | .ctz d a => some (2#6 ++ d ++ a ++ 1#14)
  | .popc d a => some (2#6 ++ d ++ a ++ 2#14)
  | .brev d a => some (2#6 ++ d ++ a ++ 3#14)
  | .bswap d a => some (2#6 ++ d ++ a ++ 4#14)
  | .bfx d a b => some (2#6 ++ d ++ a ++ b ++ 8#9)
  | .bfxs d a b => some (2#6 ++ d ++ a ++ b ++ 9#9)
  | .bfi d a b => some (2#6 ++ d ++ a ++ b ++ 10#9)
  | .xshf d a b c => some (2#6 ++ d ++ a ++ b ++ 1#3 ++ c)
  | .addi d a i => some (3#6 ++ d ++ a ++ i)
  | .andi d a i => some (4#6 ++ d ++ a ++ i)
  | .ori d a i => some (5#6 ++ d ++ a ++ i)
  | .xori d a i => some (6#6 ++ d ++ a ++ i)
  | .shli d a c => some (7#6 ++ d ++ a ++ 0#8 ++ c)
  | .shri d a c => some (7#6 ++ d ++ a ++ 32#8 ++ c)
  | .srai d a c => some (7#6 ++ d ++ a ++ 64#8 ++ c)
  | .roli d a c => some (7#6 ++ d ++ a ++ 96#8 ++ c)
  | .movi d i => some (8#6 ++ d ++ i)
  | .movk d h i => some (9#6 ++ d ++ h ++ 0#1 ++ i)
  | .movkZ d h i => some (9#6 ++ d ++ h ++ 1#1 ++ i)
  | .cmp p c a b => some (10#6 ++ p ++ c ++ a ++ b ++ 0#8)
  | .cmpi p c a i => some (11#6 ++ p ++ c ++ a ++ i)
  | .plog p o a b => some (12#6 ++ p ++ o ++ 0#2 ++ a ++ b ++ 0#10)
  | .brT p d => some (24#6 ++ 0#1 ++ p ++ d)
  | .brF p d => some (24#6 ++ 1#1 ++ p ++ d)
  | .jmp d => some (25#6 ++ d)
  | .call d => some (26#6 ++ d)
  | .jr a => some (27#6 ++ 0#5 ++ a ++ 0#14)
  | .callr a => some (27#6 ++ 0#5 ++ a ++ 1#14)
  | .ret => some (27#6 ++ 2#24)
  | .loop d i => some (28#6 ++ d ++ 0#5 ++ i)
  | .nop => some (28#6 ++ 0#24)
  | .spawn d a => some (29#6 ++ d ++ a ++ 0#16)
  | .spawnt d a p => some (29#6 ++ d ++ a ++ 128#13 ++ p)
  | .quit => some (29#6 ++ 2048#24)
  | .setpri k => some (29#6 ++ 384#21 ++ k)
  | .rshrink n => some (29#6 ++ 1024#22 ++ n)
  | .sleep a => some (29#6 ++ 0#5 ++ a ++ 5120#14)
  | .swait d a e => some (30#6 ++ d ++ a ++ 0#6 ++ e)
  | .qwait d a p e => some (30#6 ++ d ++ a ++ 1#3 ++ p ++ e ++ 0#1)
  | .stry a p e => some (30#6 ++ 0#5 ++ a ++ 2#3 ++ p ++ e)
  | .ssig a e => some (30#6 ++ 0#5 ++ a ++ 24#6 ++ e)
  | .ssigRemote d a e => some (30#6 ++ d ++ a ++ 28#6 ++ e)
  | .ssigG a e => some (30#6 ++ 0#5 ++ a ++ 32#6 ++ e)
  | .ssigGRemote d a e => some (30#6 ++ d ++ a ++ 36#6 ++ e)
  | .sset a e => some (30#6 ++ 0#5 ++ a ++ 40#6 ++ e)
  | .sread d e => some (30#6 ++ d ++ 48#11 ++ e)
  | .spois e => some (30#6 ++ 56#16 ++ e)
  | .barinit a b => some (31#6 ++ 0#5 ++ a ++ 0#10 ++ b)
  | .barrive b => some (31#6 ++ 256#20 ++ b)
  | .barwait a b => some (31#6 ++ 0#5 ++ a ++ 512#10 ++ b)
  | .barsync a b => some (31#6 ++ 0#5 ++ a ++ 768#10 ++ b)
  | .ld d b z i => some (32#6 ++ d ++ b ++ z ++ 0#2 ++ i)
  | .ldAcq d b z i => some (32#6 ++ d ++ b ++ z ++ 1#2 ++ i)
  | .ldc d b z i => some (32#6 ++ d ++ b ++ z ++ 2#2 ++ i)
  | .st r b z i => some (33#6 ++ r ++ b ++ 0#1 ++ z ++ 0#2 ++ i)
  | .stRel r b z o i => some (33#6 ++ r ++ b ++ 0#1 ++ z ++ o ++ i)
  | .stNlo r b i => some (33#6 ++ r ++ b ++ 16#5 ++ i)
  | .stNhi r b i => some (33#6 ++ r ++ b ++ 20#5 ++ i)
  | .atom d b z c o => some (34#6 ++ d ++ b ++ 1#2 ++ z ++ c ++ o ++ 0#4)
  | .acas d b z c => some (34#6 ++ d ++ 0#1 ++ b ++ 1#2 ++ z ++ c ++ 144#9)
  | .fence c => some (35#6 ++ 0#21 ++ c)
  | .icinvI => some (35#6 ++ 2048#24)
  | .icinvC => some (35#6 ++ 2049#24)
  | .rst d a z f => some (36#6 ++ d ++ a ++ 0#3 ++ z ++ f ++ 0#8)
  | .rld d a z => some (36#6 ++ d ++ a ++ 1#3 ++ z ++ 0#9)
  | .ratom d a z o f => some (36#6 ++ d ++ a ++ 2#3 ++ z ++ o ++ f ++ 0#5)
  | .rsig d a f => some (36#6 ++ d ++ a ++ 12#5 ++ f ++ 0#8)
  | .rspawn d a => some (36#6 ++ d ++ a ++ 8192#16)
  | .fpath w => some (36#6 ++ 1280#21 ++ w)
  | .vld d a m k => some (40#6 ++ d ++ a ++ 0#5 ++ m ++ 0#3 ++ k ++ 0#1)
  | .vlds d a b m k => some (40#6 ++ d ++ a ++ b ++ m ++ 1#3 ++ k ++ 0#1)
  | .vldx d a b m k => some (40#6 ++ d ++ a ++ b ++ m ++ 2#3 ++ k ++ 0#1)
  | .vldt d a m k => some (40#6 ++ d ++ a ++ 0#5 ++ m ++ 3#3 ++ k ++ 0#1)
  | .vst d a m k => some (40#6 ++ d ++ a ++ 0#5 ++ m ++ 4#3 ++ k ++ 0#1)
  | .vsts d a b m k => some (40#6 ++ d ++ a ++ b ++ m ++ 5#3 ++ k ++ 0#1)
  | .vstx d a b m k => some (40#6 ++ d ++ a ++ b ++ m ++ 6#3 ++ k ++ 0#1)
  | .vbcast d a m => some (41#6 ++ d ++ a ++ 0#5 ++ m ++ 0#6)
  | .vmovsToG d a => some (41#6 ++ d ++ a ++ 1#14)
  | .vmovsToV d a => some (41#6 ++ d ++ a ++ 2#14)
  | .vext d a b => some (41#6 ++ d ++ a ++ b ++ 3#9)
  | .vsetvl d a t g => some (41#6 ++ d ++ a ++ t ++ g ++ 4#8)
  | .viota d m => some (41#6 ++ d ++ 0#10 ++ m ++ 5#6)
  | .vwait => some (41#6 ++ 6#24)
  | .vsig e i => some (41#6 ++ 0#5 ++ e ++ i ++ 7#9)
  | .vadd d a b m => some (42#6 ++ d ++ a ++ b ++ m ++ 0#6)
  | .vsub d a b m => some (42#6 ++ d ++ a ++ b ++ m ++ 1#6)
  | .vmul d a b m => some (42#6 ++ d ++ a ++ b ++ m ++ 2#6)
  | .vfma d a b m => some (42#6 ++ d ++ a ++ b ++ m ++ 3#6)
  | .vfms d a b m => some (42#6 ++ d ++ a ++ b ++ m ++ 4#6)
  | .vfnma d a b m => some (42#6 ++ d ++ a ++ b ++ m ++ 5#6)
  | .vmin d a b m => some (42#6 ++ d ++ a ++ b ++ m ++ 6#6)
  | .vmax d a b m => some (42#6 ++ d ++ a ++ b ++ m ++ 7#6)
  | .vabs d a m => some (42#6 ++ d ++ a ++ 0#5 ++ m ++ 8#6)
  | .vneg d a m => some (42#6 ++ d ++ a ++ 0#5 ++ m ++ 9#6)
  | .vclass d a m => some (42#6 ++ d ++ a ++ 0#5 ++ m ++ 10#6)
  | .viadd d a b m => some (43#6 ++ d ++ a ++ b ++ m ++ 0#6)
  | .visub d a b m => some (43#6 ++ d ++ a ++ b ++ m ++ 1#6)
  | .vimul d a b m => some (43#6 ++ d ++ a ++ b ++ m ++ 2#6)
  | .vimad d a b m => some (43#6 ++ d ++ a ++ b ++ m ++ 3#6)
  | .vimin d a b m => some (43#6 ++ d ++ a ++ b ++ m ++ 4#6)
  | .vimax d a b m => some (43#6 ++ d ++ a ++ b ++ m ++ 5#6)
  | .vand d a b m => some (43#6 ++ d ++ a ++ b ++ m ++ 6#6)
  | .vor d a b m => some (43#6 ++ d ++ a ++ b ++ m ++ 7#6)
  | .vxor d a b m => some (43#6 ++ d ++ a ++ b ++ m ++ 8#6)
  | .vshl d a b m => some (43#6 ++ d ++ a ++ b ++ m ++ 9#6)
  | .vshr d a b m => some (43#6 ++ d ++ a ++ b ++ m ++ 10#6)
  | .vsra d a b m => some (43#6 ++ d ++ a ++ b ++ m ++ 11#6)
  | .vexp2 d a m => some (44#6 ++ d ++ a ++ 0#5 ++ m ++ 0#6)
  | .vlog2 d a m => some (44#6 ++ d ++ a ++ 0#5 ++ m ++ 1#6)
  | .vrcp d a m => some (44#6 ++ d ++ a ++ 0#5 ++ m ++ 2#6)
  | .vrsq d a m => some (44#6 ++ d ++ a ++ 0#5 ++ m ++ 3#6)
  | .vsqrt d a m => some (44#6 ++ d ++ a ++ 0#5 ++ m ++ 4#6)
  | .vtanh d a m => some (44#6 ++ d ++ a ++ 0#5 ++ m ++ 5#6)
  | .vcvt d a t m r c => some (45#6 ++ d ++ a ++ t ++ m ++ 0#2 ++ r ++ c ++ 0#2)
  | .vqnt d a b m n f => some (45#6 ++ d ++ a ++ b ++ m ++ 1#2 ++ n ++ f)
  | .vdq d a b m f => some (45#6 ++ d ++ a ++ b ++ m ++ 4#3 ++ f)
  | .vrseed a b m => some (45#6 ++ 0#5 ++ a ++ b ++ m ++ 48#6)
  | .vrng d m => some (45#6 ++ d ++ 0#10 ++ m ++ 49#6)
  | .vred d a m o => some (46#6 ++ d ++ a ++ 0#5 ++ m ++ 0#3 ++ o)
  | .vscan d a m o => some (46#6 ++ d ++ a ++ 0#5 ++ m ++ 1#3 ++ o)
  | .vperm d a b m => some (46#6 ++ d ++ a ++ b ++ m ++ 16#6)
  | .vrot d a b m => some (46#6 ++ d ++ a ++ b ++ m ++ 17#6)
  | .vshuf d a b m => some (46#6 ++ d ++ a ++ b ++ m ++ 18#6)
  | .vcmp d a b m c => some (47#6 ++ 0#2 ++ d ++ a ++ b ++ m ++ 0#3 ++ c)
  | .vicmp d a b m c => some (47#6 ++ 0#2 ++ d ++ a ++ b ++ m ++ 1#3 ++ c)
  | .vsel d a b m => some (47#6 ++ d ++ a ++ b ++ m ++ 16#6)
  | .vmlog d a b o => some (47#6 ++ 0#2 ++ d ++ 0#2 ++ a ++ 0#2 ++ b ++ 3#6 ++ o)
  | .vmpop d a => some (47#6 ++ d ++ 0#2 ++ a ++ 32#14)
  | .mclr b e i => some (48#6 ++ b ++ 0#2 ++ e ++ i ++ 0#9)
  | .mmode b e i => some (48#6 ++ b ++ 0#2 ++ e ++ i ++ 1#9)
  | .mrnm b e i => some (48#6 ++ b ++ 0#2 ++ e ++ i ++ 2#9)
  | .msave b e i => some (48#6 ++ b ++ 0#2 ++ e ++ i ++ 3#9)
  | .mload b e i => some (48#6 ++ b ++ 0#2 ++ e ++ i ++ 4#9)
  | .mhdr b e i => some (48#6 ++ b ++ 0#2 ++ e ++ i ++ 5#9)
  | .mstat b => some (48#6 ++ b ++ 6#21)
  | .mdrain b e i => some (48#6 ++ b ++ 0#2 ++ e ++ i ++ 7#9)
  | .mpass b e i t => some (48#6 ++ b ++ 0#2 ++ e ++ i ++ 4#6 ++ t)
  | .mpassh b e i t => some (48#6 ++ b ++ 0#2 ++ e ++ i ++ 6#6 ++ t)
  | .cpy b e i => some (49#6 ++ b ++ 0#2 ++ e ++ i ++ 0#9)
  | .cpyx b e i => some (49#6 ++ b ++ 0#2 ++ e ++ i ++ 1#9)
  | .cpym b e i => some (49#6 ++ b ++ 0#2 ++ e ++ i ++ 2#9)
  | .cpyf b e i => some (49#6 ++ b ++ 0#2 ++ e ++ i ++ 3#9)
  | .cbcfg b e i => some (50#6 ++ b ++ 0#2 ++ e ++ i ++ 0#9)
  | .cbpush b e i => some (50#6 ++ b ++ 0#2 ++ e ++ i ++ 1#9)
  | .cbnext b => some (50#6 ++ b ++ 2#21)
  | .cbdone b e i => some (50#6 ++ b ++ 0#2 ++ e ++ i ++ 3#9)
  | .cbstat b => some (50#6 ++ b ++ 4#21)
  | .sysr d r => some (51#6 ++ d ++ 0#7 ++ r)
  | .sysw a r => some (51#6 ++ 0#5 ++ a ++ 1#2 ++ r)
  | .trap c => some (51#6 ++ 32#16 ++ c)
  | .tresume a => some (51#6 ++ 0#5 ++ a ++ 8448#14)
  | .tctxr a => some (51#6 ++ 0#5 ++ a ++ 8704#14)
  | .tctxw a => some (51#6 ++ 0#5 ++ a ++ 8960#14)
  | .tkill a => some (51#6 ++ 0#5 ++ a ++ 9216#14)
  | .kbind a => some (51#6 ++ 0#5 ++ a ++ 9472#14)
  | .kunbind a => some (51#6 ++ 0#5 ++ a ++ 9728#14)
  | _ => none

/-- The word of an instruction under bits L and S; none for a row without a word. -/
def encode (l s : BitVec 1) (i : Instr) : Option Insn :=
  match encodeBody i with
  | some b => some (l ++ s ++ b)
  | none => none

/-- The instruction that the decoder reads from a row's bits (bit 0 the least significant of the first word). A Jogan
instruction is one 32-bit word, stored little-endian (00 R1), so bits above nbits are zero. -/
def decodeTableWord (nbits w : Nat) : Option Instr :=
  match decodeWord (BitVec.ofNat 32 (w % 2 ^ nbits)) with
  | .ok i => some i
  | .error _ => none

end Sys2Proof
end

