-- ==== Sys2Proof/Config.lean ====
section
/-! DEFINITION. What an implementation fixes and the spec leaves open: free values without a body (log 3, 10) and the
default delays by which the model orders its events when its state names no other order (log 5). -/

namespace Sys2Proof.Config

/-- A 64-bit value the spec leaves open; the argument is the running number of `State.free` (log 3). -/
opaque freeWord : Nat → Word
/-- A byte that an access reads whose key slot was emptied after its translation (21 R391, R392; log 10). -/
opaque emptyKeyByte : Nat → Byte

/-- The bytes of a signed attestation report over PKGID, the firmware digest, the fuse state (key digest, rollback counter and
defective clusters), the host's 32-byte nonce, the count of remaining signatures and the one-time key index, with its signature: the spec gives the report's content
and not its bytes (22 R415; log 9). -/
opaque attestReport (pkgid : BitVec 15) (firmware fusedKey : BitVec 512) (rollback : BitVec 32) (fusedBad : List Nat) (nonce : BitVec 256)
    (remaining index : Nat) (signature : List (BitVec 8)) : List (BitVec 8)

/-- How far a mark or a trimmed packet lowers a stream's window, which the transport profile and not the spec fixes (23 R421, R422;
log 46). -/
opaque nsccLower : Nat → Nat

/-- Default delays in pulses at P0 (15 R334 and, where R334 gives no figure, DESIGN CHOICE: log 5). -/
def ldLocal : Nat := 12
def ldPeerSame : Nat := 44
def ldPeerOther : Nat := 99
def ldGlobalOwn : Nat := 66
def ldGlobalOther : Nat := 121
/-- What a miss of the memory-side cache adds to the rows of a hit. -/
def mscMore : Nat := 132
def ldcHit : Nat := 10
def atomLocal : Nat := 16
def atomExtra : Nat := 8
def divide : Nat := 32
def vecToScalar : Nat := 10
/-- Pulses from a vector instruction's failing check to its trap: four issue intervals, since in the example of 13 R284 three more
bundles of the thread issue first (13, "Example: a reduction and a trap"; log 41). -/
def vecTrap : Nat := 32
def semRead : Nat := 10
def spawntSame : Nat := 29
def spawntOther : Nat := 51
def statusRead : Nat := 6
def cbStatusRead : Nat := 5
def storeTransit : Nat := 33
def signalLocal : Nat := 2
def signalDie : Nat := 22
def signalOther : Nat := 50
def spawnSame : Nat := 17
def spawnOther : Nat := 28
def admission : Nat := 10
def aperture : Nat := 220
def fabricLoop : Nat := 100

end Sys2Proof.Config
end

