-- ==== Sys2Proof/Machine/State.lean ====
section
/-! DEFINITION. The state of one OX40 package as plain data: every piece of state the spec names, each under its own
name with the rule that names it. Per-number tables are lists of (number, record) that list only what differs from the
value at reset. The last group of fields of `State` is the model's own (log 3, 4, 5). -/

namespace Sys2Proof.Machine

/-- Why the machine stops with a fault. -/
inductive Fault where
  /-- Raised by the meaning of a thread's instruction when `cur` names no live thread: no step of the machine issues such
  a bundle (03 R47). Safe. -/
  | noThread
  deriving DecidableEq, Repr

/-- Why an instruction has no meaning. -/
inductive Refusal where
  /-- The instruction of this mnemonic has no meaning yet. Safe. -/
  | notModelled (mnemonic : String)
  deriving DecidableEq, Repr

/-- Privilege levels (10 R216, 14 R332). -/
inductive Level where
  | u | s | m
  deriving DecidableEq, Repr

/-- The number of a level in SELF, MISC and i0 of 0.0.4 (14 R324, 10 R218). -/
def Level.num : Level → Nat
  | .u => 0
  | .s => 1
  | .m => 2

/-- The key a line is encrypted with: a key pair, or none for plaintext bypass (21 R391). -/
abbrev KeyVal := Option (BitVec 512)

/-- One slot of the SMC's key table (21 R391). -/
inductive KeySlot where
  | empty | bypass | pair (k : BitVec 512)
  deriving DecidableEq, Repr

/-- How an HBM location was found: the physical address that was placed, and the HBM lines that the table walk read, with whose
change the access is ordered (21 R390, R393); the number of the page and its cache class (21 R386, R397). -/
structure Walked where
  pa : Nat
  via : List Nat
  page : Nat := 0
  ca : Nat := 0
  deriving DecidableEq, Repr

/-- Where an access lands after the checks of 04 R70: a scratchpad byte of this kernel's frame on a cluster, an HBM
location c x 2^31 + L with its key ID and the way it was found (21 R391, R393), a host physical address, or a fabric address. -/
inductive Place where
  | scratch (cl off : Nat) (peer : Bool)
  | global (loc : Nat) (key : Nat) (walk : Walked)
  | host (addr : Nat)
  | fabric (addr : Word)
  deriving DecidableEq, Repr

/-- A semaphore (02 R37). -/
structure Sem where
  count : BitVec 16
  poison : Bool
  deriving DecidableEq, Repr

/-- A barrier (02 R41). -/
structure Bar where
  init : Bool
  n : Nat
  counter : Nat
  phase : Bool
  deriving DecidableEq, Repr

/-- One entry of a tile's event log (07 R158). -/
structure LogEntry where
  seq : Nat
  slot : Nat
  step : Nat
  firstRow : Nat
  nRows : Nat                     -- rows with an event, minus one
  sMax : Nat
  sMin : Nat
  deriving DecidableEq, Repr

/-- The special code of a tile element (07 R148). -/
inductive Special where
  | finite | posInf | negInf | nan
  deriving DecidableEq, Repr

/-- One element of a tile: mantissa and special code (07 R148). -/
structure TElem where
  m : Int
  sp : Special
  deriving DecidableEq, Repr

/-- One row of a tile: its exponent and the elements that are not a finite zero, by rising column (07 R148). -/
structure TileRow where
  e : Int
  elems : List (Nat × TElem)
  deriving DecidableEq, Repr

/-- An accumulator tile (07 R148). L, HR and SPCNT are computed from the rows (R149). -/
structure Tile where
  rows : List TileRow
  trapm : Bool
  evcnt : Nat
  log : List LogEntry             -- the ring's slots 0 to 15
  logn : Nat
  loghead : Nat
  loglost : Nat
  steps : BitVec 64
  dflags : BitVec 8
  deriving DecidableEq, Repr

/-- A constraint record as pushed, its four words (08 R167). -/
abbrev Constraint := BitVec 128

/-- An outstanding flight (08 R172, R174). -/
structure Flight where
  slot : Nat
  number : BitVec 32
  members : List (Nat × Constraint)   -- stream index and record
  published : Bool                    -- list written and signal added
  taken : Bool
  writes : List Nat                   -- its list's writes, until it is published (08 R172)
  deriving DecidableEq, Repr

/-- The conflict batcher of a NEEDCB frame (08 R168 to R175, R181). -/
structure Batcher where
  cfg : Bool
  closed : Bool
  endsig : Bool
  fmax : Nat
  base : Nat
  fsem : Nat
  nextIndex : Nat
  formed : BitVec 32
  stream : List (Nat × Constraint)    -- unissued constraints by rising stream index
  flights : List Flight
  forming : Bool                      -- formations are still to be made after the last event (R171)
  deriving DecidableEq, Repr

/-- The kernel header's fields (02 R19). -/
structure Header where
  kregs : Nat
  kvregs : Nat
  ksems : Nat
  kbars : Nat
  ktiles : Nat
  kscr : Nat
  kmaxt : Nat
  kflags : BitVec 3
  kcode : Nat
  entries : List (BitVec 32)
  deriving DecidableEq, Repr

/-- A pending spawn request of a frame on its target cluster (02 R27, R29; 19 R452). -/
structure SpawnReq where
  rgn : Nat
  knum : Nat
  target : Nat
  entry : Nat
  args : List Word
  join : Option (Nat × Nat)       -- logical cluster and semaphore
  bpri : BitVec 3
  swlim : BitVec 32
  spwlim : BitVec 32
  origin : Nat                    -- 0 a thread's SPAWN or SPAWNT, 1 RSPAWN, 2 Foyer
  deriving DecidableEq, Repr

/-- A kernel frame on one logical cluster (02 R21 to R23). -/
structure Frame where
  cl : Nat
  rgn : Nat
  knum : Nat
  hdr : Header
  hdrVa : Word
  level : Level
  set : ClSet
  sems : List Sem
  bars : List Bar
  tiles : List Tile
  scr : List Host.Cell            -- scratchpad window; an unlisted byte is zero (R22)
  swz : List Word                 -- SWZ0 to SWZ3 (04 R78)
  cb : Option Batcher             -- some for a NEEDCB frame (08 R166)
  stopped : Bool                  -- the region is not resident on this cluster (19 R374)
  suspended : Bool                -- the region is suspended on this cluster and its resources are free (19 R374)
  tearing : Bool                  -- a KUNBIND or a kill removes it (14 R333)
  deriving DecidableEq, Repr

/-- The 64-bit values a vector instruction captured at issue (13 R278, 19 R370). -/
structure Captured where
  instr : Instr
  word : Insn
  words : Word                    -- the bundle's words, for R130
  offset : BitVec 32              -- bundle word's byte offset from the first code byte
  vtype : BitVec 4
  grp : BitVec 2
  vl : Nat
  vfcsr : Word
  swz : Word
  ga : Word
  gb : Word
  pendReg : Option (BitVec 5)     -- the general register whose pending bit it set
  deriving DecidableEq, Repr

/-- A command in a port queue (03 R60, R61): the issuing thread and frame, sequence number, carried priority and the
captured values. -/
structure Cmd where
  id : Nat
  port : Port
  cl : Nat
  slot : Nat
  rgn : Nat
  knum : Nat
  seq : BitVec 16
  prio : BitVec 3
  since : Nat                     -- pulse since which it is its thread's candidate (R62)
  ord : Nat                       -- order of entry
  instr : Instr
  word : Insn
  group : List Word               -- the captured group registers of an engine command (14 R302)
  swz : List Word                 -- the captured swizzle descriptors (04 R79)
  width : Nat                     -- WIDTH at issue (14 R317)
  vec : Option Captured
  waits : List Nat                -- acts that perform before the command's accesses (05 R113)
  deriving DecidableEq, Repr

/-- The half of the write-error latch and its first failure's words (12 R260, R261). -/
structure ErrHalf where
  n : BitVec 16
  cause : BitVec 9
  i0 : Word
  i1 : Word
  i3 : Word
  ord : Nat
  deriving DecidableEq, Repr

/-- What a destination of a late result is (03 R52). -/
inductive Dst where
  | g (r : BitVec 5)
  | p (k : BitVec 3)
  deriving DecidableEq, Repr

/-- A failure that is delivered before a thread's next issue (11 R247, 12 R259, 13 R284). -/
structure Late where
  ord : Nat
  cause : Nat
  i0 : Word
  i1 : Word
  i2 : Word
  i3 : Word
  vector : Bool
  deriving DecidableEq, Repr

/-- What a fault record's write leads to once it has performed, as the raising region's effective values were when the record
went on its way (02 R17; 19 R365, R366, R369; 22 R407). -/
structure RecordNote where
  owner : Nat                     -- the region that owns the queue
  host : Bool                     -- host-assisted fault-queue service: a message instead of the signal
  page : Bool                     -- a page fault whose paging service is host-assisted: one more message
  msiv : Nat
  fsemCl : Nat
  fsemK : Nat
  fsemS : Nat
  deriving DecidableEq, Repr

/-- What a store-queue entry does where it performs (04 R87, 12 R255, R257). -/
inductive WriteKind where
  | data (bytes : List (Nat × Byte))                      -- offset in the line and byte
  | atomic (off sz : Nat) (op : Nat) (arg cmp : Word) (d : BitVec 5)
  deriving DecidableEq, Repr

/-- A store-queue entry, queued or departed (04 R87): its class (0 thread, 1 engine, 2 system), its line and the write. -/
structure Entry where
  cls : Nat
  line : Place
  mask : BitVec 64
  kind : WriteKind
  release : Bool
  ea : Word
  i1 : Word
  words : Word
  rgn : Nat
  knum : Nat
  ack : Option Packet             -- the inbound packet that the write answers (04 R93; 12 R268)
  mcast : List Nat                -- the further clusters that a CPYM line is delivered to (14 R316)
  note : Option RecordNote        -- a fault record's, none for any other write
  sealed : Bool                   -- a release store or FENCE of the thread followed: no store merges (R87)
  queued : Bool                   -- holds an entry of the queue; false while its engine stalls (R92)
  older : List (Nat × Nat × Option Byte) := []   -- act number of each store that merged, an offset that it wrote and what the entry held there
  deriving DecidableEq, Repr

/-- Why a thread is not ready besides its switch marker (03 R47; 19 R453). A limit is stored with the pulse at which it
expires; limit 0 is no limit (02 R39). `ord` orders waiters (R38, R90). -/
inductive Wait where
  | none
  | parked
  | sem (s n : Nat) (lim : Word) (until_ ord : Nat)
  | ring (p : BitVec 3) (s n : Nat) (lim : Word) (until_ ord : Nat)
  | bar (b : Nat) (sync : Bool) (lim : Word) (until_ ord : Nat)
  | sleep (until_ : Nat)
  | store (e : Entry) (d : Option (BitVec 5)) (until_ ord : Nat)
  | spawn (id until_ : Nat)
  | vwait
  | fence (scope : Nat) (after : List Nat) (words : Word)
  | release (after : List Nat)                              -- until this work has performed
  | desc (after : List Nat) (until_ ord : Nat)              -- a descriptor instruction's writes, with SWLIM (14 R327)
  | quit
  deriving DecidableEq, Repr

/-- What the A-class word of a pair has overwritten: registers and predicates, each with its value before the bundle (10 R199). -/
structure Before where
  g : List (Nat × Word)
  p : List (Nat × Bool)
  deriving DecidableEq, Repr

/-- A thread (02 R24). -/
structure Thread where
  cl : Nat
  slot : Nat
  rgn : Nat
  knum : Nat
  pc : Word
  g : List Word                   -- g0 to g31; g0 is never written
  p : BitVec 8
  v : List VReg
  m : List Mask                   -- m0 to m7; m0 is never written
  key : VReg                      -- lane l in bits [32l+31:32l]
  ctr : VReg
  prio : BitVec 3
  vtype : BitVec 4
  grp : BitVec 2
  vl : Nat
  vfcsr : Word
  pendG : BitVec 32
  pendP : BitVec 8
  swlim : BitVec 32
  spwlim : BitVec 32
  wcode : BitVec 3                -- WIDTH = 2^wcode (12 R270)
  fpcnt : List Word
  fpAt : Nat                      -- the latest die pulse that counted a path of it, and the paths counted then (12 R272)
  fpPaths : List Nat
  errFab : ErrHalf
  errMem : ErrHalf
  barph : BitVec 16
  bsarr : Bool
  allot : Nat
  join : Option (Nat × Nat)
  wait : Wait
  marker : Bool                   -- parked by a switch marker (03 R54)
  w : Nat                         -- wait count W (03 R48)
  launch : Bool                   -- admitted and not yet issued (03 R50)
  nextIssue : Nat                 -- first pulse of its next issue (03 R51)
  prev : Word                     -- address of the previous bundle; all ones before the first (10 R218)
  ipc : Word                      -- PC a trap after issue records for its last bundle (10 R200)
  isolo : Bool                    -- that PC names the C-class word of a pair alone
  soloC : Bool                    -- the next issue is the C-class word of the pair alone
  replay : List Captured          -- vector replay queue (13 R284)
  vstop : Bool                    -- a vector trap holds its later vector instructions back: they join the replay queue
  late : List Late
  seqs : List (BitVec 16)         -- next sequence number per port (03 R61)
  acq : List Nat                  -- acquires not yet performed, for which later accesses wait (05 R109; log 8)
  pre : Option Before := none     -- what the A-class word of the last bundle overwrote, if it was a pair, until a trap: for the bundle that issues again (10 R199; 19 R376)
  left : Nat := 0                 -- what is left of the limit of a blocked access that issues again; 0 for none (19 R376, R453)
  deriving DecidableEq, Repr

/-- A record for a fault queue (19 R363). -/
structure Record where
  cause : Nat
  parked : Bool
  nothread : Bool
  pstate : BitVec 4
  rgn : Nat
  lcl : Nat
  slot : Nat
  knum : Nat
  pc : Word
  i0 : Word
  i1 : Word
  i2 : Word
  i3 : Word
  deriving DecidableEq, Repr

/-- An activated region with its effective values (02 R15 to R17; 22 R406 to R409). -/
structure Region where
  num : Nat
  rcbPa : Nat
  parent : Option Nat
  level : Nat
  clset : ClSet
  ceil : Nat
  allow : Nat
  allowWas : Nat                  -- the allowance of the windows before `allowFrom` (04 R84; 22 R409)
  allowFrom : Nat
  modes : BitVec 14
  dkey : Nat
  troot : Nat
  fqOwner : Nat
  fqbase : Nat
  fqnlog : Nat
  fsemCl : Nat
  fsemK : Nat
  fsemS : Nat
  msiv : Nat
  savebase : Nat
  ownFkey : Word
  fkey : Word
  apbase : Nat
  apsize : Nat
  rseq : Nat                      -- next RSEQ (19 R365)
  kept : List Record              -- records in arbiter order that are not yet written
  full : Bool                     -- the head record found its slot in use (19 R365 item 3)
  failing : Bool                  -- the head record's write fails (19 R366)
  held : Nat                      -- held fault-semaphore signals (19 R366)
  heldCls : ClSet                 -- clusters whose records they are (19 R373)
  killing : Bool
  deriving DecidableEq, Repr

/-- A remote operation started at this package (12 R266 to R269; 23 R424, R426). -/
structure Remote where
  opc : Nat                       -- 0 RST, 1 RLD, 2 RATOM, 3 RSIG, 4 RSPAWN, 6 copy piece
  addr : Word                     -- address or descriptor
  target : Nat
  val : Word
  val2 : Word
  arg : Nat
  sz : Nat
  sext : Bool
  d : BitVec 5
  ofl : Bool
  start : Bool
  seq : BitVec 32
  path : Nat
  bundle : Word
  rgn : Nat
  knum : Nat
  bytes : List (Nat × Byte)       -- a copy piece's bytes
  args : List Word                -- RSPAWN's arguments and limits
  cmd : Option Nat                -- the copy command of a piece
  prio : BitVec 3                 -- base priority at issue (03 R61)
  since : Nat                     -- pulse since which it is its thread's candidate (03 R62)
  tag : BitVec 16                 -- its number among its thread's commands to the fabric port (03 R61)
  sent : Bool                     -- it has left the port queue
  resend : Bool                   -- answered RETRY, and to be sent again with START (23 R426)
  answered : Option (Nat × Word × Word)   -- an answer that waits for the thread's resumption (12 R270; 05 R118)
  ncount : List (BitVec 16)
  fkey : Word                     -- the region's fabric key at issue (12 R267)
  psn : BitVec 32                 -- PDS sequence number of its packet (23 R421)
  dead : Bool                     -- its region has been killed: its answer is counted by nobody (12 R273)
  deriving DecidableEq, Repr

/-- What a command does when it ends (14 R302, R303). -/
structure Ending where
  port : Port
  rgn : Nat
  knum : Nat
  sem : Option (Nat × Nat)        -- semaphore and increment
  dst : Option (BitVec 5 × Word)  -- MSTAT, CBNEXT, CBSTAT
  err : Option (Nat × Word × Word × Word × Word)
  cid : Nat                       -- the command
  bytes : Nat                     -- bytes that a remote copy performs (14 R317)
  deriving DecidableEq, Repr

/-- A piece of work in flight. -/
inductive Job where
  | result (d : Dst) (v : Word) (src : Option (Word × Word × Word))     -- value fixed, write-back to come (03 R52); of an access, its EA, i1 and words
  | failed (d : BitVec 5) (cause : Nat) (ea i1 words : Word)           -- the read met an error: a late failure to come (12 R259)
  | load (d : BitVec 5) (pl : Place) (sz : Nat) (sext : Bool) (kind : Nat) (ea i1 words : Word)  -- kind 0 LD, 1 LD.ACQ, 2 LDC
  | atomic (d : BitVec 5) (pl : Place) (sz op : Nat) (arg cmp : Word) (ea i1 words : Word)       -- local window
  | sread (d : BitVec 5) (s : Nat)
  | stry (p : BitVec 3) (s : Nat) (n : Word)
  | entry (e : Entry)
  | flight (e : Entry)
  | signal (cl rgn knum sem : Nat) (inc : Word) (own : Bool)
  | poison (cl rgn knum sem : Nat)                                     -- the join of a killed thread at a suspended cluster (02 R45; 14 R329)
  | arrive (rgn knum bar : Nat)                                        -- an arrival that its release holds back (02 R41; 11 R248)
  | spawn (r : SpawnReq) (answer : Option (BitVec 3))
  | ending (e : Ending)
  | remote (r : Remote)
  | kunbind (rgn knum : Nat) (desc : Option Word)
  | vretire (rgn knum : Nat) (flags : BitVec 6)                        -- a vector instruction's retirement (13 R281)
  | vsig (rgn knum sem inc : Nat)                                      -- a VSIG's retirement, which signals (03 R64; 13 R282)
  | vtrap (l : Late)                                                   -- a vector trap on its way to its thread (13 R284; log 41)
  | reading (c : Cmd) (got : List (Place × List Byte)) (via : List Nat)   -- a started command that reads memory: the pieces that have performed (05 R105)
  | piece (owner rgn knum : Nat) (pl : Place) (n : Nat)                -- one piece of such a command's reads (05 R105)
  | tick (ev : Instr)
  deriving DecidableEq, Repr

/-- One piece of work in flight: its number, the die pulse and the pulse count of its cluster from which the model's default order lets
it take effect, the issuing thread, and the work it waits for (00 R6; 05 R107, R108). Slot 512 names no thread. Work of a thread of region r that is
suspended on the cluster has 1,024 + 512 r added to its slot, and work of a thread that has ended 2^18 + 512 n, where n is a
number no other thread's work has: such work is no later thread's of the slot (02 R18, R32). -/
structure Act where
  id : Nat
  due : Nat
  cl : Nat
  slot : Nat
  after : List Nat
  job : Job
  cyc : Nat := 0
  deriving DecidableEq, Repr

/-- One pulse-counted cluster of silicon, by physical number 72 x die + n (14 R322). -/
structure Phys where
  cyc : Nat                       -- pulses delivered before die pulse `cycAt` (00 R6; 14 R323)
  cycAt : Nat
  edge : Nat                      -- clock edges of the rotation before it, in 22nds of an edge (24 R432, R433)
  ageql : Nat
  maxw : Nat
  pat : BitVec 32
  eff : BitVec 32
  patNext : Option (BitVec 32)
  duty : Nat
  ballast : Nat
  thrcnt : Nat
  deriving DecidableEq, Repr

/-- A stack pair, by number 36 x die + k (24 R431 to R443). -/
structure Pair where
  req : Nat
  cur : Nat
  tgt : Nat
  cap : Nat
  volt : Nat                      -- V at pulse `voltAt`, in 550ths of 5 mV: 10 mV per us is one a die pulse (R439)
  goal : Nat                      -- the voltage toward which V moves (R439)
  window : Option (Nat × Nat)     -- a switch window: the state switched to, and the die pulse of its end (R439)
  voltAt : Nat
  temp : Nat
  imb : Nat
  ia : Nat                        -- latest current samples of the even and the odd member (24 R436)
  ib : Nat
  above : Nat                      -- consecutive samples with m above 20 (R437)
  emergency : Bool
  amps : Nat                      -- the latest reading of the pair's current, in mA (24 R442; log 18)
  railOff : Bool                  -- at its latest reading the mid rail deviated by more than 10% (24 R442; log 18)
  clearAt : Nat                   -- the die pulse from which no condition of a power emergency holds (24 R442)
  deriving DecidableEq, Repr

/-- One logical cluster's shared state. -/
structure Clus where
  credit : Nat
  deficit : Nat
  rot : Nat                       -- class whose departure chance is next (04 R89)
  spawnq : List SpawnReq
  icache : List (Nat × Nat × Bool × Option (BitVec 512))   -- region, line address, pinned, 64 bytes where they are held
  ccache : List (Nat × Nat × BitVec 512)          -- region, line address, 64 bytes
  holdTag : Option (List Nat)     -- HOLDTAG: region, knum, type, BOFF, BSOFF, BPITCH, KSTEPS, NCOLS (14 R307)
  hold : List Byte                -- element rows, then scales, of the held B
  rgnctl : Word
  rej : Bool
  statRegion : Nat
  result : Nat
  phase : Nat
  fqlost : Nat
  busy : List Nat                 -- pulse until which each port's engine is held (03 R63)
  depAt : Nat                     -- pulse after the last departure of the store queue (04 R85)
  saveseq : List (Nat × Nat)      -- SAVESEQ of the last save block of each region (19 R375)
  writer : Option (Nat × Nat)     -- region and kernel whose thread wrote RGNCTL
  saving : List Nat               -- the save block's writes that are on their way (19 R374, R375)
  saveBad : Bool                  -- one of them failed
  savebases : List (Nat × Nat)    -- save-area base in force for the last suspend of each region (22 R409)
  admits : List (Nat × Nat) := [] -- frames by their last admission here, region and kernel, oldest first (02 R29; 03 R66)
  deriving DecidableEq, Repr

/-- One die's host-visible registers and counters (21 R398, R399; 22 R404; 25 R447). -/
structure Die where
  wayen : BitVec 16
  skipen : Bool
  mscOps : List Bool              -- operations in progress, the first begun first: true a flush, false a way change (21 R398)
  skips : BitVec 32
  walks : Nat
  waitw : Nat
  walking : List Nat              -- the die pulses at which the walks in progress end (21 R390)
  win : Nat                       -- 1 more than the number of the write window that has begun last (04 R84)
  hostres : Nat
  hostUsed : Nat                  -- bytes of HOSTRES spent in this window (22 R402)
  hostDef : Nat                   -- the deficit of host writes in the surplus tier (04 R85; 22 R402)
  gc : List Nat                   -- Gallery capacity toward dies 0 to 3 (04 R86)
  gcAt : Nat
  laneUsed : Nat                  -- bytes that the write lane admitted in die pulse `laneAt` (04 R85)
  laneAt : Nat
  served : Nat                    -- place last served in the rounds of the surplus tier: cluster m of the die, or 64 for the host (04 R85; 22 R402)
  eccCorr : Nat
  eccUnc : Nat
  crc : Nat
  fences : Nat
  remaps : Nat
  satSamples : Nat
  emergencies : Nat
  deriving DecidableEq, Repr

/-- One Ethernet port (23 R418, R430). -/
structure EPort where
  up : Bool
  queued : Nat                    -- bytes in the egress queue at pulse `at_` (23 R422)
  at_ : Nat
  changes : Nat
  crc : Nat
  drops : Nat
  deriving DecidableEq, Repr

/-- One Foyer lane (22 R411). -/
structure Lane where
  seq : BitVec 32
  drops : Nat
  detail : Nat
  code : Nat
  semsel : Word
  pending : Option SpawnReq       -- the request that awaits its queue's decision (22 R411, R412)
  deriving DecidableEq, Repr

/-- A stream entry at the target endpoint (23 R426). -/
structure StreamEntry where
  fkey : Word
  stream : Word
  counts : List (BitVec 16)
  deriving DecidableEq, Repr

/-- The source's state of one stream (12 R266; 23 R426). -/
structure Stream where
  rgn : Nat
  cl : Nat
  slot : Nat
  target : Nat
  next : BitVec 32
  counts : List (BitVec 16)
  lost : Bool                     -- a write of it was given up unacknowledged: no later one carries START, of whatever thread (23 R426, R427; log 66)
  cuts : Nat                      -- how far NSCC has lowered its window (23 R421, R422; log 46)
  deriving DecidableEq, Repr

/-- One checkpoint in the local store (25 R447, R449). -/
structure Checkpoint where
  rgn : Nat
  held : Bool                     -- a copy held for the -X neighbour
  origin : Nat
  ckseq : Word
  base : Nat                      -- where its bytes lie in the store, and how many they are
  len : Nat
  deriving DecidableEq, Repr

/-- A checkpoint that is being written to the store, and for a copy of the package's own over the +X face: the bytes that remain and
the number of those written (25 R449). -/
structure CkJob where
  ck : Checkpoint
  rest : List Byte
  done : Nat
  deriving DecidableEq, Repr

/-- What the package has sent to the host: data of reads, and MSI-X messages (22 R401, 19 R369). -/
inductive HostOut where
  | data (hpa : Nat) (bytes : List Byte) (poison : Bool)
  | reg (off : Nat) (v : Word)
  | msix (vector : Nat)
  | heartbeat (port : Nat) (pkg : BitVec 15) (time ckseq : Word)
  | packet (pkt : Packet) (port : Nat)
  | checkpoint (port : Nat) (pkg : BitVec 15) (rgn : Nat) (ckseq : Word) (off : Nat) (bytes : List Byte)   -- a part of the ROD stream of 25 R449
  | answer (stream : Word) (seq : BitVec 32) (kind : Nat) (v w : Word) (mark : Bool)   -- 0 ack, 1 data v, 2 reject of kind v with i3 w, 3 retry, 4 nack; the packet's CE mark
  deriving DecidableEq, Repr

/-- The bundle in issue (10 R198): the issuing thread and its words as i2 of 02 R35. -/
structure Cur where
  cl : Nat
  slot : Nat
  pair : Bool
  words : Word
  ready : Nat                     -- ready threads of the cluster in the pulse of the issue (03 R59)
  starved : Nat
  deriving DecidableEq, Repr

/-- A KBIND, KUNBIND or TKILL that the SMC or a context arbiter has not ended, and where its STATUS goes. -/
structure Teardown where
  id : Nat
  rgn : Nat
  knum : Nat
  live : Nat
  window : Bool                   -- the host bind window, else a descriptor in memory
  cl : Nat
  slot : Nat
  ea : Word                       -- the descriptor's address and the bundle's words, for the traps of its writes (04 R90)
  words : Word
  descPl : List Place
  deriving DecidableEq, Repr

/-- A packet that the endpoint has taken up: its source and PDS number, the pulse, and its answer once it has one (23 R421). -/
structure Seen where
  src : BitVec 15
  psn : BitVec 32
  at_ : Nat
  ans : Option (Nat × Word × Word)
  deriving DecidableEq, Repr

/-- A translation that a cluster's TLB holds, or from 256 up that of die `home` - 256: its region, the number of its page, the table lines
that it was derived from, and the die pulse at which the walk that brought it ends (21 R390). -/
structure TlbEntry where
  home : Nat
  rgn : Nat
  page : Nat
  lines : List Nat
  ready : Nat
  deriving DecidableEq, Repr

/-- A line that the memory-side cache of its home die holds: its way, the key ID it is tagged with, whether it is dirty, and whether a table
walk has read it (21 R390, R391, R397; log 79). -/
structure MscLine where
  line : Nat
  way : Nat
  key : Nat
  dirty : Bool
  mark : Bool
  deriving DecidableEq, Repr

/-- A 64-byte line whose next readers meet an uncorrectable ECC error or a CRC mismatch (04 R99, R100; log 18): an HBM
line, or a line of a frame's scratchpad window. -/
structure BadLine where
  hbm : Bool
  cl : Nat
  rgn : Nat
  knum : Nat
  line : Nat
  crc : Bool
  deriving DecidableEq, Repr

/-- The package. -/
structure State where
  time : Word
  pkgid : BitVec 15
  netId : Word                          -- fabric prefix and interface ID bits [63:15] (23 R417)
  iface : BitVec 49
  bootstat : Word
  hostmem : Word
  hdmBase : Nat
  nbrlost : Word
  nbrvec : Word
  rcmd : Word
  rstat : Word
  ccmdDesc : BitVec 256
  ccmd : BitVec 3
  bcmdDesc : BitVec 512
  bcmd : BitVec 2
  mbcmd : Word
  mbstat : Word
  msixTable : List (Nat × Word)         -- dwords 2v and 2v + 1 of vector v, where not as at reset; bit 32 of the second is its mask
  msixPend : List Nat                   -- vectors whose message waits for their mask (22 R400)
  rollback : BitVec 32
  firmware : BitVec 32
  fwDigest : BitVec 512                 -- SHAKE256 digest of the accepted image (22 R414, R415; log 9)
  fusedKey : BitVec 512                 -- SHAKE256 digest of the fused public key (22 R414)
  attestUsed : Nat
  kemSeed : BitVec 512                  -- d and z of the device's attested KEM key pair (22 R415; log 9)
  lanes : List (Nat × Lane)
  dies : List (Nat × Die)
  keys : List (Nat × KeySlot)
  clmap : List (Nat × Nat)              -- logical cluster to physical cluster, where not the map of R413
  badPhys : List Nat                    -- failed their test (22 R413)
  fencedPhys : List Nat                 -- fenced (25 R444)
  awaiting : List (Nat × Nat × Nat)     -- cluster, region and cause of a fence whose remap has still to act for the region (25 R445, R446)
  fusedBad : List Nat                   -- physical clusters that the fused list names as defective (22 R413)
  fencedLog : List Nat                  -- logical clusters fenced and not yet remapped (25 R444, R445)
  hbm : List Host.Cell
  lineKey : List (Nat × KeyVal)         -- HBM line to the key it was written with (21 R391)
  hostMem : List Host.Cell
  hostWrites : List (Nat × List Byte)   -- host CXL.mem writes that wait, by host address and bytes, oldest first (22 R402; 21 R390)
  regions : List Region
  frames : List Frame
  threads : List Thread
  phys : List (Nat × Phys)
  pairs : List (Nat × Pair)
  clus : List (Nat × Clus)
  cmds : List Cmd
  acts : List Act
  streams : List Stream
  entries : List StreamEntry
  heldOf : List Packet
  heldSpawn : List (SpawnReq × Packet)  -- held with the request that its key check and its resolution gave (23 R425, R429)
  heldSig : List (Nat × Packet)         -- held with the region of its key check (23 R425, R428)
  seen : List Seen                      -- the packets taken up lately (23 R421)
  psn : Nat                             -- packets numbered so far by this endpoint (23 R421)
  marked : List (BitVec 32)             -- PDS numbers of packets of this endpoint whose answers carry a CE mark (23 R422; log 18)
  txBad : List Nat                      -- ports at which the next packet meets a CRC mismatch as it leaves (23 R430; log 18)
  inbuf : List (Nat × Place × Packet)   -- checked inbound writes waiting for a landing cluster of a region (23 R428, 19 R374)
  loop : List (Nat × Packet)            -- packets of the package to itself, with the pulse from which its endpoint takes them up (12 R268)
  settled : List (Packet × Nat × Nat)   -- inbound writes performed or failed and not yet answered: the cause, 0 for none, and an atomic's old value
  landing : List (Nat × Nat)            -- region to its last landing cluster + 1 (04 R93)
  eports : List (Nat × EPort)
  refreshed : List Nat                  -- row groups refreshed at their previous visit (21 R396)
  tlb : List TlbEntry                   -- translations held, oldest first (21 R390; log 70)
  msc : List MscLine                    -- lines of the memory-side caches, oldest first (21 R397; log 79)
  rows : List Nat                       -- rows accessed since the last visit to their group (21 R394, R396; log 3)
  quiet : List (Nat × Nat)              -- torus face to heartbeat periods without a heartbeat from it (25 R451)
  ckpts : List Checkpoint               -- the complete checkpoints of the local store (25 R449)
  ckJobs : List CkJob                   -- those that are being written (25 R449)
  away : List Thread                    -- saved threads: what their save blocks have no place for (19 R375; log 27)
  teardowns : List Teardown
  hostOut : List HostOut
  eccG : List (Nat × Nat × Nat)         -- cluster, slot and number of registers with an uncorrectable error (19 R362)
  bad : List BadLine
  hostWBad : List Nat                   -- HBM lines whose next host write meets a CRC mismatch (04 R99; log 18)
  eccFix : List Nat                     -- HBM lines whose next access corrects an ECC error (25 R447; log 18)
  hostBad : List (Nat × BitVec 16)      -- host lines whose next reads complete with an error status (22 R403; log 18)
  deferred : List (Nat × Record)        -- records raised in the switch window of a pair, delivered after it (24 R440)
  -- the model's own
  cur : Cur
  agenda : List Instr
  auto : Bool
  now : Nat
  turn : Nat
  seq : Nat
  free : Nat
  deriving DecidableEq, Repr

/-- Values at reset of the numbered tables' records. -/
def Phys.reset : Phys :=
  { cyc := 0, cycAt := 0, edge := 0, ageql := 8, maxw := 0, pat := 0xFFFFFFFF, eff := 0xFFFFFFFF, patNext := none, duty := 32,
    ballast := 0, thrcnt := 0 }

def Pair.reset : Pair :=
  { req := 0, cur := 0, tgt := 0, cap := 0, volt := 550 * 0x96, goal := 550 * 0x96, window := none, voltAt := 0, temp := 0, imb := 0, ia := 0, ib := 0, above := 0,
    emergency := false, amps := 0, railOff := false, clearAt := 0 }

def Clus.reset : Clus :=
  { credit := 0, deficit := 0, rot := 0, spawnq := [], icache := [], ccache := [], holdTag := none, hold := [],
    rgnctl := 0, rej := false, statRegion := 0, result := 0, phase := 0, fqlost := 0, busy := [0, 0, 0, 0, 0],
    depAt := 0, saveseq := [], writer := none, saving := [], saveBad := false, savebases := [] }

def Die.reset : Die :=
  { wayen := 0xFFFF, skipen := true, mscOps := [], skips := 0, walks := 0, waitw := 0, walking := [], win := 0, hostres := 0, hostUsed := 0, hostDef := 0,
    gc := [0, 0, 0, 0], gcAt := 0, laneUsed := 0, laneAt := 0, served := 64, eccCorr := 0, eccUnc := 0, crc := 0, fences := 0, remaps := 0, satSamples := 0,
    emergencies := 0 }

def EPort.reset : EPort := { up := true, queued := 0, at_ := 0, changes := 0, crc := 0, drops := 0 }

def Lane.reset : Lane := { seq := 0, drops := 0, detail := 0, code := 0, semsel := 0, pending := none }

/-- The package right after reset: the registers' reset values, no region, nothing in flight (log 1, 2, 6, 15). -/
def State.reset : State :=
  { time := 0, pkgid := 0, netId := 0, iface := 0, bootstat := 0, hostmem := 0x4002, hdmBase := 0, nbrlost := 0, nbrvec := 0, rcmd := 0,
    rstat := 0, ccmdDesc := 0, ccmd := 0, bcmdDesc := 0, bcmd := 0, mbcmd := 0, mbstat := 0, msixTable := [], msixPend := [],
    rollback := 0, firmware := 0, fwDigest := 0, fusedKey := 0, attestUsed := 0, kemSeed := 0, lanes := [], dies := [], keys := [], clmap := [], badPhys := [],
    fencedPhys := [], awaiting := [], fusedBad := [], fencedLog := [], hbm := [], lineKey := [], hostMem := [], hostWrites := [], regions := [], frames := [],
    threads := [], phys := [], pairs := [], clus := [], cmds := [], acts := [], streams := [], entries := [],
    heldOf := [], heldSpawn := [], heldSig := [], seen := [], psn := 0, marked := [], txBad := [], inbuf := [], loop := [], settled := [], landing := [], eports := [], refreshed := [], tlb := [], msc := [], rows := [], quiet := [],
    ckpts := [], ckJobs := [], away := [], teardowns := [], hostOut := [], eccG := [], bad := [], hostWBad := [], eccFix := [], hostBad := [], deferred := [],
    cur := { cl := 0, slot := 0, pair := false, words := 0, ready := 0, starved := 0 },
    agenda := [], auto := true, now := 0, turn := 0, seq := 1, free := 0 }

end Sys2Proof.Machine
end

