-- ==== Sys2Proof/Machine/Ops.lean ====
section
/-! DEFINITION. The named operations over tables, bytes, memories, registers, threads, frames and semaphores, and the one
operation that takes a trap (19 R363, R364) beside the one that resumes a thread from it (14 R329). -/

namespace Sys2Proof.Machine

/-! ### Numbered tables, lists and bytes -/

/-- The record under a number, or the default. -/
def getK {α : Type} (l : List (Nat × α)) (k : Nat) (d : α) : α :=
  match l with
  | [] => d
  | (k', v) :: r => if k' = k then v else getK r k d

/-- Replaces or adds the record under a number; the list stays sorted by number. -/
def setK {α : Type} (l : List (Nat × α)) (k : Nat) (v : α) : List (Nat × α) :=
  match l with
  | [] => [(k, v)]
  | (k', v') :: r => if k' = k then (k, v) :: r else if k < k' then (k, v) :: (k', v') :: r else (k', v') :: setK r k v

/-- The bytes of a number, least significant first (00 R1). -/
def leBytes : Nat → Nat → List Byte
  | 0, _ => []
  | n + 1, v => BitVec.ofNat 8 v :: leBytes n (v / 256)

/-- The number that bytes spell, least significant first (00 R1). -/
def fromLE : List Byte → Nat
  | [] => 0
  | b :: r => b.toNat + 256 * fromLE r

/-- The element at an index, or a default. -/
def nth {α : Type} (l : List α) (i : Nat) (d : α) : α := l.getD i d

/-- Signed value of the low n bits (11 R219). -/
def sextNat (n : Nat) (v : Nat) : Int :=
  if v % 2 ^ n < 2 ^ (n - 1) then (v % 2 ^ n : Nat) else ((v % 2 ^ n : Nat) : Int) - (2 ^ n : Nat)

/-- A cache of so many lines takes one more: the oldest line that is not pinned makes room (01 R13; 03 R67; log 50). -/
def evict {α : Type} (cap : Nat) (pinned : α → Bool) (l : List α) : List α :=
  if l.length < cap then l
  else match l.find? (fun e => !pinned e) with
    | none => l
    | some _ => l.takeWhile pinned ++ (l.dropWhile pinned).drop 1

/-! ### Memories: lists of cells in one canonical form, an unlisted byte reading zero (log 1, 2; 02 R22) -/

/-- The byte at an address. -/
def memGet (m : List Host.Cell) (a : Nat) : Byte :=
  match m with
  | [] => 0
  | (k, v) :: r => if k = a then v else if a < k then 0 else memGet r a

/-- Writes a byte; writing zero removes the entry. -/
def memSet (m : List Host.Cell) (a : Nat) (b : Byte) : List Host.Cell :=
  match m with
  | [] => if b = 0 then [] else [(a, b)]
  | (k, v) :: r =>
    if k = a then (if b = 0 then r else (a, b) :: r)
    else if a < k then (if b = 0 then (k, v) :: r else (a, b) :: (k, v) :: r)
    else (k, v) :: memSet r a b

/-- Addresses strictly rise above the bound, and no entry is zero. -/
def memWfAbove (lo : Nat) : List Host.Cell → Bool
  | [] => true
  | (k, v) :: r => decide (lo ≤ k) && decide (v ≠ 0) && memWfAbove (k + 1) r

/-- The canonical form of a memory. -/
def Memory.wf (m : List Host.Cell) : Bool := memWfAbove 0 m

/-- n bytes from an address up. -/
def memRead (m : List Host.Cell) (a : Nat) : Nat → List Byte
  | 0 => []
  | n + 1 => memGet m a :: memRead m (a + 1) n

/-- Writes bytes from an address up. -/
def memWrite (m : List Host.Cell) (a : Nat) : List Byte → List Host.Cell
  | [] => m
  | b :: r => memWrite (memSet m a b) (a + 1) r

/-! ### Parts of the state -/

/-- The thread in a slot of a cluster. -/
def State.thread? (s : State) (cl slot : Nat) : Option Thread :=
  s.threads.find? (fun t => t.cl == cl && t.slot == slot)

/-- Replaces the thread in a slot by a function of it. -/
def State.modThread (s : State) (cl slot : Nat) (f : Thread → Thread) : State :=
  { s with threads := s.threads.map (fun t => if t.cl = cl ∧ t.slot = slot then f t else t) }

/-- The frame of a kernel on a cluster. -/
def State.frame? (s : State) (cl rgn knum : Nat) : Option Frame :=
  s.frames.find? (fun f => f.cl == cl && f.rgn == rgn && f.knum == knum)

/-- Replaces a frame by a function of it. -/
def State.modFrame (s : State) (cl rgn knum : Nat) (f : Frame → Frame) : State :=
  { s with frames := s.frames.map (fun x => if x.cl = cl ∧ x.rgn = rgn ∧ x.knum = knum then f x else x) }

/-- An active region. -/
def State.region? (s : State) (n : Nat) : Option Region := s.regions.find? (fun r => r.num == n)

/-- Replaces a region by a function of it. -/
def State.modRegion (s : State) (n : Nat) (f : Region → Region) : State :=
  { s with regions := s.regions.map (fun r => if r.num = n then f r else r) }

/-- A logical cluster's shared state. -/
def State.clu (s : State) (c : Nat) : Clus := getK s.clus c Clus.reset

/-- Replaces a logical cluster's shared state. -/
def State.modClu (s : State) (c : Nat) (f : Clus → Clus) : State := { s with clus := setK s.clus c (f (s.clu c)) }

/-- A die's registers. -/
def State.die (s : State) (d : Nat) : Die := getK s.dies d Die.reset

def State.modDie (s : State) (d : Nat) (f : Die → Die) : State := { s with dies := setK s.dies d (f (s.die d)) }

/-- A physical cluster's registers. -/
def State.phy (s : State) (p : Nat) : Phys := getK s.phys p Phys.reset

def State.modPhy (s : State) (p : Nat) (f : Phys → Phys) : State := { s with phys := setK s.phys p (f (s.phy p)) }

/-- A stack pair. -/
def State.pair (s : State) (p : Nat) : Pair := getK s.pairs p Pair.reset

def State.modPair (s : State) (p : Nat) (f : Pair → Pair) : State := { s with pairs := setK s.pairs p (f (s.pair p)) }

def State.eport (s : State) (p : Nat) : EPort := getK s.eports p EPort.reset

def State.modEport (s : State) (p : Nat) (f : EPort → EPort) : State :=
  { s with eports := setK s.eports p (f (s.eport p)) }

def State.lane (s : State) (k : Nat) : Lane := getK s.lanes k Lane.reset

def State.modLane (s : State) (k : Nat) (f : Lane → Lane) : State := { s with lanes := setK s.lanes k (f (s.lane k)) }

/-- The physical cluster, 72 x die + n, of a logical cluster (01 R11; 22 R413 stage 4). -/
def State.physOf (s : State) (cl : Nat) : Nat := getK s.clmap cl (72 * (cl / 64) + cl % 64)

/-- The stack pair, 36 x die + k, of a logical cluster (24 R431). -/
def State.pairOf (s : State) (cl : Nat) : Nat := s.physOf cl / 2

/-- The die of a logical cluster (01 R11). -/
def dieOf (cl : Nat) : Nat := cl / 64

/-! ### Pulses (00 R6; 24 R432 to R434): `now` counts die pulses, and every cluster counts its own -/

/-- Clock edges of a cluster in 22 die pulses, by performance state (24 R432). -/
def clockRate (p : Nat) : Nat := if p = 0 then 22 else if p = 1 then 19 else if p = 2 then 16 else 12

/-- The state whose clock runs: within a switch window the slower of the two (24 R439). -/
def Pair.clock (p : Pair) : Nat :=
  match p.window with
  | some (t, _) => Nat.max p.cur t
  | none => p.cur

/-- One bits among the first n of a 32-bit pattern. -/
def onesBelow (v : BitVec 32) (n : Nat) : Nat := ((List.range n).filter (fun k => v.getLsbD k)).length

/-- Pulses among the first n edges of a rotation: edge e is delivered exactly when bit e mod 32 of EFF is 1 (24 R433). -/
def delivered (eff : BitVec 32) (n : Nat) : Nat := n / 32 * onesBelow eff 32 + onesBelow eff (n % 32)

/-- Edges of the rotation before die pulse n, in 22nds of an edge. -/
def Phys.edgesAt (p : Phys) (rate n : Nat) : Nat := p.edge + rate * (n - p.cycAt)

/-- Pulses delivered before die pulse n. -/
def Phys.pulsesAt (p : Phys) (rate n : Nat) : Nat :=
  p.cyc + delivered p.eff (p.edgesAt rate n / 22) - delivered p.eff (p.edge / 22)

/-- The clock rate of a physical cluster. -/
def State.rateOf (s : State) (ph : Nat) : Nat := clockRate (s.pair (ph / 2)).clock

/-- CYC of a physical cluster before die pulse n. -/
def State.cycAt (s : State) (ph n : Nat) : Nat := (s.phy ph).pulsesAt (s.rateOf ph) n

/-- CYC of a logical cluster: the pulses delivered to it before this die pulse (14 R323). -/
def State.pulse (s : State) (cl : Nat) : Nat := s.cycAt (s.physOf cl) s.now

/-- The cluster has a pulse in this die pulse: its clock has an edge that is not masked (24 R434). -/
def State.delivers (s : State) (cl : Nat) : Bool := decide (s.pulse cl < s.cycAt (s.physOf cl) (s.now + 1))

/-- Every die pulse is a pulse of the cluster: P0 and no masked edge. -/
def State.fullRate (s : State) (cl : Nat) : Bool :=
  s.rateOf (s.physOf cl) == 22 && (s.phy (s.physOf cl)).eff == BitVec.allOnes 32

/-- A die pulse by which a cluster has had so many pulses, or the next one to look again. -/
def State.dieAt (s : State) (cl n : Nat) : Nat :=
  if n ≤ s.pulse cl then s.now else if s.fullRate cl then s.now + (n - s.pulse cl) else s.now + 1

/-- The pulse count of a physical cluster is carried to this die pulse: its clock or pattern is about to change. -/
def State.rebase (s : State) (ph : Nat) : State :=
  s.modPhy ph (fun p => { p with cyc := s.cycAt ph s.now, edge := p.edgesAt (s.rateOf ph) s.now, cycAt := s.now })

/-- A fresh number for acts, commands and orders. -/
def State.bump (s : State) : State := { s with seq := s.seq + 1 }

/-- Adds a piece of work in flight under the next number, due after so many die pulses (15 R334). -/
def State.addActDie (s : State) (delay cl slot : Nat) (after : List Nat) (job : Job) : State :=
  { s with acts := s.acts ++ [{ id := s.seq, due := s.now + delay, cl := cl, slot := slot, after := after, job := job }],
           seq := s.seq + 1 }

/-- Adds a piece of work in flight under the next number; its delay counts pulses of its cluster (00 R6). -/
def State.addAct (s : State) (delay cl slot : Nat) (after : List Nat) (job : Job) : State :=
  { s with acts := s.acts ++ [{ id := s.seq, due := s.now, cl := cl, slot := slot, after := after, job := job, cyc := s.pulse cl + delay }],
           seq := s.seq + 1 }

def State.act? (s : State) (id : Nat) : Option Act := s.acts.find? (fun a => a.id == id)

def State.dropAct (s : State) (id : Nat) : State := { s with acts := s.acts.filter (fun a => a.id != id) }

/-- The access of an act has performed: only its result may still be on its way. -/
def Act.performed (a : Act) : Bool := match a.job with | .result .. | .failed .. => true | _ => false

/-- Nothing that an act waits for is still to be performed (05 R107). -/
def State.doneAll (s : State) (ids : List Nat) : Bool := ids.all (fun i => !(s.acts.any (fun a => a.id == i && !a.performed)))

/-- The acquires of a thread that have not performed: its later accesses wait for them (05 R109). -/
def State.openAcq (s : State) (t : Thread) : List Nat := t.acq.filter (fun id => !s.doneAll [id])

/-- The slot part of work of a suspended thread, and of a thread that has ended (02 R18, R32). -/
def awayTag (slot : Nat) : Bool := decide (1024 ≤ slot ∧ slot < 262144)
def goneTag (slot : Nat) : Bool := decide (262144 ≤ slot)

/-- The save block of a region on a cluster has been composed and is being written: what comes for its threads waits for their
resumption (19 R374 item 3, R375). -/
def State.savingOn (s : State) (cl rgn : Nat) : Bool :=
  (s.clu cl).phase == 3 && field (s.clu cl).rgnctl 0 3 == 1 && (s.clu cl).statRegion == rgn

/-- Work of a thread that is saved, or about to be. -/
def State.absent (s : State) (a : Act) : Bool :=
  awayTag a.slot || (match s.thread? a.cl a.slot with | some t => s.savingOn t.cl t.rgn | none => false)

/-- Work that takes its own event to start, by the default order. -/
def State.tick (s : State) (delay : Nat) (cl slot : Nat) (ev : Instr) : State := s.addAct delay cl slot [] (.tick ev)

/-- A value the spec leaves open (log 3). -/
def State.freeVal (s : State) : Word := Config.freeWord s.free

def State.useFree (s : State) : State := { s with free := s.free + 1 }

/-- A counter that saturates at 2^32 - 1 (25 R447). -/
def satInc (n : Nat) : Nat := Nat.min (n + 1) 0xFFFFFFFF

/-- The CRC and uncorrectable-error counters of a die (04 R99, R100; 25 R447). -/
def State.countCrc (s : State) (d : Nat) : State := s.modDie d (fun x => { x with crc := satInc x.crc })
def State.countEcc (s : State) (d : Nat) : State := s.modDie d (fun x => { x with eccUnc := satInc x.eccUnc })

/-! ### Registers -/

/-- G[x]; g0 reads as zero (02 R24, 11 R219). -/
def Thread.getG (t : Thread) (r : Nat) : Word := if r = 0 then 0 else nth t.g r 0

/-- G[x] := v; a write of g0 is discarded. -/
def Thread.setG (t : Thread) (r : Nat) (v : Word) : Thread := if r = 0 then t else { t with g := t.g.set r v }

def Thread.getP (t : Thread) (k : Nat) : Bool := t.p.getLsbD k

def setBit {w : Nat} (v : BitVec w) (k : Nat) (b : Bool) : BitVec w :=
  if b then v ||| BitVec.ofNat w (2 ^ k) else v &&& ~~~(BitVec.ofNat w (2 ^ k))

def Thread.setP (t : Thread) (k : Nat) (b : Bool) : Thread := { t with p := setBit t.p k b }

/-- SetPending; g0 has no pending bit (03 R52). -/
def Thread.pend (t : Thread) : Dst → Thread
  | .g r => if r.toNat = 0 then t else { t with pendG := setBit t.pendG r.toNat true }
  | .p k => { t with pendP := setBit t.pendP k.toNat true }

def Thread.unpend (t : Thread) : Dst → Thread
  | .g r => { t with pendG := setBit t.pendG r.toNat false }
  | .p k => { t with pendP := setBit t.pendP k.toNat false }

/-- A long-latency result is written and its pending bit clears; a result for g0 is discarded (03 R52, R55). -/
def Thread.deliver (t : Thread) (d : Dst) (v : Word) : Thread :=
  match d with
  | .g r => (t.setG r.toNat v).unpend d
  | .p k => (t.setP k.toNat (v.getLsbD 0)).unpend d

/-- Mask k; m0 is all-true and its writes are discarded (13 R275, 10 R213). -/
def Thread.getM (t : Thread) (k : Nat) : Mask := if k = 0 then BitVec.allOnes 16384 else nth t.m k 0

def Thread.setM (t : Thread) (k : Nat) (v : Mask) : Thread := if k = 0 then t else { t with m := t.m.set k v }

/-! ### Parts as they start -/

/-- A log entry of zero bytes (07 R150). -/
def LogEntry.zero : LogEntry := { seq := 0, slot := 0, step := 0, firstRow := 0, nRows := 0, sMax := 0, sMin := 0 }

/-- The tile that MCLR leaves (07 R150). -/
def Tile.clear : Tile :=
  { rows := List.replicate 128 { e := 0, elems := [] }, trapm := false, evcnt := 0,
    log := List.replicate 16 LogEntry.zero, logn := 0, loghead := 0,
    loglost := 0, steps := 0, dflags := 0 }

/-- A half of the write-error latch that holds nothing (12 R261). -/
def ErrHalf.none : ErrHalf := { n := 0, cause := 0, i0 := 0, i1 := 0, i3 := 0, ord := 0 }

/-- A thread as it starts (02 R25). -/
def Thread.start (cl slot rgn knum kregs kvregs : Nat) (pc : Word) : Thread :=
  { cl := cl, slot := slot, rgn := rgn, knum := knum, pc := pc, g := List.replicate 32 0, p := 0,
    v := List.replicate kvregs 0, m := List.replicate 8 0, key := 0, ctr := 0, prio := 0, vtype := 0, grp := 0, vl := 0,
    vfcsr := 0, pendG := 0, pendP := 0, swlim := 0, spwlim := 0, wcode := 0, fpcnt := [0, 0, 0, 0], fpAt := 0, fpPaths := [],
    errFab := ErrHalf.none, errMem := ErrHalf.none, barph := 0, bsarr := false, allot := kregs, join := none,
    wait := .none, marker := false, w := 0, launch := true, nextIssue := 0, prev := BitVec.allOnes 64, ipc := pc,
    isolo := false, soloC := false, replay := [], vstop := false, late := [], seqs := [0, 0, 0, 0, 0], acq := [] }

/-! ### The bundle in issue -/

/-- The address at which the thread's next bundle begins: for the C-class word of a pair alone, the pair's (10 R200). -/
def Thread.fetchPc (t : Thread) : Word := if t.soloC then t.pc - 4 else t.pc

/-- What a meaning reads of its surroundings: thread, frame and region as they stood before the bundle, and the
allotment its registers are checked against (11 R219, R238). -/
structure Ctx where
  t : Thread
  f : Frame
  r : Region
  allot : Nat
  deriving DecidableEq, Repr

/-- A wait limit of a bundle's access: what is left of it where the access issues again (19 R376, R453). -/
def Thread.limit (t : Thread) (lim : BitVec 32) : Nat := if t.left = 0 then lim.toNat else t.left

def State.ctx? (s : State) : Option Ctx :=
  match s.thread? s.cur.cl s.cur.slot with
  | none => none
  | some t =>
    match s.frame? t.cl t.rgn t.knum, s.region? t.rgn with
    | some f, some r => some { t := t, f := f, r := r, allot := t.allot }
    | _, _ => none

/-- BPC and NEXT of 11 R219. -/
def Ctx.bpc (c : Ctx) : Word := c.t.fetchPc

def Ctx.next (s : State) (c : Ctx) : Word := c.t.pc + (if s.cur.pair then 8 else 4)

/-- A cause with its information words (02 R35, 04 R70 and the others). -/
structure Trap where
  cause : Nat
  i0 : Word
  i1 : Word
  i2 : Word
  i3 : Word
  deriving DecidableEq, Repr

/-- The SEMID of 11 R241. -/
def semid (cl s : Nat) : Word := BitVec.ofNat 64 (cl * 65536 + s)

/-! ### Records and traps -/

/-- PSTATE of a record raised on a cluster (19 R363, 24 R440). -/
def State.pstate (s : State) (cl : Nat) : BitVec 4 :=
  let p := s.pair (s.pairOf cl)
  BitVec.ofNat 4 (p.cur + 4 * p.tgt)

/-- The region whose queue takes a region's records (02 R17, R18). -/
def State.fqOwner (s : State) (rgn : Nat) : Nat :=
  match s.region? rgn with
  | some r => r.fqOwner
  | none => rgn

/-- A record reaches its fault-queue arbiter; while the queue is full, a record without PARKED that finds no room among
the sixteen of its cluster is dropped and counted (19 R365, R367). -/
def State.raiseNow (s : State) (rec : Record) : State :=
  let o := s.fqOwner rec.rgn
  match s.region? o with
  | none => s
  | some r =>
    if !rec.parked && (r.full || r.failing) && (r.kept.filter (fun k => k.lcl == rec.lcl)).length ≥ 16 then
      s.modClu rec.lcl (fun c => { c with fqlost := Nat.min (c.fqlost + 1) 0xFFFF })
    else
      let s1 := s.modRegion o (fun r => { r with kept := r.kept ++ [rec] })
      if r.full || r.failing then s1 else s1.tick 1 rec.lcl rec.slot (.faultRecord o)

/-- A record is raised. In a switch window of its cluster's pair it is delivered after the window (24 R440; 19 R363). -/
def State.raise (s : State) (rec : Record) : State :=
  if (s.pair (s.pairOf rec.lcl)).window.isSome then { s with deferred := s.deferred ++ [(s.pairOf rec.lcl, rec)] } else s.raiseNow rec

/-- The records that a pair's switch window held back are delivered, with the states at delivery (24 R440). -/
def State.deliverDeferred (s : State) (pair : Nat) : State :=
  (s.deferred.filter (fun x => x.1 == pair)).foldl (fun s x => s.raiseNow { x.2 with pstate := s.pstate x.2.lcl })
    { s with deferred := s.deferred.filter (fun x => x.1 != pair) }

/-- A record that names a thread or a command but parks nothing (14 R303, 12 R260). -/
def State.report (s : State) (cl slot rgn knum : Nat) (t : Trap) : State :=
  s.raise { cause := t.cause, parked := false, nothread := false, pstate := s.pstate cl, rgn := rgn, lcl := cl,
            slot := slot % 512, knum := knum, pc := 0, i0 := t.i0, i1 := t.i1, i2 := t.i2, i3 := t.i3 }

/-- TAKING A TRAP: the thread parks with the PC that its rule gives and its record goes to the region's fault queue
(00 R8, 19 R363 to R365). `solo` says that the PC names the C-class word of a pair alone (10 R200). The launch precedence of a
thread that has not issued yet ends with it (03 R50; log 71). -/
def State.park (s : State) (cl slot : Nat) (pc : Word) (solo : Bool) (tr : Trap) : State :=
  match s.thread? cl slot with
  | none => s
  | some t =>
    (s.modThread cl slot (fun t => { t with wait := .parked, pc := pc, soloC := solo, pre := none, left := 0, launch := false, w := 0 })).raise
      { cause := tr.cause, parked := true, nothread := false, pstate := s.pstate cl, rgn := t.rgn, lcl := cl,
        slot := slot, knum := t.knum, pc := pc, i0 := tr.i0, i1 := tr.i1, i2 := tr.i2, i3 := tr.i3 }

/-- A trap found at decode: neither word takes effect, and the PC is the bundle's (10 R217, 11 R219). -/
def State.trapDecode (s : State) (c : Ctx) (tr : Trap) : State := s.park c.t.cl c.t.slot c.t.pc c.t.soloC tr

/-- A trap of the C-class word after issue: the PC is the pair's address plus 4, or the lone word's (10 R200). -/
def State.trapIssued (s : State) (cl slot : Nat) (tr : Trap) : State :=
  match s.thread? cl slot with
  | none => s
  | some t => s.park cl slot t.ipc t.isolo tr

/-- A trap whose PC is the next bundle (11 R247, 12 R259, 14 R326). -/
def State.trapNext (s : State) (cl slot : Nat) (tr : Trap) : State :=
  match s.thread? cl slot with
  | none => s
  | some t => s.park cl slot t.pc t.soloC tr

/-- THE RETURN FROM A TRAP: a parked thread becomes ready with W = 0, its base priority clamped to the ceiling
(14 R329; 02 R34). The replay queue is entered by the meaning of TRESUME. -/
def State.resume (s : State) (cl slot ceil : Nat) : State :=
  s.modThread cl slot (fun t => { t with wait := .none, w := 0, prio := BitVec.ofNat 3 (Nat.min t.prio.toNat ceil) })

/-- The issue of a bundle word: the PC moves to NEXT, and a later trap of it records the PC of 10 R200. The switch marker
is bit 30 of the first word (03 R54). -/
def State.begin (s : State) (c : Ctx) : State :=
  s.modThread c.t.cl c.t.slot (fun t =>
    { t with pc := c.next s, prev := t.fetchPc, soloC := false, launch := false, acq := s.openAcq t, left := 0,
             pre := none,
             ipc := if s.cur.pair then t.pc + 4 else t.pc, isolo := s.cur.pair || t.soloC,
             marker := bitOf s.cur.words 30 })

/-! ### Semaphores (02 R37, R38) -/

def Frame.sem (f : Frame) (k : Nat) : Sem := nth f.sems k { count := 0, poison := false }

def State.setSem (s : State) (cl rgn knum k : Nat) (v : Sem) : State :=
  s.modFrame cl rgn knum (fun f => { f with sems := f.sems.set k v })

/-- Slots of the threads that wait on a semaphore, with their order (02 R38). -/
def State.semWaiters (s : State) (cl rgn knum k : Nat) : List (Nat × Nat) :=
  s.threads.filterMap (fun t =>
    if t.cl = cl ∧ t.rgn = rgn ∧ t.knum = knum then
      match t.wait with
      | .sem q _ _ _ o => if q = k then some (o, t.slot) else none
      | .ring _ q _ _ _ o => if q = k ∨ q + 1 = k then some (o, t.slot) else none
      | _ => none
    else none)

/-- Inserts by rising order. -/
def insertOrd (x : Nat × Nat) : List (Nat × Nat) → List (Nat × Nat)
  | [] => [x]
  | y :: r => if x.1 < y.1 then x :: y :: r else y :: insertOrd x r

def sortOrd : List (Nat × Nat) → List (Nat × Nat)
  | [] => []
  | x :: r => insertOrd x (sortOrd r)

/-- The earliest of a thread's failures that are still to be delivered. -/
def earliestLate : List Late → Option Late
  | [] => none
  | x :: r =>
    match earliestLate r with
    | none => some x
    | some y => if x.ord ≤ y.ord then some x else some y

/-- A late failure parks its thread before the next bundle it would issue, one failure at a time in issue order; in the
final wait of QUIT the PC is that of the QUIT, and in a VWAIT that a vector trap ends, that of the VWAIT (12 R259, 13 R284;
log 20). Any other wait goes on first. Issue order decides among the failures that have arrived; an operation that is still on its way
holds none of them back (log 20). -/
def State.deliverLate (s : State) (cl slot : Nat) : State :=
  match s.thread? cl slot with
  | none => s
  | some t =>
    match earliestLate t.late with
    | none => s
    | some l =>
      let s1 := s.modThread cl slot (fun t => { t with late := t.late.erase l })
      let tr : Trap := ⟨l.cause, l.i0, l.i1, l.i2, l.i3⟩
      match t.wait with
      | .none => s1.trapNext cl slot tr
      | .vwait => if t.late.any (fun x => x.vector) then s1.trapIssued cl slot tr else s
      | .quit => s1.trapIssued cl slot tr
      | _ => s

/-- The region of a thread is suspended on its cluster: its sleep and its wait limits stand still (02 R46; 19 R374). -/
def State.frozen (s : State) (t : Thread) : Bool :=
  match s.frame? t.cl t.rgn t.knum with
  | some f => f.stopped
  | none => false

/-- The thread's wait ends and it becomes ready (02 R38), unless a late failure is to be delivered. -/
def State.endWait (s : State) (cl slot : Nat) : State :=
  (s.modThread cl slot (fun t => { t with wait := .none, w := 0 })).deliverLate cl slot

/-- One waiter is examined: poison traps it with 4.0.3, a sufficient count serves it (02 R38, R40; 11 R242, R243). -/
def State.serveOne (s : State) (cl rgn knum slot : Nat) : State :=
  match s.thread? cl slot, s.frame? cl rgn knum with
  | some t, some f =>
    match t.wait with
    | .sem k n _ _ _ =>
      let v := f.sem k
      if v.poison then s.trapIssued cl slot ⟨259, semid cl k, BitVec.ofNat 64 v.count.toNat, BitVec.ofNat 64 n, 0⟩
      else if n ≤ v.count.toNat then (s.setSem cl rgn knum k { v with count := v.count - BitVec.ofNat 16 n }).endWait cl slot
      else s
    | .ring p k n _ _ _ =>
      let v0 := f.sem k
      let v1 := f.sem (k + 1)
      if v0.poison then s.trapIssued cl slot ⟨259, semid cl k, BitVec.ofNat 64 v0.count.toNat, BitVec.ofNat 64 n, 0⟩
      else if v1.poison then
        s.trapIssued cl slot ⟨259, semid cl (k + 1), BitVec.ofNat 64 v1.count.toNat, BitVec.ofNat 64 n, 0⟩
      else if n ≤ v0.count.toNat then
        ((s.setSem cl rgn knum k { v0 with count := v0.count - BitVec.ofNat 16 n }).modThread cl slot
          (fun t => t.setP p.toNat false)).endWait cl slot
      else if n ≤ v1.count.toNat then
        ((s.setSem cl rgn knum (k + 1) { v1 with count := v1.count - BitVec.ofNat 16 n }).modThread cl slot
          (fun t => t.setP p.toNat true)).endWait cl slot
      else s
    | _ => s
  | _, _ => s

def State.serveList (s : State) (cl rgn knum : Nat) : List (Nat × Nat) → State
  | [] => s
  | (_, slot) :: r => (s.serveOne cl rgn knum slot).serveList cl rgn knum r

/-- A semaphore serves its waiters in wait order (02 R38). -/
def State.serve (s : State) (cl rgn knum k : Nat) : State :=
  s.serveList cl rgn knum (sortOrd (s.semWaiters cl rgn knum k))

/-- A semaphore after a signal: past 65,535 the count stays there and poison is set (02 R37). -/
def Sem.signal (v : Sem) (inc : Nat) : Sem :=
  if v.count.toNat + inc > 65535 then { count := 65535, poison := true }
  else { v with count := v.count + BitVec.ofNat 16 inc }

/-- Signal(s, k) of 00 R9 at the semaphore's arbiter. An increment of 0 serves no waiter (11 R245). -/
def State.signal (s : State) (cl rgn knum k inc : Nat) : State :=
  match s.frame? cl rgn knum with
  | none => s
  | some f =>
    if inc = 0 then s else (s.setSem cl rgn knum k ((f.sem k).signal inc)).serve cl rgn knum k

/-- Poison(s) of 00 R9: the bit is set and every current waiter traps (11 R246). -/
def State.poisonSem (s : State) (cl rgn knum k : Nat) : State :=
  match s.frame? cl rgn knum with
  | none => s
  | some f => (s.setSem cl rgn knum k { f.sem k with poison := true }).serve cl rgn knum k

/-- A thread begins to wait: the wait is examined at once at the arbiter (11 R242), and expiry is scheduled (02 R39). -/
def State.startWait (s : State) (cl slot : Nat) (w : Wait) : State :=
  s.modThread cl slot (fun t => { t with wait := w })

/-- The pulse at which a wait limit expires; 0 names no limit (02 R39). -/
def limitAt (now : Nat) (lim : Nat) : Nat := if lim = 0 then 0 else now + lim

end Sys2Proof.Machine
end

