-- ==== Sys2Proof/Machine/Xmss.lean ====
section
/-! DEFINITION. SHAKE256 (FIPS 202) and the verification of an XMSS-SHAKE256_20_256 signature (NIST SP 800-208; RFC 8391), the standards
that 22 R414 names for the firmware image (log 9). Byte strings are lists of bytes in their order. -/

namespace Sys2Proof.Machine

/-! ### SHAKE256 -/

/-- Rotations of the lanes, lane (x, y) at x + 5y, and the round constants. -/
def keccakRot : List Nat := [0, 1, 62, 28, 27, 36, 44, 6, 55, 20, 3, 10, 43, 25, 39, 41, 45, 15, 21, 8, 18, 2, 61, 56, 14]
def keccakRound : List (BitVec 64) :=
  [0x0000000000000001, 0x0000000000008082, 0x800000000000808A, 0x8000000080008000, 0x000000000000808B, 0x0000000080000001,
   0x8000000080008081, 0x8000000000008009, 0x000000000000008A, 0x0000000000000088, 0x0000000080008009, 0x000000008000000A] ++
  [0x000000008000808B, 0x800000000000008B, 0x8000000000008089, 0x8000000000008003, 0x8000000000008002, 0x8000000000000080,
   0x000000000000800A, 0x800000008000000A, 0x8000000080008081, 0x8000000000008080, 0x0000000080000001, 0x8000000080008008]

/-- A state of 25 lanes. -/
abbrev Lanes := List (BitVec 64)

/-- The lane in column x and row y, each modulo 5. -/
def laneAt (a : Lanes) (x y : Nat) : BitVec 64 := a.getD (x % 5 + 5 * (y % 5)) 0

/-- The 25 lanes of a function of column and row. -/
def lanesOf (f : Nat → Nat → BitVec 64) : Lanes := (List.range 25).map (fun k => f (k % 5) (k / 5))

/-- One round: theta, rho and pi, chi, iota. -/
def keccakStep (a : Lanes) (rc : BitVec 64) : Lanes :=
  let c := (List.range 5).map (fun x => (List.range 5).foldl (fun v y => v ^^^ laneAt a x y) 0)
  let d := (List.range 5).map (fun x => c.getD ((x + 4) % 5) 0 ^^^ (c.getD ((x + 1) % 5) 0).rotateLeft 1)
  let t := lanesOf (fun x y => laneAt a x y ^^^ d.getD x 0)
  let b := lanesOf (fun x y => (laneAt t (x + 3 * y) x).rotateLeft (keccakRot.getD ((x + 3 * y) % 5 + 5 * x) 0))
  match lanesOf (fun x y => laneAt b x y ^^^ (~~~(laneAt b (x + 1) y) &&& laneAt b (x + 2) y)) with
  | [] => []
  | l :: r => (l ^^^ rc) :: r

/-- The permutation of 24 rounds. -/
def keccak (a : Lanes) : Lanes := keccakRound.foldl keccakStep a

/-- n lanes of bytes, the lowest byte of a lane first. -/
def bytesLanes : Nat → List Byte → Lanes
  | 0, _ => []
  | n + 1, l => (l.take 8).foldr (fun b v => (v <<< 8) ||| b.setWidth 64) 0 :: bytesLanes n (l.drop 8)

/-- The bytes of lanes. -/
def lanesBytes (a : Lanes) : List Byte := a.flatMap (fun (v : BitVec 64) => (List.range 8).map (fun k => (v >>> (8 * k)).setWidth 8))

/-- Blocks of `rate` bytes are taken into the state. -/
def spongeIn (rate : Nat) : Nat → List Byte → Lanes → Lanes
  | 0, _, a => a
  | n + 1, l, a => spongeIn rate n (l.drop rate) (keccak (List.zipWith (fun x y => x ^^^ y) a (bytesLanes 25 (l.take rate))))

/-- n blocks of `rate` bytes are taken out of the state. -/
def spongeOut (rate : Nat) : Nat → Lanes → List Byte
  | 0, _ => []
  | n + 1, a => (lanesBytes a).take rate ++ spongeOut rate n (keccak a)

/-- The padding to whole blocks, which begins with the suffix of the function. -/
def spongePad (rate : Nat) (suffix : Byte) (m : List Byte) : List Byte :=
  let k := rate - m.length % rate
  if k = 1 then m ++ [suffix ||| 0x80] else m ++ [suffix] ++ List.replicate (k - 2) 0 ++ [0x80]

/-- n bytes of a function of FIPS 202 with its rate and suffix. -/
def sponge (rate : Nat) (suffix : Byte) (m : List Byte) (n : Nat) : List Byte :=
  let p := spongePad rate suffix m
  (spongeOut rate ((n + rate - 1) / rate) (spongeIn rate (p.length / rate) p (List.replicate 25 0))).take n

/-- n bytes of SHAKE256. -/
def shake256 (m : List Byte) (n : Nat) : List Byte := sponge 136 0x1F m n

/-! ### XMSS-SHAKE256_20_256 -/

/-- n bytes of a number, the highest first. -/
def bigBytes : Nat → Nat → List Byte
  | 0, _ => []
  | n + 1, v => BitVec.ofNat 8 (v / 256 ^ n) :: bigBytes n v

/-- A number from its bytes, the highest first. -/
def bigNat (l : List Byte) : Nat := l.foldl (fun n b => 256 * n + b.toNat) 0

/-- The hash functions F, H, H_msg and PRF, told apart by their first 32 bytes. -/
def xmssHash (which : Nat) (key m : List Byte) : List Byte := shake256 (bigBytes 32 which ++ key ++ m) 32

/-- An address of layer 0 and tree 0: its type and its last four words. -/
def xmssAdrs (type a b c mask : Nat) : List Byte := bigBytes 12 0 ++ bigBytes 4 type ++ bigBytes 4 a ++ bigBytes 4 b ++ bigBytes 4 c ++ bigBytes 4 mask

def xorList (a b : List Byte) : List Byte := List.zipWith (fun x y => x ^^^ y) a b

/-- `chain`: s steps from step i. -/
def wotsChain (seed : List Byte) (ots k : Nat) : Nat → Nat → List Byte → List Byte
  | 0, _, x => x
  | s + 1, i, x =>
    let mask := xmssHash 3 seed (xmssAdrs 0 ots k i 1)
    wotsChain seed ots k s (i + 1) (xmssHash 0 (xmssHash 3 seed (xmssAdrs 0 ots k i 0)) (xorList x mask))

/-- RAND_HASH of two nodes under an address of a type. -/
def randHash (seed : List Byte) (type a height index : Nat) (l r : List Byte) : List Byte :=
  let f (mask : Nat) : List Byte := xmssHash 3 seed (xmssAdrs type a height index mask)
  xmssHash 1 (f 0) (xorList l (f 1) ++ xorList r (f 2))

/-- One level of an L-tree. -/
def ltreeLevel (seed : List Byte) (a height : Nat) : Nat → List (List Byte) → List (List Byte)
  | i, l :: r :: rest => randHash seed 1 a height i l r :: ltreeLevel seed a height (i + 1) rest
  | _, l => l

/-- The root of an L-tree of at most 2^n nodes. -/
def ltree (seed : List Byte) (a : Nat) : Nat → Nat → List (List Byte) → List Byte
  | 0, _, l => l.headD []
  | n + 1, height, l => ltree seed a n (height + 1) (ltreeLevel seed a height 0 l)

/-- The nodes of the authentication path, from the leaf up. -/
def authRoot (seed : List Byte) : Nat → Nat → List Byte → List (List Byte) → List Byte
  | _, _, node, [] => node
  | height, index, node, x :: rest =>
    let up := randHash seed 2 0 height (index / 2) (if index % 2 = 0 then node else x) (if index % 2 = 0 then x else node)
    authRoot seed (height + 1) (index / 2) up rest

/-- The first n nodes of 32 bytes of a string. -/
def nodes32 : Nat → List Byte → List (List Byte)
  | 0, _ => []
  | n + 1, l => l.take 32 :: nodes32 n (l.drop 32)

/-- The base-16 digits of a message's hash with those of its checksum. -/
def wotsDigits (m : List Byte) : List Nat :=
  let d := m.flatMap (fun b => [b.toNat / 16, b.toNat % 16])
  let c := d.foldl (fun n x => n + (15 - x)) 0
  d ++ [c / 256 % 16, c / 16 % 16, c % 16]

/-- The parameter set's number at the head of a public key. -/
def xmssOid : Nat := 0x12

/-- A signature of a message verifies under a public key: the root that it leads to is the key's. -/
def xmssVerify (key m sig : List Byte) : Bool :=
  let root := (key.drop 4).take 32
  let seed := (key.drop 36).take 32
  let idx := bigNat (sig.take 4)
  let r := (sig.drop 4).take 32
  let h := xmssHash 2 (r ++ root ++ bigBytes 32 idx) m
  let pk := ((nodes32 67 (sig.drop 36)).zip (wotsDigits h)).zipIdx.map (fun x => wotsChain seed idx x.2 (15 - x.1.2) x.1.2 x.1.1)
  decide (key.length = 68) && decide (bigNat (key.take 4) = xmssOid) && decide (sig.length = 2820) && decide (idx < 2 ^ 20) &&
    authRoot seed 0 idx (ltree seed idx 7 0 pk) (nodes32 20 (sig.drop 2180)) == root

end Sys2Proof.Machine
end

