-- ==== Sys2Proof/Machine/Xts.lean ====
section
/-! DEFINITION. AES-256-XTS, the standard that 21 R391 names for the lines of HBM (FIPS 197; IEEE 1619; log 10), and AES-256-KW, that of
the mailbox's key pairs (22 R415; RFC 3394): a 64-byte line is one data unit of four blocks under the tweak 2^25 x c + L[30:6]. Bytes are numbers below 256, a block is its 16 bytes in
memory order. -/

namespace Sys2Proof.Machine

/-! ### AES-256 (FIPS 197) -/

/-- The substitution table and its inverse, entry k in byte k % 32 of word k / 32. -/
def sboxWords : List Nat :=
  [0xc072a49cafa2d4adf04759fa7dc982ca76abd7fe2b670130c56f6bf27b777c63,
   0x75b227ebe28012079a059618c323c7041531d871f1e5a534ccf73f362693fdb7,
   0xcf584c4a39becb6a5bb1fc20ed00d153842fe329b3d63b52a05a6e1b1a2c8309,
   0xd2f3ff1021dab6bcf5389d928f40a351a89f3c507f02f94585334d43fbaaefd0,
   0xdb0b5ede14b8ee4688902a22dc4f816073195d643d7ea7c41744975fec130ccd,
   0x08ae7a65eaf4566ca94ed58d6d37c8e779e4959162acd3c25c2406490a3a32e0,
   0x9e1dc186b95735610ef6034866b53e708a8bbd4b1f74dde8c6b4a61c2e2578ba,
   0x16bb54b00f2d99416842e6bf0d89a18cdf2855cee9871e9b948ed9691198f8e1]
def invSboxWords : List Nat :=
  [0xcbe9dec444438e3487ff2f9b8239e37cfbd7f3819ea340bf38a53630d56a0952,
   0x25d18b6d49a25b76b224d92866a12e084ec3fa420b954cee3d23c2a632947b54,
   0x849d8da75746155edab9edfd5048706c92b6655dcc5ca4d41698688664f6f872,
   0x6b8a130103bdafc1020f3fca8f1e2cd00645b3b80558e4f70ad3bc8c00abd890,
   0x6edf751ce837f9e28535ade72274ac9673e6b4f0cecff297eadc674f4111913a,
   0xf45acd78fec0db9a2079d2c64b3e56fc1bbe18aa0e62b76f89c5291d711af147,
   0xef9cc9939f7ae52d0d4ab519a97f51605fec8027591012b131c7078833a8dd1f,
   0x7d0c2155631469e126d677ba7e042b17619953833cbbebc8b0f52aae4d3be0a0]

/-- An entry of a table of 256 bytes. -/
def byteOf (t : List Nat) (b : Nat) : Nat := (t.getD (b / 32) 0) / 2 ^ (8 * (b % 32)) % 256

/-- Multiplication by x in the field of AES. -/
def aesTimes (b : Nat) : Nat := if b < 128 then 2 * b else (2 * b - 256) ^^^ 0x1B

/-- A product in the field of AES by a factor below 16. -/
def aesMul (k b : Nat) : Nat :=
  let b2 := aesTimes b
  let b4 := aesTimes b2
  let b8 := aesTimes b4
  (if k % 2 = 1 then b else 0) ^^^ (if k / 2 % 2 = 1 then b2 else 0) ^^^ (if k / 4 % 2 = 1 then b4 else 0) ^^^ (if k / 8 % 2 = 1 then b8 else 0)

def xorBytes (a b : List Nat) : List Nat := List.zipWith (fun x y => x ^^^ y) a b

/-- The next word of the key schedule after the words `ws`, the last one first; `rcon` is the round constant. -/
def nextKeyWord (ws : List (List Nat)) (rcon : Nat) : List Nat :=
  let i := ws.length
  let temp := ws.headD []
  let old := ws.getD 7 []
  let sub := fun (w : List Nat) => w.map (byteOf sboxWords)
  if i % 8 = 0 then xorBytes old (xorBytes (sub (temp.drop 1 ++ temp.take 1)) [rcon, 0, 0, 0])
  else if i % 8 = 4 then xorBytes old (sub temp)
  else xorBytes old temp

def growKey : Nat → Nat → List (List Nat) → List (List Nat)
  | 0, _, ws => ws
  | n + 1, rcon, ws => growKey n (if ws.length % 8 = 0 then aesTimes rcon else rcon) (nextKeyWord ws rcon :: ws)

/-- The first n blocks of a list of bytes. -/
def blocks : Nat → List Nat → List (List Nat)
  | 0, _ => []
  | n + 1, l => l.take 16 :: blocks n (l.drop 16)

/-- The fifteen round keys of a 32-byte key. -/
def roundKeys (key : List Nat) : List (List Nat) :=
  let first := (List.range 8).map (fun k => (key.drop (4 * k)).take 4)
  blocks 15 ((growKey 52 1 first.reverse).reverse.flatten)

/-- ShiftRows and its inverse: byte 4c + r of a block is row r of column c. -/
def shiftRows (b : List Nat) : List Nat := (List.range 16).map (fun k => b.getD ((k + 4 * (k % 4)) % 16) 0)
def invShiftRows (b : List Nat) : List Nat := (List.range 16).map (fun k => b.getD ((k + 16 - 4 * (k % 4)) % 16) 0)

/-- A product of each column with a circulant matrix of first row m. -/
def mixWith (m : List Nat) (b : List Nat) : List Nat :=
  (List.range 16).map (fun k =>
    let c := 4 * (k / 4)
    (List.range 4).foldl (fun x j => x ^^^ aesMul (m.getD ((j + 4 - k % 4) % 4) 0) (b.getD (c + j) 0)) 0)

/-- The rounds of the cipher after the first key. -/
def aesRounds : List (List Nat) → List Nat → List Nat
  | [], b => b
  | [k], b => xorBytes (shiftRows (b.map (byteOf sboxWords))) k
  | k :: r, b => aesRounds r (xorBytes (mixWith [2, 3, 1, 1] (shiftRows (b.map (byteOf sboxWords)))) k)

/-- The rounds of the inverse cipher after the last key. -/
def aesInvRounds : List (List Nat) → List Nat → List Nat
  | [], b => b
  | [k], b => xorBytes ((invShiftRows b).map (byteOf invSboxWords)) k
  | k :: r, b => aesInvRounds r (mixWith [14, 11, 13, 9] (xorBytes ((invShiftRows b).map (byteOf invSboxWords)) k))

/-- AES-256 of one block, and its inverse. -/
def aesEncrypt (key block : List Nat) : List Nat :=
  match roundKeys key with
  | [] => block
  | k :: r => aesRounds r (xorBytes block k)
def aesDecrypt (key block : List Nat) : List Nat :=
  match (roundKeys key).reverse with
  | [] => block
  | k :: r => aesInvRounds r (xorBytes block k)

/-! ### XTS (IEEE 1619) -/

/-- n bytes of a number, the lowest first. -/
def bytesOfNat : Nat → Nat → List Nat
  | 0, _ => []
  | n + 1, v => v % 256 :: bytesOfNat n (v / 256)

/-- A number from its bytes, the lowest first. -/
def natOfBytes : List Nat → Nat
  | [] => 0
  | b :: r => b + 256 * natOfBytes r

/-- The tweak of the next block: a product by x in the field of XTS. -/
def nextTweak (t : List Nat) : List Nat :=
  let v := natOfBytes t
  bytesOfNat 16 (if v < 2 ^ 127 then 2 * v else (2 * v - 2 ^ 128) ^^^ 0x87)

/-- The blocks of a data unit, each under its tweak, through the cipher or its inverse. -/
def xtsBlocks (cipher : List Nat → List Nat) (t : List Nat) : List (List Nat) → List Nat
  | [] => []
  | b :: r => xorBytes (cipher (xorBytes b t)) t ++ xtsBlocks cipher (nextTweak t) r

/-- A line through AES-256-XTS under a key pair: bytes 0 to 31 are the data key, bytes 32 to 63 the tweak key. -/
def xtsLine (dec : Bool) (key : BitVec 512) (tweak : Nat) (line : List Nat) : List Nat :=
  let kb := bytesOfNat 64 key.toNat
  let k1 := kb.take 32
  let t := aesEncrypt (kb.drop 32) (bytesOfNat 16 tweak)
  xtsBlocks (if dec then aesDecrypt k1 else aesEncrypt k1) t (blocks 4 line)

/-- What a line that one key wrote reads as under another: the decryption, under the reading key, of its ciphertext. A bypass
slot, `none`, stores the plaintext (21 R391, R392). -/
def xtsUnder (wrote reads : Option (BitVec 512)) (tweak : Nat) (line : List Nat) : List Nat :=
  let stored := match wrote with | none => line | some k => xtsLine false k tweak line
  match reads with | none => stored | some k => xtsLine true k tweak stored

/-! ### Key wrap (RFC 3394) -/

/-- Steps t down to 1 of the unwrapping of blocks `r` of 8 bytes with the check value `a`. -/
def kwSteps (key : List Nat) : Nat → List Nat → List (List Nat) → List Nat × List (List Nat)
  | 0, a, r => (a, r)
  | t + 1, a, r =>
    let i := t % r.length
    let b := aesDecrypt key (xorBytes a (bytesOfNat 8 (t + 1)).reverse ++ r.getD i [])
    kwSteps key t (b.take 8) (r.set i (b.drop 8))

/-- n blocks of 8 bytes. -/
def blocks8 : Nat → List Nat → List (List Nat)
  | 0, _ => []
  | n + 1, l => l.take 8 :: blocks8 n (l.drop 8)

/-- The key that a wrapped key of n blocks of 8 bytes holds, if it unwraps. -/
def kwUnwrap (key : List Nat) (n : Nat) (wrapped : List Nat) : Option (List Nat) :=
  let x := kwSteps key (6 * n) (wrapped.take 8) (blocks8 n (wrapped.drop 8))
  if x.1 = List.replicate 8 0xA6 then some x.2.flatten else none

/-- A key pair of 64 bytes wrapped in 72. -/
def unwrapPair (kek : BitVec 256) (wrapped : List (BitVec 8)) : Option (BitVec 512) :=
  (kwUnwrap (bytesOfNat 32 kek.toNat) 8 (wrapped.map (fun b => b.toNat))).map (fun k => BitVec.ofNat 512 (natOfBytes k))

end Sys2Proof.Machine
end

