-- ==== Sys2Proof/Machine/Access.lean ====
section
/-! DEFINITION. Where an access lands and what it does there: windows and checks (04 R69, R70; 12 R250), translation and
placement (21 R386 to R395), reads and writes at the point of performance (05 R101), and the store queue (04 R87 to R90). -/

namespace Sys2Proof.Machine

/-! ### Windows -/

inductive Window where
  | none | localW | peer | global | host | fabric
  deriving DecidableEq, Repr

/-- Window(addr) (04 R69). -/
def window (a : Word) : Window :=
  let top := field a 56 8
  if top = 0x00 then (if field a 48 8 = 0 then .global else .none)
  else if top = 0x40 then (if field a 22 34 = 0 then .localW else .none)
  else if top = 0x41 then (if field a 48 8 = 0 ∧ field a 22 18 = 0 then .peer else .none)
  else if top = 0x42 then (if field a 48 8 = 0 then .host else .none)
  else if top ≥ 0x80 then .fabric
  else .none

/-- The cluster of a peer address or the package of a fabric address; 0 elsewhere (R69). -/
def winField (a : Word) : Nat :=
  match window a with
  | .peer => field a 40 8
  | .fabric => field a 48 15
  | _ => 0

/-- Bit of a cluster in a set. -/
def inSet (m : ClSet) (c : Nat) : Bool := decide (c < 256) && m.getLsbD c

/-- What the checks of an access need to know of it: address, size, kind (0 read, 1 write, 2 atomic, 3 fetch), source,
alignment, the windows its form is admitted in, and whether it is LDC. -/
structure Acc where
  ea : Word
  size : Nat
  kind : Nat
  src : Nat
  align : Nat
  wins : List Window
  ldc : Bool
  deriving DecidableEq, Repr

/-- i1 of 04 R70. -/
def Acc.i1 (a : Acc) : Word := BitVec.ofNat 64 (a.size % 65536 + 65536 * a.kind)

/-- A class-2 trap of 04 R70. -/
def Acc.trap (a : Acc) (words : Word) (k extra : Nat) (i3 : Word) : Trap :=
  ⟨128 + 8 * a.src + k, a.ea, a.i1 + BitVec.ofNat 64 extra, words, i3⟩

/-! ### Keys, lines and HBM -/

/-- The channel and channel-local offset of a physical address under a scheme, as c x 2^31 + L (21 R393). -/
def place (scheme pa : Nat) : Nat :=
  let f (lo len : Nat) : Nat := pa / 2 ^ lo % 2 ^ len
  let cl : Nat × Nat :=
    if scheme = 0 then (f 8 8, f 16 23 * 256 + f 0 8)
    else if scheme = 1 then (f 10 8, f 18 21 * 1024 + f 0 10)
    else if scheme = 2 then (f 12 8, f 20 19 * 4096 + f 0 12)
    else if scheme = 3 then (64 * f 37 2 + f 8 6, f 14 23 * 256 + f 0 8)
    else if scheme = 4 then (64 * f 37 2 + f 10 6, f 16 21 * 1024 + f 0 10)
    else if scheme = 5 then (32 * f 36 3 + f 8 5, f 13 23 * 256 + f 0 8)
    else if scheme = 6 then (32 * f 36 3 + f 12 5, f 17 19 * 4096 + f 0 12)
    else (f 31 8, f 0 31)
  cl.1 * 2 ^ 31 + cl.2

/-- The HBM lines through which a place was translated (21 R390). -/
def Place.via : Place → List Nat
  | .global _ _ w => w.via
  | _ => []

/-- The HBM line of a place. -/
def Place.hbmLine? : Place → Option Nat
  | .global l _ _ => some (l / 64)
  | _ => none

/-- The die of an HBM location (21 R393). -/
def locDie (loc : Nat) : Nat := loc / 2 ^ 31 / 64

/-- The key value of a slot; none for an empty slot (21 R391). -/
def State.keyOf (s : State) (k : Nat) : Option KeyVal :=
  match getK s.keys k .empty with
  | .empty => none
  | .bypass => some none
  | .pair b => some (some b)

/-- The key a line was last written with. -/
def lineTag (l : List (Nat × KeyVal)) (line : Nat) : Option KeyVal :=
  match l with
  | [] => none
  | (k, v) :: r => if k = line then some v else lineTag r line

/-- A line's bytes under a key: the plaintext under the writing key, else the XTS decryption under the reading key of what is
stored (21 R391, R392; log 1). -/
def State.lineUnder (s : State) (key : KeyVal) (line : Nat) : List Byte :=
  let l := memRead s.hbm (64 * line) 64
  match lineTag s.lineKey line with
  | none => l
  | some k => if k = key then l else (xtsUnder k key line (l.map (fun b => b.toNat))).map (BitVec.ofNat 8)

/-- A byte of HBM read with a key ID. An empty slot's access has been refused at its translation; of one whose slot was emptied
since, the spec states no value (log 10). -/
def State.hbmByte (s : State) (key : Nat) (loc : Nat) : Byte :=
  match s.keyOf key with
  | none => Config.emptyKeyByte loc
  | some k =>
    match lineTag s.lineKey (loc / 64) with
    | none => memGet s.hbm loc
    | some k' => if k' = k then memGet s.hbm loc else (s.lineUnder k (loc / 64)).getD (loc % 64) 0

def State.hbmRead (s : State) (key : Nat) (loc : Nat) : Nat → List Byte
  | 0 => []
  | n + 1 => s.hbmByte key loc :: s.hbmRead key (loc + 1) n

/-- A line that is written under another key first holds what a read under that key returns (21 R391, R392). -/
def State.rekey (s : State) (key : KeyVal) (line : Nat) : State :=
  match lineTag s.lineKey line with
  | none => { s with lineKey := setK s.lineKey line key }
  | some k =>
    if k = key then s
    else { s with hbm := memWrite s.hbm (64 * line) (s.lineUnder key line), lineKey := setK s.lineKey line key }

/-- The bank of an HBM location among all of the package's (21 R394): channel, bank group L[11:10] XOR L[15:14], and bank
L[13:12] XOR L[17:16]. -/
def bankOf (loc : Nat) : Nat :=
  let f (lo : Nat) : Nat := loc / 2 ^ lo % 4
  loc / 2 ^ 31 * 16 + (f 10 ^^^ f 14) * 4 + (f 12 ^^^ f 16)

/-- The row L[30:14], the column burst L[9:6] and the byte L[5:0] of an HBM location; the row's group in its bank (21 R394). -/
def rowOf (loc : Nat) : Nat := loc % 2 ^ 31 / 2 ^ 14
def columnOf (loc : Nat) : Nat := loc / 64 % 16
def byteIn (loc : Nat) : Nat := loc % 64
def rowGroup (loc : Nat) : Nat := rowOf loc / 64

/-- A row's number among all of the package's, and a row group's: its first row's divided by 64. -/
def rowNo (loc : Nat) : Nat := bankOf loc * 131072 + rowOf loc

/-- An ECC error that an access to a line corrects is counted by its die (25 R447; log 18). -/
def State.correct (s : State) (loc : Nat) : State :=
  if s.eccFix.contains (loc / 64) then
    ({ s with eccFix := s.eccFix.erase (loc / 64) } : State).modDie (locDie loc) (fun d => { d with eccCorr := satInc d.eccCorr })
  else s

/-! ### The memory-side caches (21 R390, R391, R396, R397) -/

/-- A row is activated: its bit is set (21 R396). -/
def State.activateRow (s : State) (loc : Nat) : State :=
  if s.rows.contains (rowNo loc) then s else { s with rows := s.rows ++ [rowNo loc] }

/-- The set of a way in which an HBM line has its place: 1,024 of each channel's own (DESIGN CHOICE, log 79). -/
def mscSet (line : Nat) : Nat := line / 2 ^ 25 % 64 * 1024 + line % 1024

/-- The cache holds a line under a key. -/
def State.mscHas (s : State) (line key : Nat) : Bool := s.msc.any (fun x => x.line == line && x.key == key)

/-- A line leaves its cache: written back if it is dirty, and every translation derived from it is dropped (21 R390, R397). -/
def State.mscDrop (s : State) (x : MscLine) : State :=
  let s1 := if x.dirty then s.activateRow (64 * x.line) else s
  { s1 with msc := s1.msc.filter (fun y => y != x), tlb := if x.mark then s1.tlb.filter (fun e => !e.lines.contains x.line) else s1.tlb }

/-- The ways into which an access allocates on a miss: enabled ones, by its class (21 R397, R398). -/
def State.mscWays (s : State) (die ca : Nat) (write : Bool) : List Nat :=
  (List.range 16).filter (fun w => (s.die die).wayen.getLsbD w && (write || ca == 0 || (ca == 1 && decide (14 ≤ w))))

/-- A way with room for a line: an empty place of its set, else the one whose line came first (log 79). -/
def State.mscRoom (s : State) (line : Nat) (ways : List Nat) : Option (Nat × State) :=
  let same := s.msc.filter (fun x => locDie (64 * x.line) == locDie (64 * line) && mscSet x.line == mscSet line)
  match ways.find? (fun w => !same.any (fun x => x.way == w)) with
  | some w => some (w, s)
  | none =>
    match same.find? (fun x => ways.contains x.way) with
    | some x => some (x.way, s.mscDrop x)
    | none => none

/-- An access to a location with a key ID and a cache class, of a table walk if `mark`: it finds its line in the memory-side cache of the
home die, or activates the row and allocates the line as its class says. A line that another key tags leaves first (21 R391, R396, R397). -/
def State.access (s : State) (loc key ca : Nat) (write mark : Bool) : State :=
  let s1 := s.correct loc
  let line := loc / 64
  if s1.mscHas line key then
    { s1 with msc := s1.msc.map (fun x => if x.line = line ∧ x.key = key then { x with dirty := x.dirty || write, mark := x.mark || mark } else x) }
  else
    let s2 : State := State.activateRow (match s1.msc.find? (fun x => x.line == line) with | some x => s1.mscDrop x | none => s1) loc
    match s2.mscRoom line (s2.mscWays (locDie loc) ca write) with
    | some (w, s3) => { s3 with msc := s3.msc ++ [⟨line, w, key, write, mark⟩] }
    | none => s2

/-- A read. -/
def State.touch (s : State) (loc key ca : Nat) : State := s.access loc key ca false false

/-- Lines leave the caches, one after the other. -/
def State.mscDropAll (s : State) (l : List MscLine) : State := l.foldl State.mscDrop s

/-- A flush of a die's cache: every dirty line is written back and stays (21 R398). -/
def State.mscFlush (s : State) (die : Nat) : State :=
  let mine (x : MscLine) : Bool := x.dirty && locDie (64 * x.line) == die
  let s1 := (s.msc.filter mine).foldl (fun s x => s.activateRow (64 * x.line)) s
  { s1 with msc := s1.msc.map (fun x => if mine x then { x with dirty := false } else x) }

/-! ### Translation buffers and table walks (21 R390, R399; log 70) -/

/-- The page size of a translation, from the levels that its walk read (21 R388). -/
def pageSize (levels : Nat) : Nat := if levels = 2 then 2 ^ 30 else if levels = 3 then 2 ^ 21 else 2 ^ 16

/-- The die whose walker serves an agent: a cluster, or from 256 up what belongs to no cluster on die `cl` - 256. -/
def walkerDie (cl : Nat) : Nat := if cl < 256 then dieOf cl else cl - 256

/-- The entry of a translation in a buffer. -/
def State.tlbAt (s : State) (home rgn : Nat) (w : Walked) : Option TlbEntry :=
  s.tlb.find? (fun e => e.home == home && e.rgn == rgn && e.page == w.page && e.lines == w.via)

/-- A buffer takes an entry; the oldest makes room. -/
def State.tlbPut (s : State) (cap : Nat) (e : TlbEntry) : State :=
  let mine := s.tlb.filter (fun x => x.home == e.home)
  let old := if mine.length < cap then s.tlb else (match mine with | x :: _ => s.tlb.erase x | [] => s.tlb)
  { s with tlb := old ++ [e] }

/-- Die pulses of a global read by a die's walker: the figures of 15 R334 for a line that its cache holds or not (21 R390). -/
def State.readPulses (s : State) (die line key : Nat) : Nat :=
  (if locDie (64 * line) = die then Config.ldGlobalOwn else Config.ldGlobalOther) + (if s.mscHas line key then 0 else Config.mscMore)

/-- A walk that reads table lines starts at a die: it is counted with those ahead of it, and begins when fewer than 32 are in progress.
Answers the pulse at which it ends (21 R390, R399). -/
def State.startWalk (s : State) (die key : Nat) (lines : List Nat) : Nat × State :=
  let live := (s.die die).walking.filter (fun e => decide (s.now < e))
  let free := live.filter (fun e => decide ((live.filter (fun x => decide (e < x))).length < 32))
  let from_ := if live.length < 32 then s.now else free.foldl Nat.min (live.foldl Nat.max 0)
  let last := from_ + lines.foldl (fun n l => n + s.readPulses die l key) 0
  (last, lines.foldl (fun s l => s.access (64 * l) key 0 false true)
    (s.modDie die (fun k => { k with walks := Nat.min (k.walks + 1) 0xFFFF, waitw := Nat.max k.waitw (Nat.min live.length 31), walking := live ++ [last] })))

/-- The key of the region's table reads (21 R386). -/
def State.tableKey (s : State) (rgn : Nat) : Nat := match s.region? rgn with | some r => r.dkey | none => 0

/-- An access of an agent is translated: by an entry of its cluster's buffer, else of its die's, else by a walk, which leaves an entry in
both (21 R390, R396, R399). -/
def State.walked (s : State) (cl rgn : Nat) (w : Walked) : State :=
  let d := walkerDie cl
  if w.via.isEmpty || (s.tlbAt cl rgn w).isSome then s
  else
    let x : Nat × State := match s.tlbAt (256 + d) rgn w with
      | some e => (e.ready, s)
      | none =>
        let y := s.startWalk d (s.tableKey rgn) w.via
        (y.1, y.2.tlbPut 8192 ⟨256 + d, rgn, w.page, w.via, y.1⟩)
    if cl < 256 then x.2.tlbPut 512 ⟨cl, rgn, w.page, w.via, x.1⟩ else x.2

/-- Die pulses until the walk that an access's translation comes from ends: it joins one in progress (21 R390). -/
def State.walkLeft (s : State) (cl rgn : Nat) (p : Place) : Nat :=
  match p with
  | .global _ _ w => (match s.tlbAt cl rgn w with | some e => e.ready - s.now | none => 0)
  | _ => 0

/-- Writes one byte of HBM with a key ID. An access whose slot was emptied since its translation writes nothing (log 10). -/
def State.hbmPut (s : State) (key : Nat) (loc : Nat) (b : Byte) : State :=
  match s.keyOf key with
  | none => s
  | some k =>
    let s1 := (s.rekey k (loc / 64)).access loc key 0 true false
    { s1 with hbm := memSet s1.hbm loc b, tlb := s1.tlb.filter (fun e => !e.lines.contains (loc / 64)) }

def State.hbmWrite (s : State) (key : Nat) (loc : Nat) : List Byte → State
  | [] => s
  | b :: r => (s.hbmPut key loc b).hbmWrite key (loc + 1) r

/-! ### Translation (21 R386 to R389) -/

/-- Why a translation fails. -/
inductive PageFault where
  | notPresent | noWrite | noRead (c0 : Bool) | noExec | noKey
  deriving DecidableEq, Repr

/-- The kind k of 2.s.k (R389). -/
def PageFault.kind : PageFault → Nat
  | .notPresent => 0
  | .noWrite => 1
  | .noRead _ => 2
  | .noExec => 2
  | .noKey => 6

/-- A malformed entry (R388). A leaf's FRAME[54:47] counts as reserved (log 19). -/
def malformed (e : Nat) (level : Nat) : Bool :=
  let f (lo len : Nat) : Nat := e / 2 ^ lo % 2 ^ len
  f 55 9 ≠ 0 || f 21 3 ≠ 0 || f 6 2 = 3 ||
  (if f 1 1 = 1 then
     level = 0 || f 47 8 ≠ 0 || (level = 1 && f 24 14 ≠ 0) || (level = 2 && f 24 5 ≠ 0)
   else level = 3 || (level < 2 && f 24 4 ≠ 0))

/-- The index of a virtual address at a level (R386). -/
def vaIndex (va level : Nat) : Nat :=
  if level = 0 then va / 2 ^ 39 % 512 else if level = 1 then va / 2 ^ 30 % 512
  else if level = 2 then va / 2 ^ 21 % 512 else va / 2 ^ 16 % 32

/-- The lines that a walk from a level reads, whether it finds a leaf or not. -/
def State.walkLines (s : State) (key : Nat) (va table level : Nat) : Nat → List Nat
  | 0 => []
  | fuel + 1 =>
    let loc := place 2 (table + 8 * vaIndex va level)
    let e := fromLE (s.hbmRead key loc 8)
    loc / 64 :: (if e % 2 = 0 || malformed e level || e / 2 % 2 = 1 then [] else s.walkLines key va (e / 2 ^ 24 % 2 ^ 31 * 256) (level + 1) fuel)

/-- Walks the tables from a level; `fuel` is the number of levels left, `via` the lines read. Answers the leaf, its level and the
lines that the walk has read. The bytes of a table line in error are used as they stand (log 80). -/
def State.walk (s : State) (key : Nat) (va table level : Nat) (via : List Nat) : Nat → Option (Nat × Nat × List Nat)
  | 0 => none
  | fuel + 1 =>
    let loc := place 2 (table + 8 * vaIndex va level)
    let e := fromLE (s.hbmRead key loc 8)
    if e % 2 = 0 || malformed e level then none
    else if e / 2 % 2 = 1 then some (e, level, via ++ [loc / 64])
    else s.walk key va (e / 2 ^ 24 % 2 ^ 31 * 256) (level + 1) (via ++ [loc / 64]) fuel

/-- Translate and the checks of R389: the location, the key ID and the way of one byte, or the fault. -/
def State.translate (s : State) (r : Region) (va kind : Nat) (ldc : Bool) : Except PageFault (Nat × Nat × Walked) :=
  match s.keyOf r.dkey with
  | none => .error .noKey
  | some _ =>
    match s.walk r.dkey va r.troot 0 [] 4 with
    | none => .error .notPresent
    | some (e, level, via) =>
      let size := if level = 1 then 2 ^ 30 else if level = 2 then 2 ^ 21 else 2 ^ 16
      let pa := e / 2 ^ 24 % 2 ^ 23 * 2 ^ 16 + va % size
      let w := e / 8 % 2 = 1
      let rd := e / 4 % 2 = 1
      let x := e / 16 % 2 = 1
      let c0 : Bool := ldc && e / 32 % 2 = 0
      let kid := if e / 2 ^ 11 % 1024 = 0 then r.dkey else e / 2 ^ 11 % 1024
      if (kind = 1 ∨ kind = 2) ∧ ¬w then .error .noWrite
      else if (kind = 0 ∨ kind = 2) ∧ (¬rd ∨ c0) then .error (.noRead c0)
      else if kind = 3 ∧ ¬x then .error .noExec
      else match s.keyOf kid with
        | none => .error .noKey
        | some _ => .ok (place (e / 2 ^ 8 % 8) pa, kid, { pa := pa, via := via, page := va % 2 ^ 48 / size, ca := e / 2 ^ 6 % 4 })

/-- The way to the leaf of a virtual address, if its walk finds one. -/
def State.wayTo (s : State) (r : Region) (va : Nat) : Option Walked :=
  match s.walk r.dkey va r.troot 0 [] 4 with
  | some (e, _, via) => some { pa := 0, via := via, page := va % 2 ^ 48 / pageSize via.length, ca := e / 2 ^ 6 % 4 }
  | none => none

/-- The translation of an access that fails its checks: its walk is made like any other, and one that finds no leaf leaves no entry
(21 R386, R389, R390, R399). -/
def State.walkFor (s : State) (cl : Nat) (r : Region) (va : Nat) : State :=
  if (s.keyOf r.dkey).isNone then s
  else match s.wayTo r va with
    | some w => s.walked cl r.num w
    | none => (s.startWalk (walkerDie cl) r.dkey (s.walkLines r.dkey va r.troot 0 4)).2

/-- A request for a translation at a die's walker starts a walk: no entry of the die holds it. -/
def State.walkMisses (s : State) (die : Nat) (r : Region) (va : Nat) : Bool :=
  (s.keyOf r.dkey).isSome && (match s.wayTo r va with | some w => (s.tlbAt (256 + die) r.num w).isNone | none => true)

/-- A page fault of an access to the global window: the walk of its translation has been made. -/
def State.faultWalk (s : State) (cl : Nat) (r : Region) (cause : Nat) (ea : Word) : State :=
  if cause / 64 = 2 ∧ window ea = .global ∧ (cause % 8 ≤ 2 ∨ cause % 8 = 6) then s.walkFor cl r (field ea 0 48) else s

/-- The die on which the data at an address lies (25 R447). -/
def State.eaDie (s : State) (r : Region) (cl : Nat) (ea : Word) : Nat :=
  match window ea with
  | .global => (match s.translate r (field ea 0 48) 0 false with | .ok x => locDie x.1 | .error _ => dieOf cl)
  | .peer => dieOf (winField ea)
  | _ => dieOf cl

/-- A read error of an engine is counted: an uncorrectable error where the data lies, a CRC mismatch where it is delivered
(04 R99, R100; 25 R447). -/
def State.countRead (s : State) (r : Region) (cl : Nat) (crc : Bool) (ea : Word) : State :=
  if crc then s.countCrc (dieOf cl) else s.countEcc (s.eaDie r cl ea)

/-! ### The checks of an access (04 R70; 12 R249, R250) -/

/-- The flag that admits a window (02 R35). -/
def flagOk (f : Frame) (w : Window) : Bool :=
  match w with
  | .fabric => bitOf f.hdr.kflags 1
  | .host => bitOf f.hdr.kflags 2
  | _ => true

/-- A trap of the allotment class (02 R35). -/
def allotTrap (cause n m : Nat) (words : Word) (i3 : Nat) : Trap :=
  ⟨cause, BitVec.ofNat 64 n, BitVec.ofNat 64 m, words, BitVec.ofNat 64 i3⟩

/-- CheckAccess for an access made by a thread of a frame on cluster cl: the place of its first byte, or the trap. -/
def State.checkAccess (s : State) (cl : Nat) (f : Frame) (r : Region) (words : Word) (a : Acc) : Except Trap Place :=
  let w := window a.ea
  let last := a.ea + BitVec.ofNat 64 (a.size - 1)
  if w = .none then .error (a.trap words 3 0 0)
  else if !a.wins.contains w then .error (a.trap words 3 0x80000 0)
  else if !flagOk f w then .error (allotTrap 69 (field words 24 6) f.hdr.kflags.toNat words 0)
  else if w = .peer ∧ !inSet f.set (winField a.ea) then .error (allotTrap 70 (winField a.ea) 0 words 0)
  else if window last ≠ w ∨ winField last ≠ winField a.ea then .error (a.trap words 4 0 last)
  else if a.ea.toNat % a.align ≠ 0 then .error (a.trap words 5 0 0)
  else if (w = .localW ∨ w = .peer) ∧ field last 0 22 ≥ f.hdr.kscr * 4096 then
    .error (allotTrap (64 + 8 * a.src + 5) (field a.ea 0 22) (f.hdr.kscr * 4096) words a.size)
  else
    match w with
    | .localW => .ok (.scratch cl (field a.ea 0 22) false)
    | .peer => .ok (.scratch (winField a.ea) (field a.ea 0 22) true)
    | .host =>
      if field last 0 48 ≥ r.apsize then .error (a.trap words 7 0 (BitVec.ofNat 64 r.apsize))
      else .ok (.host (r.apbase + field a.ea 0 48))
    | .global =>
      match s.translate r (field a.ea 0 48) a.kind a.ldc with
      | .error pf => .error (a.trap words pf.kind (match pf with | .noRead true => 0x40000 | _ => 0) 0)
      | .ok (loc, k, pa) => .ok (.global loc k pa)
    | .fabric => .ok (.fabric a.ea)
    | .none => .error (a.trap words 3 0 0)

/-! ### Reads and writes at the point of performance -/

/-- The place n bytes further on within one 64-byte line. -/
def Place.plus (p : Place) (n : Nat) : Place :=
  match p with
  | .scratch c o pr => .scratch c (o + n) pr
  | .global l k w => .global (l + n) k { w with pa := w.pa + n }
  | .host a => .host (a + n)
  | .fabric a => .fabric (a + BitVec.ofNat 64 n)

/-- The aligned 64-byte line of a place, and the place's offset in it. -/
def Place.line (p : Place) : Place × Nat :=
  match p with
  | .scratch c o pr => (.scratch c (o / 64 * 64) pr, o % 64)
  | .global l k w => (.global (l / 64 * 64) k { w with pa := w.pa / 64 * 64 }, l % 64)
  | .host a => (.host (a / 64 * 64), a % 64)
  | .fabric a => (.fabric (a - BitVec.ofNat 64 (a.toNat % 64)), a.toNat % 64)

/-- One byte at a place, for an agent of a kernel. -/
def State.readByte (s : State) (rgn knum : Nat) (p : Place) : Byte :=
  match p with
  | .scratch c o _ =>
    match s.frame? c rgn knum with
    | some f => memGet f.scr o
    | none => 0
  | .global l k _ => s.hbmByte k l
  | .host a => memGet s.hostMem a
  | .fabric _ => 0

def State.readAt (s : State) (rgn knum : Nat) (p : Place) : Nat → List Byte
  | 0 => []
  | n + 1 => s.readByte rgn knum p :: s.readAt rgn knum (p.plus 1) n

/-- Writes one byte at a place. -/
def State.writeByte (s : State) (rgn knum : Nat) (p : Place) (b : Byte) : State :=
  match p with
  | .scratch c o _ => s.modFrame c rgn knum (fun f => { f with scr := memSet f.scr o b })
  | .global l k _ => s.hbmPut k l b
  | .host a => { s with hostMem := memSet s.hostMem a b }
  | .fabric _ => s

def State.writeAt (s : State) (rgn knum : Nat) (p : Place) : List Byte → State
  | [] => s
  | b :: r => (s.writeByte rgn knum p b).writeAt rgn knum (p.plus 1) r

/-- A place whose cluster is suspended for a region is retried, not served: a peer access from the suspension's acceptance on
(02 R45; 19 R374), one to the own window only while the frame's resources are free. -/
def State.placeUp (s : State) (rgn knum : Nat) (p : Place) : Bool :=
  match p with
  | .scratch c _ peer =>
    match s.frame? c rgn knum with
    | some f => !(if peer then f.stopped else f.suspended)
    | none => true
  | _ => true

/-- The error that a reader of a place meets: some true for a CRC mismatch, some false for uncorrectable ECC (04 R100). -/
def State.badAt (s : State) (rgn knum : Nat) (p : Place) : Option Bool :=
  let hit (b : BadLine) : Bool :=
    match p with
    | .scratch c o _ => !b.hbm && b.cl == c && b.rgn == rgn && b.knum == knum && b.line == o / 64
    | .global l _ _ => b.hbm && b.line == l / 64
    | _ => false
  match s.bad.find? hit with
  | some b => some b.crc
  | none => none

/-- The die whose error counters count an error at a place (25 R447). -/
def placeDie (cl : Nat) : Place → Nat
  | .global l _ _ => locDie l
  | .scratch c _ _ => dieOf c
  | _ => dieOf cl

/-- The error status with which a read of a host line completes (22 R403). -/
def State.hostStatus (s : State) (p : Place) : BitVec 16 :=
  match p with
  | .host a => (match s.hostBad.find? (fun x => x.1 == a / 64) with | some x => x.2 | none => 0)
  | _ => 0

/-! ### Work of one thread that is in flight -/

/-- Scope at which a place lies, for the sets of 05 R107: 1 C, 2 D, 3 P, 4 F. -/
def placeScope (cl : Nat) : Place → Nat
  | .scratch _ _ false => 1
  | .scratch c _ true => if dieOf c = dieOf cl then 2 else 3
  | .global .. => 2
  | .host _ => 3
  | .fabric _ => 4

/-- The scope at which an act of a thread is waited for, none for one that no release or fence waits for. -/
def Act.scope? (a : Act) : Option Nat :=
  match a.job with
  | .load _ pl _ _ _ _ _ _ => some (placeScope a.cl pl)
  | .atomic _ pl _ _ _ _ _ _ _ => some (placeScope a.cl pl)
  | .entry e => if e.cls = 0 then some (placeScope a.cl e.line) else none
  | .flight e => if e.cls = 0 then some (placeScope a.cl e.line) else none
  | .remote r => if r.opc ≤ 4 then some 4 else none
  | _ => none

/-- The thread's earlier accesses that a release or fence at a scope waits for (05 R107). -/
def State.scopeSet (s : State) (cl slot scope : Nat) : List Nat :=
  s.acts.filterMap (fun a =>
    if a.cl = cl ∧ a.slot = slot then
      match a.scope? with
      | some k => if k ≤ scope then some a.id else none
      | none => none
    else none)

/-- The physical line address of an HBM place, the address before placement (04 R100; 21 R393). -/
def Place.lineAddr (p : Place) : Nat :=
  match p with
  | .global _ _ w => w.pa / 64 * 64
  | _ => 0

/-- The same line, whatever key reaches it (21 R395). The local and the peer window of one scratchpad are two lines here:
05 R104 orders nothing between them. -/
def Place.sameLine (a b : Place) : Bool :=
  match a, b with
  | .global x _ _, .global y _ _ => x / 64 == y / 64
  | .scratch c o p, .scratch c' o' p' => c == c' && o / 64 == o' / 64 && p == p'
  | .host x, .host y => x / 64 == y / 64
  | _, _ => false

/-- The same line by whatever window, address or key: accesses of one location meet on it (05 R101, R103; 13 R280). -/
def Place.meets (a b : Place) : Bool :=
  match a, b with
  | .scratch c o _, .scratch c' o' _ => c == c' && o / 64 == o' / 64
  | _, _ => a.sameLine b

/-- The same line under the same key. -/
def Place.sameKeyLine (a b : Place) : Bool :=
  match a, b with
  | .global _ k _, .global _ k' _ => a.sameLine b && k == k'
  | _, _ => a.sameLine b

/-- Two accesses, of so many bytes from a place of a line on, have a byte in common (05 R103, R106). -/
def Place.overlaps (a : Place) (n : Nat) (b : Place) (m : Nat) : Bool :=
  a.sameLine b && decide (a.line.2 < b.line.2 + m) && decide (b.line.2 < a.line.2 + n)

/-- Pending loads and local atomics of the thread that read a byte of an access: the later access performs after them (05 R103). -/
def State.holdingLoads (s : State) (cl slot : Nat) (p : Place) (n : Nat) : List Nat :=
  s.acts.filterMap (fun a =>
    if a.cl = cl ∧ a.slot = slot then
      match a.job with
      | .load _ pl sz _ kind _ _ _ => if kind ≠ 2 && pl.overlaps sz p n then some a.id else none
      | .atomic _ pl sz _ _ _ _ _ _ => if pl.overlaps sz p n then some a.id else none
      | _ => none
    else none)

/-- What a thread's access of n bytes waits for: its acquires, and its earlier accesses of those bytes that have not performed
(05 R103, R109). -/
def State.accessWaits (s : State) (t : Thread) (p : Place) (n : Nat) : List Nat :=
  (match s.thread? t.cl t.slot with | some u => s.openAcq u | none => []) ++ s.holdingLoads t.cl t.slot p n

/-- The first byte that a write of a thread names in its line, and how many. -/
def Entry.span (e : Entry) : Place × Nat :=
  match e.kind with
  | .data bs => (e.line.plus (match bs with | b :: _ => b.1 | [] => 0), bs.length)
  | .atomic off sz .. => (e.line.plus off, sz)

/-- An issued access fails its checks: a page fault comes from the walk of its translation (04 R70; 21 R389, R390). -/
def State.accessTrap (s : State) (c : Ctx) (tr : Trap) : State :=
  (s.faultWalk c.t.cl c.r tr.cause tr.i0).trapIssued c.t.cl c.t.slot tr

/-- The translation of a cluster's access to a place (21 R390). -/
def State.walkedAt (s : State) (cl rgn : Nat) (p : Place) : State :=
  match p with
  | .global _ _ w => s.walked cl rgn w
  | _ => s

/-- A cluster's read at a place: its translation, and the activation of its row (21 R390, R396). -/
def State.touchAt (s : State) (cl rgn : Nat) (p : Place) : State :=
  match p with
  | .global l k w => (s.walked cl rgn w).touch l k w.ca
  | _ => s

/-- The read of an access whose translation has been made. -/
def State.touchData (s : State) (p : Place) : State :=
  match p with
  | .global l k w => s.touch l k w.ca
  | _ => s

/-! ### The store queue (04 R87 to R90) -/

/-- The entries of a cluster in the order in which they entered, the writes that stalled engines hold among them. -/
def State.sqEntries (s : State) (cl : Nat) : List (Act × Entry) :=
  s.acts.filterMap (fun a => if a.cl = cl then (match a.job with | .entry e => some (a, e) | _ => none) else none)

/-- Entries that a class holds. -/
def State.sqCount (s : State) (cl cls : Nat) : Nat :=
  ((s.sqEntries cl).filter (fun x => x.2.cls == cls && x.2.queued)).length

/-- Shared entries in use: eight entries of each class are its own (R88). -/
def State.sqShared (s : State) (cl : Nat) : Nat :=
  (s.sqCount cl 0 - 8) + (s.sqCount cl 1 - 8) + (s.sqCount cl 2 - 8)

/-- An entry is available for a class (R88). -/
def State.sqFree (s : State) (cl cls : Nat) : Bool := s.sqCount cl cls < 8 || s.sqShared cl < 40

/-- The byte mask of bytes at offsets of a line. -/
def maskOf (bytes : List (Nat × Byte)) : BitVec 64 :=
  bytes.foldl (fun m b => setBit m b.1 true) 0

/-- Bytes with their offsets in the line. -/
def offBytes (off : Nat) : List Byte → List (Nat × Byte)
  | [] => []
  | b :: r => (off, b) :: offBytes (off + 1) r

/-- The charge of an entry: 16 B for each quarter line with an enabled byte (R85). -/
def Entry.charge (e : Entry) : Nat :=
  let q (k : Nat) : Nat := if field e.mask (16 * k) 16 = 0 then 0 else 16
  q 0 + q 1 + q 2 + q 3

/-- The youngest thread-class entry of a thread, if it is a plain write to this line under the same key that still takes stores
(R87; log 78), and none of the work that the store waits for waits for it in turn (05 R108, R109; log 64). -/
def State.mergeTarget (s : State) (cl slot : Nat) (after : List Nat) (e : Entry) : Option Nat :=
  match ((s.sqEntries cl).filter (fun x => x.1.slot == slot && x.2.cls == 0)).getLast? with
  | none => none
  | some (a, y) =>
    match y.kind with
    | .data _ =>
      if y.line.sameKeyLine e.line && y.queued && !y.sealed &&
          !s.acts.any (fun b => after.contains b.id && b.after.contains a.id) then some a.id else none
    | .atomic .. => none

/-- No later store of the thread merges with its entries (R87). -/
def State.seal (s : State) (cl slot : Nat) : State :=
  { s with acts := s.acts.map (fun a =>
      if a.cl = cl ∧ a.slot = slot then
        match a.job with
        | .entry e => { a with job := .entry { e with sealed := true } }
        | _ => a
      else a) }

/-- Merged bytes: the later store's bytes take the place of the earlier ones. -/
def mergeBytes (old new : List (Nat × Byte)) : List (Nat × Byte) :=
  old.filter (fun o => !new.any (fun n => n.1 == o.1)) ++ new

/-- A store merges into an entry; the entry keeps what earlier loads of the thread are still to read of it (R87; 05 R103). -/
def Entry.merge (y : Entry) (old : List (Nat × Byte)) (mask : BitVec 64) (new : List (Nat × Byte)) (ord : Nat) : Entry :=
  { y with mask := y.mask ||| mask, kind := .data (mergeBytes old new),
           older := y.older ++ new.map (fun n => (ord, n.1, (old.find? (fun o => o.1 == n.1)).map (fun o => o.2))) }

/-- Adds an entry to the queue of its cluster. -/
def State.pushEntry (s : State) (cl slot : Nat) (after : List Nat) (e : Entry) : State :=
  s.addAct 1 cl slot after (.entry e)

/-- A thread-class write takes its entry. No later store merges with an entry before a release store, but one may merge with
the release store's own: no release store lies between the two (R87). An atomic sets its destination pending, and one with a scope is an acquire
(12 R258). -/
def State.takeEntry (s : State) (cl slot : Nat) (after : List Nat) (e : Entry) (d : Option (BitVec 5)) : State :=
  let s0 := if e.release then s.seal cl slot else s
  let s1 := match d with
    | none => s0
    | some r => s0.modThread cl slot (fun t =>
        let u := t.pend (.g r)
        if e.release then { u with acq := u.acq ++ [s.seq] } else u)
  s1.pushEntry cl slot after { e with sealed := false }

/-- A thread-class write takes its entry, merges, or blocks (R87, R88, R90). `d` is an atomic's destination. -/
def State.storeEnter (s0 : State) (cl slot : Nat) (after : List Nat) (e : Entry) (d : Option (BitVec 5)) (swlim : Nat) :
    State :=
  let s := s0.walkedAt cl e.rgn e.line
  let merged : Option Nat := if e.release then none else match e.kind with
    | .data _ => s.mergeTarget cl slot after e
    | .atomic .. => none
  match merged, e.kind with
  | some id, .data bs =>
    { s with acts := s.acts.map (fun a =>
        if a.id = id then
          match a.job with
          | .entry y =>
            match y.kind with
            | .data old =>
              { a with after := a.after ++ after, job := .entry (y.merge old e.mask bs s.seq) }
            | .atomic .. => a
          | _ => a
        else a) }
  | _, _ =>
    if s.sqFree cl 0 then
      s.takeEntry cl slot after e d
    else
      s.bump.startWait cl slot (.store e d (limitAt (s.pulse cl) swlim) s.seq)

/-- An engine- or system-class write enters the queue, or waits for an entry with its engine stalled (R92). -/
def State.engineEnter (s : State) (cl slot : Nat) (e : Entry) : State :=
  s.pushEntry cl slot [] { e with queued := s.sqFree cl e.cls }

/-- The order of the requests that wait for an entry: stalled engine writes by number, blocked threads by order. What a block being
saved holds as blocked is granted nothing (19 R374, R376). -/
def State.sqWaiters (s : State) (cl : Nat) : List (Nat × Nat × Bool) :=
  (s.sqEntries cl).filterMap (fun x => if x.2.queued then none else some (x.1.id, x.2.cls, false)) ++
  s.threads.filterMap (fun t =>
    if t.cl = cl ∧ s.savingOn cl t.rgn = false then (match t.wait with | .store _ _ _ o => some (o, 0, true) | _ => none) else none)

/-- The oldest of a list of requests. -/
def oldestReq : List (Nat × Nat × Bool) → Option (Nat × Nat × Bool)
  | [] => none
  | x :: r =>
    match oldestReq r with
    | none => some x
    | some y => if x.1 < y.1 then some x else some y

/-- A request is granted its entry: a stalled engine write enters the queue behind its entries, a blocked thread's access enters and the thread is
ready (R88, R90). -/
def State.grant (s : State) (cl : Nat) (x : Nat × Nat × Bool) : State :=
  if x.2.2 then
    match s.threads.find? (fun t => t.cl == cl && (match t.wait with | .store _ _ _ o => o == x.1 | _ => false)) with
    | none => s
    | some t =>
      match t.wait with
      | .store e d _ _ =>
        let after := (if e.release then s.scopeSet cl t.slot (field e.words 9 2) else []) ++ s.accessWaits t e.span.1 e.span.2
        (s.endWait cl t.slot).takeEntry cl t.slot after e d
      | _ => s
  else
    match s.act? x.1 with
    | some a =>
      match a.job with
      | .entry e => { s.dropAct x.1 with acts := (s.dropAct x.1).acts ++ [{ a with job := .entry { e with queued := true } }] }
      | _ => s
    | none => s

/-- After a departure of a class its oldest waiting request is granted, else the oldest of any class (R88). -/
def State.sqGrant (s : State) (cl cls : Nat) : State :=
  let ws := s.sqWaiters cl
  match oldestReq (ws.filter (fun x => x.2.1 == cls && s.sqFree cl x.2.1)) with
  | some x => s.grant cl x
  | none =>
    match oldestReq (ws.filter (fun x => s.sqFree cl x.2.1)) with
    | some x => s.grant cl x
    | none => s

/-- Entries that became free without a departure go to the waiting requests, the oldest first (R88, R90). -/
def State.sqSettle (s : State) (cl : Nat) : Nat → State
  | 0 => s
  | n + 1 =>
    match oldestReq ((s.sqWaiters cl).filter (fun x => s.sqFree cl x.2.1)) with
    | some x => (s.grant cl x).sqSettle cl n
    | none => s

/-- The same on every cluster of a list. -/
def State.sqSettleAll (s : State) (cls : List Nat) : State := cls.foldl (fun s cl => s.sqSettle cl 64) s

/-- The port whose engine an engine-class write belongs to, by its words (04 R100). -/
def Entry.port? (e : Entry) : Option Port :=
  if e.cls ≠ 1 then none
  else if field e.words 24 6 = 0x28 then some .vector
  else if field e.words 24 6 = 0x30 then some .matrix
  else if field e.words 24 6 = 0x32 then some .batcher
  else some .copy

/-- A piece of a copy that holds its engine: a write to the own window that has not performed, one that a suspended cluster makes
it try again, or a piece that has not been sent (14 R319; 02 R45). -/
def State.holdsCopy (s : State) (a : Act) : Bool :=
  match a.job with
  | .flight e =>
    e.port? == some .copy && ((match e.line with | .scratch _ _ false => true | _ => false) || !s.placeUp e.rgn e.knum e.line)
  | .remote r => r.opc == 6 && !r.sent
  | _ => false

/-- An engine stalls at a write that has found no entry: it starts no command until the write is queued (R92). The copy engine
is also held by its last local write, its last piece and its retries (14 R319). -/
def State.stalled (s : State) (cl : Nat) (p : Port) : Bool :=
  (s.sqEntries cl).any (fun x => !x.2.queued && x.2.port? == some p) ||
  (p == .copy && s.acts.any (fun a => a.cl == cl && s.holdsCopy a))

/-! ### Table lines and the accesses that were translated through them (21 R390) -/

/-- The write of an act, queued or departed. -/
def Act.write? (a : Act) : Option Entry :=
  match a.job with
  | .entry e | .flight e => some e
  | _ => none

/-- The HBM lines through which an act's access was translated, if it has not performed. -/
def Act.via (a : Act) : List Nat :=
  match a.job with
  | .load _ pl _ _ _ _ _ _ | .atomic _ pl _ _ _ _ _ _ _ | .piece _ _ _ pl _ => pl.via
  | .reading _ _ via => via
  | .entry e | .flight e => e.line.via
  | _ => []

/-- The HBM line that an act writes. -/
def Act.writesLine (a : Act) : Option Nat := match a.write? with | some e => e.line.hbmLine? | none => none

/-- An act stands behind another: it waits for it, queues behind it, or writes a byte of its after it. -/
def Act.behind (b c : Act) : Bool :=
  b.after.contains c.id ||
  (b.cl == c.cl && match b.job, c.job with
    | .entry _, .entry _ => true
    | .entry e, .flight f | .flight e, .flight f | .flight e, .entry f => e.line.meets f.line && e.mask &&& f.mask != 0
    | _, _ => false)

/-- An act and the younger work that stands behind it. -/
def State.allBehind (s : State) (a : Act) : List Act :=
  (s.acts.filter (fun b => decide (a.id < b.id))).foldl (fun l b => if l.any b.behind then l ++ [b] else l) [a]

/-- An access that was translated through an HBM line has still to perform, in flight, blocked on the store queue, or checked and
held at the endpoint. -/
def State.walkHolds (s : State) (line : Nat) : Bool :=
  s.acts.any (fun b => b.via.contains line) ||
  s.threads.any (fun t => match t.wait with | .store e _ _ _ => e.line.via.contains line | _ => false) ||
  s.inbuf.any (fun x => x.2.1.via.contains line)

/-- A write to a line that a table walk read performs after every access translated through it, but for those that wait for the
write itself (21 R390; log 69). -/
def State.heldByWalk (s : State) (a : Act) (e : Entry) : Bool :=
  match e.line.hbmLine? with
  | none => false
  | some l =>
    if !({ s with acts := s.acts.filter (fun b => b.id != a.id) } : State).walkHolds l then false
    else
      let mine := s.allBehind a
      s.acts.any (fun b => b.via.contains l && !mine.any (fun c => c.id == b.id) &&
        !(decide (a.id < b.id) && (match b.writesLine with | some k => e.line.via.contains k | none => false))) ||
      s.threads.any (fun t => match t.wait with
        | .store y _ _ _ => y.line.via.contains l && !mine.any (fun c => c.cl == t.cl && (match c.job with | .entry _ => true | _ => false))
        | _ => false) ||
      s.inbuf.any (fun x => x.2.1.via.contains l)

/-- The reads of n lines of a region's global window from an address, by a cluster or, of the I/O die, by the line's own die: translated,
with their rows activated and their errors counted (04 R100; 21 R390, R396; 25 R447). -/
def State.touchLines (s : State) (cl : Option Nat) (r : Region) (va : Nat) : Nat → State
  | 0 => s
  | n + 1 =>
    (match s.translate r (va % 2 ^ 48) 0 false with
     | .ok (loc, k, w) =>
       let s1 := s.touchAt (cl.getD (256 + locDie loc)) r.num (.global loc k w)
       (match s.badAt r.num 0 (.global loc k w) with
        | some true => s1.countCrc (match cl with | some c => dieOf c | none => locDie loc)
        | some false => s1.countEcc (locDie loc)
        | none => s1)
     | .error _ => s.walkFor (cl.getD 256) r (va % 2 ^ 48)).touchLines cl r (va + 64) n

/-- The lines that hold n bytes from an address. -/
def lineSpan (va n : Nat) : Nat := (va % 64 + n + 63) / 64

end Sys2Proof.Machine
end

