-- ==== Sys2Proof/Machine/Operands.lean ====
section
/-! DEFINITION. Operands: which registers, predicates, vector spans, semaphores and barriers an instruction names, and the
decode checks of 10 R217 that rest on them, from check 3 (the element type) on. Checks 1 to 5 are in Fetch.lean. -/

namespace Sys2Proof.Machine

/-- The group registers base + k of a CE command (14 R302). -/
def groupRegs (b : BitVec 3) (ks : List Nat) : List Nat := ks.map (fun k => 4 * b.toNat + k)

/-- General registers read (03 R53; 14 R302, R305, R314, R315, R320). -/
def gReads : Instr → List Nat
  | .add _ a b | .sub _ a b | .and _ a b | .or _ a b | .xor _ a b | .andn _ a b | .orn _ a b | .shl _ a b | .shr _ a b
  | .sra _ a b | .rol _ a b | .min _ a b | .max _ a b | .minu _ a b | .maxu _ a b | .mul _ a b | .mulh _ a b
  | .mulhu _ a b | .divu _ a b | .remu _ a b | .bfx _ a b | .bfxs _ a b => [a.toNat, b.toNat]
  | .cselT _ a b _ | .cselF _ a b _ => [a.toNat, b.toNat]
  | .xshf _ a b _ => [a.toNat, b.toNat]
  | .madd d a b | .bfi d a b => [a.toNat, b.toNat, d.toNat]
  | .pmovToP a => [a.toNat]
  | .clz _ a | .ctz _ a | .popc _ a | .brev _ a | .bswap _ a => [a.toNat]
  | .addi _ a _ | .andi _ a _ | .ori _ a _ | .xori _ a _ => [a.toNat]
  | .shli _ a _ | .shri _ a _ | .srai _ a _ | .roli _ a _ => [a.toNat]
  | .movk d _ _ => [d.toNat]
  | .cmp _ _ a b => [a.toNat, b.toNat]
  | .cmpi _ _ a _ => [a.toNat]
  | .jr a | .callr a => [a.toNat]
  | .ret => [7]
  | .loop d _ => [d.toNat]
  | .spawn d a => d.toNat :: groupRegs a [0, 1, 2, 3]
  | .spawnt d a _ => d.toNat :: groupRegs a [0, 1, 2, 3]
  | .rspawn d a => d.toNat :: groupRegs a [0, 1, 2, 3]
  | .sleep a => [a.toNat]
  | .swait d a _ => [d.toNat, a.toNat]
  | .qwait d a _ _ => [d.toNat, a.toNat]
  | .stry a _ _ => [a.toNat]
  | .ssig a _ | .ssigG a _ | .sset a _ => [a.toNat]
  | .ssigRemote d a _ | .ssigGRemote d a _ => [d.toNat, a.toNat]
  | .barinit a _ | .barwait a _ | .barsync a _ => [a.toNat]
  | .ld _ b _ _ | .ldAcq _ b _ _ | .ldc _ b _ _ => [b.toNat]
  | .st r b _ _ => [r.toNat, b.toNat]
  | .stRel r b _ _ _ => [r.toNat, b.toNat]
  | .stNlo r b _ | .stNhi r b _ => [r.toNat, b.toNat]
  | .atom d b _ _ _ => [d.toNat, b.toNat]
  | .acas d b _ _ => [2 * d.toNat, 2 * d.toNat + 1, b.toNat]
  | .rst d a _ _ => [d.toNat, a.toNat]
  | .rsig d a _ => [d.toNat, a.toNat]
  | .rld _ a _ => [a.toNat]
  | .ratom d a _ o _ => if o.toNat = 9 then [d.toNat, d.toNat + 1, a.toNat] else [d.toNat, a.toNat]
  | .vld _ a _ _ | .vldx _ a _ _ _ | .vldt _ a _ _ | .vst _ a _ _ | .vstx _ a _ _ _ => [a.toNat]
  | .vlds _ a b _ _ | .vsts _ a b _ _ => [a.toNat, b.toNat]
  | .vbcast _ a _ => [a.toNat]
  | .vmovsToV _ a => [a.toNat]
  | .vext _ _ b => [b.toNat]
  | .vsetvl _ a _ _ => [a.toNat]
  | .vrot _ _ b _ => [b.toNat]
  | .mclr b _ _ | .cbdone b _ _ => groupRegs b [0]
  | .mmode b _ _ | .mrnm b _ _ | .msave b _ _ | .mload b _ _ | .mhdr b _ _ | .cbpush b _ _ => groupRegs b [0, 1]
  | .mdrain b _ _ | .cbcfg b _ _ => groupRegs b [0, 1, 2]
  | .mpass b _ _ _ | .mpassh b _ _ _ => groupRegs b [0, 1, 2, 3]
  | .cpy b _ _ | .cpyx b _ _ | .cpym b _ _ | .cpyf b _ _ => groupRegs b [0, 1, 2, 3]
  | .mstat b => groupRegs b [0]
  | .sysw a _ => [a.toNat]
  | .tresume a | .tctxr a | .tctxw a | .tkill a | .kbind a | .kunbind a => [a.toNat]
  | _ => []

/-- General registers written. -/
def gWrites : Instr → List Nat
  | .add d _ _ | .sub d _ _ | .and d _ _ | .or d _ _ | .xor d _ _ | .andn d _ _ | .orn d _ _ | .shl d _ _ | .shr d _ _
  | .sra d _ _ | .rol d _ _ | .min d _ _ | .max d _ _ | .minu d _ _ | .maxu d _ _ | .mul d _ _ | .mulh d _ _
  | .mulhu d _ _ | .divu d _ _ | .remu d _ _ | .bfx d _ _ | .bfxs d _ _ | .madd d _ _ | .bfi d _ _ => [d.toNat]
  | .cselT d _ _ _ | .cselF d _ _ _ => [d.toNat]
  | .xshf d _ _ _ => [d.toNat]
  | .pmovToG d => [d.toNat]
  | .clz d _ | .ctz d _ | .popc d _ | .brev d _ | .bswap d _ => [d.toNat]
  | .addi d _ _ | .andi d _ _ | .ori d _ _ | .xori d _ _ => [d.toNat]
  | .shli d _ _ | .shri d _ _ | .srai d _ _ | .roli d _ _ => [d.toNat]
  | .movi d _ => [d.toNat]
  | .movk d _ _ | .movkZ d _ _ => [d.toNat]
  | .call _ | .callr _ => [7]
  | .loop d _ => [d.toNat]
  | .sread d _ => [d.toNat]
  | .ld d _ _ _ | .ldAcq d _ _ _ | .ldc d _ _ _ => [d.toNat]
  | .atom d _ _ _ _ => [d.toNat]
  | .acas d _ _ _ => [2 * d.toNat]
  | .rld d _ _ => [d.toNat]
  | .ratom d _ _ _ _ => [d.toNat]
  | .vmovsToG d _ => [d.toNat]
  | .vext d _ _ => [d.toNat]
  | .vsetvl d _ _ _ => [d.toNat]
  | .vmpop d _ => [d.toNat]
  | .mstat b | .cbnext b | .cbstat b => groupRegs b [0]
  | .sysr d _ => [d.toNat]
  | _ => []

/-- Predicates read. -/
def pReads : Instr → List Nat
  | .cselT _ _ _ k | .cselF _ _ _ k => [k.toNat]
  | .pmovToG _ => [0, 1, 2, 3, 4, 5, 6, 7]
  | .plog _ o a b => if o.toNat < 6 then [a.toNat, b.toNat] else [a.toNat]
  | .brT p _ | .brF p _ => [p.toNat]
  | _ => []

/-- Predicates written. -/
def pWrites : Instr → List Nat
  | .pmovToP _ => [0, 1, 2, 3, 4, 5, 6, 7]
  | .cmp p _ _ _ => [p.toNat]
  | .cmpi p _ _ _ => [p.toNat]
  | .plog p _ _ _ => [p.toNat]
  | .spawnt _ _ p => [p.toNat]
  | .qwait _ _ p _ => [p.toNat]
  | .stry _ p _ => [p.toNat]
  | _ => []

/-! ### Vector operands -/

/-- Element width in bytes of a type code (13 R274). -/
def typeW (t : Nat) : Nat := if t = 0 ∨ t = 5 then 4 else if t = 1 ∨ t = 2 ∨ t = 6 then 2 else 1

def isFloat3 (t : Nat) : Bool := t == 0 || t == 1 || t == 2
def isInt3 (t : Nat) : Bool := t == 5 || t == 6 || t == 7

/-- Plane sizes per block in bytes, elements and scales, of a block format code (06 R138; 13 R295). -/
def planeEP (f : Nat) : Nat := if f = 2 ∨ f = 4 then 16 else 32
def planeSP (f : Nat) : Nat := if f = 4 then 2 else 1

/-- The registers a plane of VLMAX elements spans (13 R295). -/
def planeSpan (vlmax per : Nat) : Nat := (vlmax * per + 131071) / 131072

/-- The assigned conversions of 13 R294: source type, destination type, SR and SAT bits. -/
def cvtOk (s t r c : Nat) : Bool :=
  if (s == 0 || s == 1 || s == 2) && (t == 1 || t == 2 || t == 3 || t == 4) && s != t && !(s != 0 && t == 0) then
    true
  else if (s == 1 || s == 2 || s == 3 || s == 4) && t == 0 then r == 0 && c == 0
  else if (s == 3 || s == 4) && (t == 1 || t == 2) then r == 0 && c == 0
  else if (s == 0 || s == 1 || s == 2) && t == 5 then r == 0
  else if s == 5 && (t == 0 || t == 1 || t == 2) then r == 0
  else false

/-- The types a vector instruction accepts (13 R278, R286, R290 to R301). -/
def typeOk (t : Nat) : Instr → Bool
  | .vldx .. | .vstx .. | .vrng .. => t == 0 || t == 5
  | .viota .. => isInt3 t
  | .vadd .. | .vsub .. | .vmul .. | .vfma .. | .vfms .. | .vfnma .. | .vmin .. | .vmax .. | .vabs .. | .vneg ..
  | .vclass .. | .vexp2 .. | .vlog2 .. | .vrcp .. | .vrsq .. | .vsqrt .. | .vtanh .. | .vqnt .. | .vdq ..
  | .vcmp .. => isFloat3 t
  | .viadd .. | .visub .. | .vimul .. | .vimad .. | .vimin .. | .vimax .. | .vand .. | .vor .. | .vxor .. | .vshl ..
  | .vshr .. | .vsra .. | .vicmp .. => isInt3 t
  | .vcvt _ _ d _ r c => cvtOk t d.toNat r.toNat c.toNat
  | .vred _ _ _ o | .vscan _ _ _ o => if o.toNat < 3 then t == 0 else t == 5
  | _ => true

/-- The vector spans an instruction names: first register and number of registers (13 R275, R294 to R297). -/
def vSpans (t g : Nat) : Instr → List (Nat × Nat)
  | .vld d _ _ _ | .vldt d _ _ _ | .vst d _ _ _ => [(d.toNat, g)]
  | .vlds d _ _ _ _ | .vsts d _ _ _ _ => [(d.toNat, g)]
  | .vldx d _ b _ _ | .vstx d _ b _ _ => [(d.toNat, g), (b.toNat, g)]
  | .vbcast d _ _ => [(d.toNat, g)]
  | .vmovsToG _ a => [(a.toNat, g)]
  | .vmovsToV d _ => [(d.toNat, g)]
  | .vext _ a _ => [(a.toNat, g)]
  | .viota d _ => [(d.toNat, g)]
  | .vadd d a b _ | .vsub d a b _ | .vmul d a b _ | .vfma d a b _ | .vfms d a b _ | .vfnma d a b _ | .vmin d a b _
  | .vmax d a b _ | .viadd d a b _ | .visub d a b _ | .vimul d a b _ | .vimad d a b _ | .vimin d a b _ | .vimax d a b _
  | .vand d a b _ | .vor d a b _ | .vxor d a b _ | .vshl d a b _ | .vshr d a b _ | .vsra d a b _ | .vperm d a b _
  | .vshuf d a b _ | .vsel d a b _ => [(d.toNat, g), (a.toNat, g), (b.toNat, g)]
  | .vabs d a _ | .vneg d a _ | .vclass d a _ | .vexp2 d a _ | .vlog2 d a _ | .vrcp d a _ | .vrsq d a _ | .vsqrt d a _
  | .vtanh d a _ => [(d.toNat, g), (a.toNat, g)]
  | .vred d a _ _ | .vscan d a _ _ => [(d.toNat, g), (a.toNat, g)]
  | .vrot d a _ _ => [(d.toNat, g), (a.toNat, g)]
  | .vcvt d a dt _ _ _ => [(d.toNat, (g * typeW dt.toNat + typeW t - 1) / typeW t), (a.toNat, g)]
  | .vqnt d a b _ _ f =>
    [(d.toNat, planeSpan (4096 / typeW t * g) (planeEP f.toNat)), (a.toNat, g),
     (b.toNat, planeSpan (4096 / typeW t * g) (planeSP f.toNat))]
  | .vdq d a b _ f =>
    [(d.toNat, g), (a.toNat, planeSpan (4096 / typeW t * g) (planeEP f.toNat)),
     (b.toNat, planeSpan (4096 / typeW t * g) (planeSP f.toNat))]
  | .vrseed a b _ => [(a.toNat, 1), (b.toNat, 1)]
  | .vrng d _ => [(d.toNat, g)]
  | .vcmp _ a b _ _ | .vicmp _ a b _ _ => [(a.toNat, g), (b.toNat, g)]
  | .vmlog .. | .vmpop .. => [(0, 1)]   -- they need a frame with vector registers (19 R371)
  | _ => []

/-! ### Classes of instructions -/

/-- The port queue that a command enters (03 R60). FPATH and VSETVL, VWAIT are executed by the Newel (12 R270; 13 R276,
R281). -/
def portOf : Instr → Option Port
  | .mclr .. | .mmode .. | .mrnm .. | .msave .. | .mload .. | .mhdr .. | .mstat .. | .mdrain .. | .mpass ..
  | .mpassh .. => some .matrix
  | .cpy .. | .cpyx .. | .cpym .. | .cpyf .. => some .copy
  | .cbcfg .. | .cbpush .. | .cbnext .. | .cbdone .. | .cbstat .. => some .batcher
  | .rst .. | .rld .. | .ratom .. | .rsig .. | .rspawn .. => some .fabric
  | .vld .. | .vlds .. | .vldx .. | .vldt .. | .vst .. | .vsts .. | .vstx .. | .vbcast .. | .vmovsToG .. | .vmovsToV ..
  | .vext .. | .viota .. | .vsig .. | .vadd .. | .vsub .. | .vmul .. | .vfma .. | .vfms .. | .vfnma .. | .vmin ..
  | .vmax .. | .vabs .. | .vneg .. | .vclass .. | .viadd .. | .visub .. | .vimul .. | .vimad .. | .vimin .. | .vimax ..
  | .vand .. | .vor .. | .vxor .. | .vshl .. | .vshr .. | .vsra .. | .vexp2 .. | .vlog2 .. | .vrcp .. | .vrsq ..
  | .vsqrt .. | .vtanh .. | .vcvt .. | .vqnt .. | .vdq .. | .vrseed .. | .vrng .. | .vred .. | .vscan .. | .vperm ..
  | .vrot .. | .vshuf .. | .vcmp .. | .vicmp .. | .vsel .. | .vmlog .. | .vmpop .. => some .vector
  | _ => none

/-- A vector instruction (13 R278): one that enters the vector port, and VSETVL, VWAIT. -/
def isVec (i : Instr) : Bool := portOf i == some .vector

/-- A matrix command, whose G[base] names a tile (14 R302). -/
def matrixBase : Instr → Option Nat
  | .mclr b _ _ | .mmode b _ _ | .mrnm b _ _ | .msave b _ _ | .mload b _ _ | .mhdr b _ _ | .mdrain b _ _ => some (4 * b.toNat)
  | .mpass b _ _ _ | .mpassh b _ _ _ => some (4 * b.toNat)
  | .mstat b => some (4 * b.toNat)
  | _ => none

/-- The semaphores named at decode (11 R241, 13 R282, 14 R302). -/
def semsOf : Instr → List Nat
  | .swait _ _ e => [e.toNat]
  | .qwait _ _ _ e => [2 * e.toNat, 2 * e.toNat + 1]
  | .stry _ _ e => [e.toNat]
  | .ssig _ e | .ssigG _ e | .sset _ e | .sread _ e => [e.toNat]
  | .ssigRemote _ _ e | .ssigGRemote _ _ e => [e.toNat]
  | .spois e => [e.toNat]
  | .vsig e _ => [e.toNat]
  | .mclr _ e _ | .mmode _ e _ | .mrnm _ e _ | .msave _ e _ | .mload _ e _ | .mhdr _ e _ | .mdrain _ e _ | .cpy _ e _
  | .cpyx _ e _ | .cpym _ e _ | .cpyf _ e _ | .cbcfg _ e _ | .cbpush _ e _ | .cbdone _ e _ => [e.toNat]
  | .mpass _ e _ _ | .mpassh _ e _ _ => [e.toNat]
  | _ => []

/-- The barrier named (11 R248). -/
def barOf : Instr → Option Nat
  | .barinit _ b | .barwait _ b | .barsync _ b => some b.toNat
  | .barrive b => some b.toNat
  | _ => none

/-- A fabric instruction (12 R265). -/
def isFab : Instr → Bool
  | .rst .. | .rld .. | .ratom .. | .rsig .. | .rspawn .. | .fpath .. => true
  | _ => false

/-- The major opcode of the word that lies at index 0 or 1 of WORDS. -/
def majorAt (words : Word) (k : Nat) : Nat := field words (32 * k + 24) 6

/-! ### System registers (14 R322) -/

def sysAssigned (r : Nat) : Bool :=
  r ≤ 3 || (0x10 ≤ r && r ≤ 0x19) || (0x20 ≤ r && r ≤ 0x23) || r == 0x40 || r == 0x41 || r == 0x44 || r == 0x45 ||
  r == 0x48 || r == 0x49 || r == 0x4A || r == 0x50 || r == 0x51

/-- Registers that U level may not access. -/
def sysNeedsS (r : Nat) : Bool := r ≥ 0x40

/-- Registers that a level may write; a write to any other is ignored (R321, R322). -/
def sysWritable (r : Nat) (l : Level) : Bool :=
  r == 0x10 || r == 0x12 || r == 0x13 || (0x15 ≤ r && r ≤ 0x18) || (0x20 ≤ r && r ≤ 0x23) ||
  (l == .m && (r == 0x40 || r == 0x48 || r == 0x49)) || (l != .u && r == 0x50)

/-! ### The decode checks -/

/-- The first trap that a check finds in the words in order. -/
def firstTrap (f : Nat → Instr → Option Trap) : Nat → List Instr → Option Trap
  | _, [] => none
  | k, i :: r =>
    match f k i with
    | some t => some t
    | none => firstTrap f (k + 1) r

/-- The lowest number of a list that satisfies a test. -/
def lowest (p : Nat → Bool) (l : List Nat) : Option Nat :=
  l.foldl (fun m x => if p x then (match m with | none => some x | some y => some (Nat.min x y)) else m) none

/-- Check 3 for an instruction issued under a type it does not accept (13 R278, 10 R218). -/
def checkType (c : Ctx) (words : Word) (k : Nat) (i : Instr) : Option Trap :=
  if isVec i && !typeOk c.t.vtype.toNat i then
    some ⟨1, BitVec.ofNat 64 (majorAt words k + 256 * k + 65536 * (field words (32 * k) 6 + 64 * c.t.vtype.toNat + 8192)),
      c.t.prev, words, 0⟩
  else none

/-- Check 6: system register assigned. -/
def checkSys (c : Ctx) (words : Word) (_ : Nat) (i : Instr) : Option Trap :=
  match i with
  | .sysr _ r => if sysAssigned r.toNat then none else some ⟨6, BitVec.ofNat 64 r.toNat, c.t.prev, words, 0⟩
  | .sysw _ r => if sysAssigned r.toNat then none else some ⟨6, BitVec.ofNat 64 (r.toNat + 0x10000), c.t.prev, words, 0⟩
  | _ => none

/-- Check 7: privilege (R216, R218). -/
def checkPriv (c : Ctx) (words : Word) (_ : Nat) (i : Instr) : Option Trap :=
  if c.f.level = .u then
    match i with
    | .sysr _ r | .sysw _ r =>
      if sysNeedsS r.toNat then some ⟨4, BitVec.ofNat 64 (1 + 65536 * r.toNat), c.t.prev, words, 0⟩ else none
    | .tresume _ | .tctxr _ | .tctxw _ | .tkill _ | .kbind _ | .kunbind _ => some ⟨4, 1, c.t.prev, words, 0⟩
    | _ => none
  else none

/-- Check 8: allotment (02 R35), in the order of the causes of that table, and the spans of one word in the
order vd, va, vb (log 17). -/
def checkAllot (c : Ctx) (words : Word) (k : Nat) (i : Instr) : Option Trap :=
  let g := 2 ^ c.t.grp.toNat
  match lowest (fun r => decide (c.allot ≤ r)) (gReads i ++ gWrites i) with
  | some r => some (allotTrap 64 r c.allot words 0)
  | none =>
    match (vSpans c.t.vtype.toNat g i).find? (fun x => decide (c.f.hdr.kvregs < x.1 + x.2)) with
    | some x => some (allotTrap 65 (Nat.max x.1 c.f.hdr.kvregs) c.f.hdr.kvregs words 0)
    | none =>
      match lowest (fun x => decide (c.f.hdr.ksems ≤ x)) (semsOf i) with
      | some x => some (allotTrap 66 x c.f.hdr.ksems words 0)
      | none =>
        match barOf i with
        | some b =>
          if c.f.hdr.kbars ≤ b then some (allotTrap 67 b c.f.hdr.kbars words 0) else none
        | none =>
          if (isFab i && !bitOf c.f.hdr.kflags 1) || (portOf i == some .batcher && !bitOf c.f.hdr.kflags 0) then
            some (allotTrap 69 (majorAt words k) c.f.hdr.kflags.toNat words 0)
          else none

/-- The pending bits as i1 of 03 R53. -/
def pendWord (t : Thread) : Word := BitVec.ofNat 64 (t.pendG.toNat + 2 ^ 32 * t.pendP.toNat)

/-- Check 9: pending registers (03 R53); the lowest general register first, then predicates (log 17). -/
def checkPending (c : Ctx) (words : Word) (_ : Nat) (i : Instr) : Option Trap :=
  match lowest (fun r => c.t.pendG.getLsbD r) (gReads i ++ gWrites i) with
  | some r => some ⟨5, BitVec.ofNat 64 r, pendWord c.t, words, 0⟩
  | none =>
    match lowest (fun r => c.t.pendP.getLsbD r) (pReads i ++ pWrites i) with
    | some r => some ⟨5, BitVec.ofNat 64 (r + 256), pendWord c.t, words, 0⟩
    | none => none

/-- The uncorrectable error of a register read at decode (19 R362). -/
def checkEcc (s : State) (c : Ctx) (words : Word) (_ : Nat) (i : Instr) : Option Trap :=
  match lowest (fun r => s.eccG.contains (c.t.cl, c.t.slot, r)) (gReads i) with
  | some r => some ⟨448, BitVec.ofNat 64 r, 0, words, 0⟩
  | none => none

/-- The spawn checks of 11 R234, on a descriptor. -/
def checkSpawn (c : Ctx) (words : Word) (desc : Word) : Option Trap :=
  let tgt := field desc 0 8
  let ent := field desc 9 3
  let jcl := field desc 24 8
  let jsem := field desc 16 8
  if !bitOf desc 8 && !inSet c.f.set tgt then some (allotTrap 70 tgt 0 words 0)
  else if nth c.f.hdr.entries ent 0xFFFFFFFF = 0xFFFFFFFF then some (allotTrap 71 ent 0 words 0)
  else if bitOf desc 15 then
    if !inSet c.f.set jcl then some (allotTrap 70 jcl 0 words 0)
    else if c.f.hdr.ksems ≤ jsem then some (allotTrap 66 jsem c.f.hdr.ksems words 0)
    else none
  else none

/-- A barrier of the frame. -/
def Frame.bar (f : Frame) (b : Nat) : Bar := nth f.bars b { init := false, n := 0, counter := 0, phase := false }

/-- The decode checks of the instruction descriptions, made after those of R217 (11 R219; 14 R302). -/
def checkOwn (c : Ctx) (words : Word) (_ : Nat) (i : Instr) : Option Trap :=
  let jump (t : Word) : Option Trap := if t.toNat % 4 ≠ 0 then some ⟨133, t, 0, words, 0⟩ else none
  let bar (b : Nat) : Option Trap :=
    if (c.f.bar b).init then none else some ⟨256, BitVec.ofNat 64 b, 0xFFFFFFFF, 0, 0⟩
  match i with
  | .divu _ a b | .remu _ a b =>
    if c.t.getG b.toNat = 0 then some ⟨192, c.t.getG a.toNat, 0, words, 0⟩ else none
  | .jr a | .callr a => jump (c.t.getG a.toNat)
  | .ret => jump (c.t.getG 7)
  | .spawn d _ => checkSpawn c words (c.t.getG d.toNat)
  | .spawnt d _ _ => checkSpawn c words (c.t.getG d.toNat)
  | .rshrink n =>
    let new := 8 * (n.toNat + 1)
    if new > c.t.allot then some (allotTrap 64 new c.t.allot words 0)
    else match lowest (fun r => decide (new ≤ r ∧ r < c.t.allot) && c.t.pendG.getLsbD r) (List.range 32) with
      | some r => some ⟨5, BitVec.ofNat 64 r, pendWord c.t, words, 0⟩
      | none => none
  | .ssigRemote d _ _ | .ssigGRemote d _ _ =>
    if inSet c.f.set (c.t.getG d.toNat).toNat then none else some ⟨70, c.t.getG d.toNat, 0, words, 0⟩
  | .barinit a b =>
    let n := (c.t.getG a.toNat).toNat
    if n < 1 ∨ n > 512 then some ⟨261, BitVec.ofNat 64 b.toNat, c.t.getG a.toNat, words, 0⟩ else none
  | .barrive b => bar b.toNat
  | .barwait _ b | .barsync _ b => bar b.toNat
  | _ =>
    match matrixBase i with
    | some r =>
      let tile := field (c.t.getG r) 0 3
      if c.f.hdr.ktiles ≤ tile then some (allotTrap 68 tile c.f.hdr.ktiles words 0) else none
    | none => none

/-- The allotment that an A-class word beside RSHRINK is checked against (11 R238). -/
def pairAllot (c : Ctx) : List Instr → Nat
  | .rshrink n :: _ :: _ => Nat.min c.t.allot (8 * (n.toNat + 1))
  | _ => c.t.allot

/-- Check 8 of a bundle: the word beside RSHRINK against NEW. -/
def checkAllots (c : Ctx) (words : Word) (is : List Instr) : Option Trap :=
  firstTrap (fun k i => checkAllot (if k = 0 then c else { c with allot := pairAllot c is }) words k i) 0 is

/-- Either trap, the first that is found. -/
def orTrap (a b : Option Trap) : Option Trap :=
  match a with
  | some t => some t
  | none => b

/-- The decode checks of a bundle's instructions, from the type check of check 3 on, each check over both words. -/
def decodeChecks (s : State) (c : Ctx) (is : List Instr) : Option Trap :=
  let w := s.cur.words
  orTrap (firstTrap (checkType c w) 0 is)
    (orTrap (firstTrap (checkSys c w) 0 is)
      (orTrap (firstTrap (checkPriv c w) 0 is)
        (orTrap (checkAllots c w is)
          (orTrap (firstTrap (checkPending c w) 0 is)
            (orTrap (firstTrap (checkEcc s c w) 0 is)
              (firstTrap (checkOwn c w) 0 is))))))

/-- A decode trap of 7.0.0 leaves the register zero (19 R362). -/
def State.clearEcc (s : State) (cl slot : Nat) (tr : Trap) : State :=
  if tr.cause = 448 then
    { (s.modThread cl slot (fun t => t.setG tr.i0.toNat 0)).countEcc (dieOf cl) with
      eccG := s.eccG.filter (fun e => e != (cl, slot, tr.i0.toNat)) }
  else s

/-- The common shape of a thread's instruction: no thread is a fault of the model, a failing decode check traps, and
otherwise the instruction takes effect on the state in which its bundle has issued (03 R47, 10 R217). -/
def issueI (i : Instr) (s : State) (eff : Ctx → State → State) : Host.Outcome State Fault Refusal :=
  match s.ctx? with
  | none => .fault .noThread
  | some c =>
    match decodeChecks s c [i] with
    | some tr => .next ((s.trapDecode c tr).clearEcc c.t.cl c.t.slot tr)
    | none => .next (eff c (s.begin c))

end Sys2Proof.Machine
end

