-- ==== Sys2Proof/Machine/Fetch.lean ====
section
/-! DEFINITION. Fetching a bundle: the instruction cache, the code range, framing and the decode checks 1 to 5
(10 R198, R202, R217, R218; 03 R47, R67). -/

namespace Sys2Proof.Machine

/-- The first code byte of a frame (02 R19). -/
def Frame.code (f : Frame) : Nat := f.hdrVa.toNat + 64

/-- The 4 bytes at an address lie in the frame's code (10 R202). -/
def Frame.inCode (f : Frame) (va : Word) : Bool := f.code ≤ va.toNat && va.toNat + 4 ≤ f.code + f.hdr.kcode

/-- The line of a region's code held in the cluster's instruction cache. -/
def State.iLine (s : State) (cl rgn : Nat) (va : Word) : Option (BitVec 512) :=
  match (s.clu cl).icache.find? (fun e => e.1 == rgn && e.2.1 == va.toNat / 64 * 64) with
  | some e => e.2.2.2
  | none => none

/-- The word at an address of a held line. -/
def lineWord (l : BitVec 512) (va : Word) : Insn := l.extractLsb' (8 * (va.toNat % 64 / 4 * 4)) 32

/-- The next bundle: its first word, its second word (zero unless it is a pair), and whether it is a pair. -/
structure Bundle where
  w0 : Insn
  w1 : Insn
  pair : Bool
  deriving DecidableEq, Repr

/-- A word that opens a pair: L = 0 at a multiple of 8 (10 R198). -/
def opensPair (w : Insn) (va : Word) : Bool := !bitOf w 31 && va.toNat % 8 == 0

/-- The next bundle of a thread, if it lies in the code and its line is held (03 R47). -/
def State.bundle? (s : State) (t : Thread) (f : Frame) : Option Bundle :=
  let va := t.fetchPc
  if !f.inCode va || va.toNat % 4 ≠ 0 then none
  else match s.iLine t.cl t.rgn va with
    | none => none
    | some l =>
      let w0 := lineWord l va
      if t.soloC then some { w0 := w0, w1 := 0, pair := false }
      else if opensPair w0 va then
        if f.inCode (va + 4) then some { w0 := w0, w1 := lineWord l (va + 4), pair := true } else none
      else some { w0 := w0, w1 := 0, pair := false }

/-- WORDS of a bundle (02 R35). -/
def Bundle.words (b : Bundle) : Word := BitVec.ofNat 64 (b.w0.toNat + 2 ^ 32 * b.w1.toNat)

/-- An A-class word (10 R197). -/
def aClass (w : Insn) : Bool := field w 24 6 < 0x18

/-- The violation of framing rules 1 to 4 (10 R198, R218); 0 for none. -/
def framing (b : Bundle) (va : Word) (solo : Bool) : Nat :=
  if solo || bitOf b.w0 31 then 0
  else if va.toNat % 8 ≠ 0 then 1
  else if aClass b.w0 then 2
  else if field b.w1 30 2 ≠ 0 then 3
  else if !aClass b.w1 then 4
  else 0

/-- The code span that 0.0.1 reports (10 R218). -/
def codeSpan (w : Insn) : Nat :=
  let m := field w 24 6
  if m ≤ 2 then field w 0 9
  else if 0x28 ≤ m ∧ m ≤ 0x2F then (if m = 0x29 ∧ field w 0 6 = 4 then field w 0 14 else field w 0 6)
  else if 0x30 ≤ m ∧ m ≤ 0x32 then field w 0 9
  else field w 0 14

/-- The instruction of a word that is only at fault in its reserved fields, for the type check of check 3. -/
def bodyOf (w : Insn) : Option Instr :=
  match decodeWord w with
  | .ok i => some i
  | .error (.reserved m) => (decodeWord (w &&& ~~~m)).toOption
  | .error _ => none

/-- Checks 2 and 3 on the k-th word. -/
def majorTrap (c : Ctx) (words : Word) (k : Nat) (w : Insn) : Option Trap :=
  match decodeWord w with
  | .error .major => some ⟨0, BitVec.ofNat 64 (field w 24 6 + 256 * k), c.t.prev, words, 0⟩
  | _ => none

/-- An unassigned function code or form of a major (10 R218; for the code that i0 names, log 74). -/
def functionTrap (c : Ctx) (words : Word) (k : Nat) (w : Insn) : Option Trap :=
  match decodeWord w with
  | .error .function => some ⟨1, BitVec.ofNat 64 (field w 24 6 + 256 * k + 65536 * codeSpan w), c.t.prev, words, 0⟩
  | _ =>
    match bodyOf w with
    | some i => checkType c words k i
    | none => none

/-- The non-zero reserved bits of a word. -/
def reservedBits (w : Insn) : Option Insn :=
  match decodeWord w with
  | .error (.reserved m) => some m
  | _ => none

/-- Check 4 over the words of a bundle (10 R206, R218). -/
def reservedTrap (c : Ctx) (words : Word) (w0 : Insn) (w1 : Option Insn) : Option Trap :=
  let m1 : Option Insn := match w1 with | some w => reservedBits w | none => none
  match reservedBits w0, m1 with
  | none, none => none
  | a, b =>
    some ⟨2, BitVec.ofNat 64 ((a.getD 0).toNat + 2 ^ 32 * (b.getD 0).toNat), c.t.prev, words, 0⟩

/-- Check 5: both words of a pair write one register or predicate (10 R199). -/
def doubleWrite (c : Ctx) (words : Word) (i0 i1 : Instr) : Option Trap :=
  match lowest (fun r => r ≠ 0 && (gWrites i1).contains r) (gWrites i0) with
  | some r => some ⟨3, BitVec.ofNat 64 (5 + 256 * r), c.t.prev, words, 0⟩
  | none =>
    match lowest (fun r => (pWrites i1).contains r) (pWrites i0) with
    | some r => some ⟨3, BitVec.ofNat 64 (5 + 256 * r + 8192), c.t.prev, words, 0⟩
    | none => none

/-- Checks 1 to 5 of 10 R217 on a bundle: its instructions, or the trap. -/
def decodeBundle (c : Ctx) (b : Bundle) : Except Trap (List Instr) :=
  let words := b.words
  let v := framing b c.t.fetchPc c.t.soloC
  if v ≠ 0 then .error ⟨3, BitVec.ofNat 64 v, c.t.prev, words, 0⟩
  else if b.pair then
    match orTrap (majorTrap c words 0 b.w0) (orTrap (majorTrap c words 1 b.w1)
        (orTrap (functionTrap c words 0 b.w0) (orTrap (functionTrap c words 1 b.w1)
          (reservedTrap c words b.w0 (some b.w1))))) with
    | some t => .error t
    | none =>
      match decodeWord b.w0, decodeWord b.w1 with
      | .ok i0, .ok i1 =>
        match doubleWrite c words i0 i1 with
        | some t => .error t
        | none => .ok [i0, i1]
      | _, _ => .error ⟨1, 0, c.t.prev, words, 0⟩
  else
    match orTrap (majorTrap c words 0 b.w0) (orTrap (functionTrap c words 0 b.w0) (reservedTrap c words b.w0 none)) with
    | some t => .error t
    | none =>
      match decodeWord b.w0 with
      | .ok i => .ok [i]
      | .error _ => .error ⟨1, 0, c.t.prev, words, 0⟩

/-- UNASSIGNED_INSTRUCTION: a bundle of these words (the second counts in a pair) traps at decode by the first failing
check of 10 R217; words that pass the checks 1 to 5 are no such bundle, and nothing happens (log 12). -/
def execUnassignedInstruction (w0 w1 : Insn) (s : State) : Host.Outcome State Fault Refusal :=
  match s.ctx? with
  | none => .fault .noThread
  | some c =>
    match decodeBundle c { w0 := w0, w1 := w1, pair := s.cur.pair } with
    | .error tr => .next (s.trapDecode c tr)
    | .ok _ => .next s

/-! ### Instruction fetch -/

/-- Puts a line into a cluster's instruction cache of 2,048 lines; a pinned line stays pinned, and a line that holds a thread's next
bundle stays for it: a ready thread stays ready (01 R13; 03 R47, R67). -/
def State.fillI (s : State) (cl rgn : Nat) (line : Nat) (pinned : Bool) (v : BitVec 512) : State :=
  let next (e : Nat × Nat × Bool × Option (BitVec 512)) : Bool :=
    s.threads.any (fun t => t.cl == cl && t.rgn == e.1 && t.fetchPc.toNat / 64 * 64 == e.2.1)
  let same (e : Nat × Nat × Bool × Option (BitVec 512)) : Bool := e.1 == rgn && e.2.1 == line
  s.modClu cl (fun c =>
    { c with icache := evict 2048 (fun e => e.2.2.1 || next e) (c.icache.filter (fun e => !same e)) ++
        [(rgn, line, pinned || c.icache.any (fun e => same e && e.2.2.1), some v)] })

/-- A fetch fault (10 R202, 19 R362): the PC is the bundle's. -/
def State.fetchFault (s : State) (t : Thread) (cause : Nat) (va : Word) (i3 : Word) : State :=
  s.park t.cl t.slot t.pc t.soloC ⟨cause, va, t.prev, 0, i3⟩

/-- A thread that is neither waiting nor parked, nor held by its marker (03 R47, R54), and whose replay queue a TRESUME has
entered whole into the vector port (13 R284). -/
def Thread.running (t : Thread) : Bool :=
  t.wait == .none && !(t.marker && (t.pendG != 0 || t.pendP != 0)) && t.late.isEmpty && (t.vstop || t.replay.isEmpty)

/-- INSTRUCTION_FETCH (10 R202; 21 R389; 19 R362): the range check comes before the translation. -/
def execInstructionFetch (cl slot : Nat) (s : State) : Host.Outcome State Fault Refusal :=
  match s.thread? cl slot with
  | none => .next s
  | some t =>
    match s.frame? cl t.rgn t.knum, s.region? t.rgn with
    | some f, some r =>
      let va := t.fetchPc
      if !t.running || f.stopped || (s.bundle? t f).isSome then .next s
      else if !f.inCode va then .next (s.fetchFault t 130 va 0)
      else
        let second (s : State) : State :=
          match s.iLine cl t.rgn va with
          | none => s
          | some l =>
            if !t.soloC && opensPair (lineWord l va) va && !f.inCode (va + 4) then s.fetchFault t 130 (va + 4) 0 else s
        match s.iLine cl t.rgn va with
        | some _ => .next (second s)
        | none =>
          match s.translate r (va.toNat % 2 ^ 48 / 64 * 64) 3 false with
          | .error pf => .next ((s.walkFor cl r (va.toNat % 2 ^ 48)).fetchFault t (128 + pf.kind) va 0)
          | .ok (loc, key, pa) =>
            let s1 := s.touchAt cl t.rgn (.global loc key pa)
            let bad := s.badAt t.rgn t.knum (.global loc key pa)
            if bad == some true then .next ((s1.countCrc (dieOf cl)).fetchFault t 449 va 1)
            else .next (second ((if bad.isSome then s1.countEcc (locDie loc) else s1).fillI cl t.rgn (va.toNat / 64 * 64) false (BitVec.ofNat 512 (fromLE (s.hbmRead key loc 64)))))
    | _, _ => .next s

end Sys2Proof.Machine
end

