-- ==== Sys2Proof/Machine/Issue.lean ====
section
/-! DEFINITION. The Newel's choice of the next bundle: readiness, wait counts, effective priority and launch precedence
(03 R47 to R51), and the port queues' room (03 R60; 13 R281). -/

namespace Sys2Proof.Machine

/-- A remote operation of a thread that still stands in the fabric interface port queue (12 R266). -/
def Act.unsent (a : Act) : Bool := match a.job with | .remote r => r.opc ≤ 4 && !r.sent | _ => false

/-- Entries of a cluster's port queue. -/
def State.portCount (s : State) (cl : Nat) (p : Port) : Nat :=
  (s.cmds.filter (fun c => c.cl == cl && c.port == p)).length +
  (if p = .fabric then (s.acts.filter (fun a => a.cl == cl && a.unsent)).length else 0)

def State.threadPortCount (s : State) (cl slot : Nat) (p : Port) : Nat :=
  (s.cmds.filter (fun c => c.cl == cl && c.slot == slot && c.port == p)).length +
  (if p = .fabric then (s.acts.filter (fun a => a.cl == cl && a.slot == slot && a.unsent)).length else 0)

/-- Vector instructions of a thread that have not retired, its replay queue among them (13 R281, R284). -/
def State.unretired (s : State) (cl slot : Nat) : Nat :=
  s.threadPortCount cl slot .vector +
  (s.acts.filter (fun a => a.cl == cl && a.slot == slot && (match a.job with | .vretire .. | .vsig .. => true | .reading c _ _ => c.port == .vector | _ => false))).length +
  (match s.thread? cl slot with | some t => t.replay.length | none => 0)

/-- Access size of a size code (12 R251). -/
def sizeOf (z : Nat) : Nat := 2 ^ (z % 4)

/-- G[base] + sext(disp9) x scale (12 R252). -/
def effAddr (t : Thread) (b : BitVec 5) (i : BitVec 9) (scale : Nat) : Word :=
  t.getG b.toNat + i.signExtend 64 * BitVec.ofNat 64 scale

/-- The port that an instruction enters: an engine or vector command's, or the fabric interface's for a remote operation, with LD,
ST and ATOM of a fabric address (03 R60; 12 R250, R266). -/
def portEntered (t : Thread) (i : Instr) : Option Port :=
  let fab (a : Word) : Option Port := if window a = .fabric then some .fabric else none
  match i with
  | .ld _ b z d => fab (effAddr t b d (sizeOf z.toNat))
  | .st _ b z d => fab (effAddr t b d (sizeOf z.toNat))
  | .atom _ b _ o _ => if o = 0 then fab (t.getG b.toNat) else none
  | .acas _ b _ o => if o = 0 then fab (t.getG b.toNat) else none
  | _ => portOf i

/-- The port that a bundle's C-class word goes to can accept it (03 R47, R60; 13 R281). -/
def State.portOk (s : State) (t : Thread) (w : Insn) : Bool :=
  match decodeWord w with
  | .error _ => true
  | .ok i =>
    match portEntered t i with
    | none => true
    | some p =>
      s.portCount t.cl p < 64 && s.threadPortCount t.cl t.slot p < 16 &&
        (p != .vector || s.unretired t.cl t.slot < 16)

/-- A signal, a spawn request or a peer access of the thread to a suspended cluster is being retried, and the thread blocks (02 R45;
11 R235, R245; log 75). -/
def State.requestHeld (s : State) (t : Thread) : Bool :=
  s.acts.any (fun a => a.cl == t.cl && a.slot == t.slot &&
    (match a.job with
     | .signal cl rgn knum _ _ true => (match s.frame? cl rgn knum with | some f => f.stopped | none => false)
     | .spawn r _ => (match s.frame? r.target r.rgn r.knum with | some f => f.stopped | none => false)
     | .load _ pl _ _ _ _ _ _ => !s.placeUp t.rgn t.knum pl
     | .entry e | .flight e => e.cls == 0 && !s.placeUp e.rgn e.knum e.line
     | _ => false))

/-- Ready but for the issue interval and the presence of its bundle (03 R47). -/
def State.awake (s : State) (t : Thread) : Bool :=
  t.running && !s.requestHeld t &&
  match s.frame? t.cl t.rgn t.knum with
  | some f => !f.stopped && !f.tearing
  | none => false

/-- A thread is ready (03 R47). -/
def State.ready (s : State) (t : Thread) : Bool :=
  s.awake t && t.nextIssue ≤ s.pulse t.cl &&
  match s.frame? t.cl t.rgn t.knum with
  | none => false
  | some f =>
    match s.bundle? t f with
    | none => false
    | some b => s.portOk t b.w0

/-- A thread whose next bundle is not held although it could issue: it is fetched (03 R47, R202). -/
def State.wantsFetch (s : State) (t : Thread) : Bool :=
  s.awake t && t.nextIssue ≤ s.pulse t.cl &&
  match s.frame? t.cl t.rgn t.knum with
  | none => false
  | some f => (s.bundle? t f).isNone

/-- AGEQ of a cluster (03 R58). -/
def State.ageq (s : State) (cl : Nat) : Nat := 2 ^ (s.phy (s.physOf cl)).ageql

/-- Effective priority (03 R48). -/
def State.effPrio (s : State) (t : Thread) : Nat := Nat.min 7 (t.prio.toNat + t.w / s.ageq t.cl)

/-- Starved (03 R50). -/
def State.starved (s : State) (t : Thread) : Bool := s.effPrio t == 7 && s.ageq t.cl ≤ t.w

/-- Keys 1 to 4 of 03 R49 with the exception of R50: x issues before y. -/
def State.before (s : State) (x y : Thread) : Bool :=
  let k (t : Thread) : Nat := if s.starved t then 2 else if t.launch then 1 else 0
  if k x ≠ k y then decide (k y < k x)
  else if s.effPrio x ≠ s.effPrio y then decide (s.effPrio y < s.effPrio x)
  else if x.w ≠ y.w then decide (y.w < x.w)
  else decide (x.slot < y.slot)

/-- The thread that issues first among a list. -/
def State.best (s : State) : List Thread → Option Thread
  | [] => none
  | t :: r =>
    match s.best r with
    | none => some t
    | some u => if s.before t u then some t else some u

/-- The lowest cluster from `turn` on that a listed thread is on. -/
def lowestCl (turn : Nat) (ts : List Thread) : Option Nat := lowest (fun c => decide (turn ≤ c)) (ts.map (fun t => t.cl))

/-- The next thread to issue in this die pulse, cluster by cluster: a cluster issues only in a pulse of its own (24 R434). -/
def State.pick (s : State) : Option Thread :=
  let rs := s.threads.filter (fun t => s.delivers t.cl && s.ready t)
  match lowestCl s.turn rs with
  | none => none
  | some c => s.best (rs.filter (fun t => t.cl == c))

/-- Threads of a cluster that are ready in this pulse. -/
def State.readyOn (s : State) (cl : Nat) : List Thread := s.threads.filter (fun t => t.cl == cl && s.ready t)

/-- The issue of a bundle: the thread's W is reset and its next issue is 8 pulses off; the cluster's other ready threads
age, MAXW keeps the largest W, and the counts of the pulse are kept for a read of NEWELSTAT (03 R48, R51, R59). -/
def State.issued (s : State) (t : Thread) : State :=
  let s1 := s.modPhy (s.physOf t.cl) (fun p => { p with maxw := Nat.min 0xFFFFFF (Nat.max p.maxw t.w) })
  { s1 with
    threads := s1.threads.map (fun u =>
      if u.cl = t.cl then
        if u.slot = t.slot then { u with w := 0, launch := false, nextIssue := s.pulse t.cl + 8 }
        else if s.ready u then { u with w := u.w + 1 } else { u with w := 0 }
      else u),
    turn := t.cl + 1,
    cur := { s1.cur with ready := (s.readyOn t.cl).length, starved := ((s.readyOn t.cl).filter s.starved).length } }

end Sys2Proof.Machine
end

