-- ==== Sys2Proof/Machine/Flags.lean ====
section
/-! DEFINITION. Conditions and flags: the compare conditions (11 R228, R229), VFCSR (06 R128 to R130) and the flags that
an arithmetic result raises. -/

namespace Sys2Proof.Machine

/-- The condition of CMP and CMPI (11 R228). -/
def condHolds (c : BitVec 3) (x y : Word) : Bool :=
  match c.toNat with
  | 0 => x == y
  | 1 => x != y
  | 2 => x.slt y
  | 3 => !x.slt y
  | 4 => x.ult y
  | 5 => !x.ult y
  | 6 => x &&& y != 0
  | _ => x &&& y == 0

/-- PLOG (11 R229). -/
def plogOp (o : BitVec 3) (a b : Bool) : Bool :=
  match o.toNat with
  | 0 => a && b
  | 1 => a || b
  | 2 => a != b
  | 3 => a && !b
  | 4 => a || !b
  | 5 => a == b
  | 6 => a
  | _ => !a

end Sys2Proof.Machine
end

