-- ==== Sys2Proof/Machine/Scalar.lean ====
section
/-! DEFINITION. The integer instructions: majors 0x00 to 0x0C (11 R219 to R229). -/

namespace Sys2Proof.Machine

/-- The effect that writes a general register from the registers before the bundle (10 R199, 11 R219). -/
def writeG (d : BitVec 5) (f : Thread → Word) (c : Ctx) (s : State) : State :=
  s.modThread c.t.cl c.t.slot (fun u => u.setG d.toNat (f c.t))

/-- The effect that writes a predicate. -/
def writeP (p : BitVec 3) (f : Thread → Bool) (c : Ctx) (s : State) : State :=
  s.modThread c.t.cl c.t.slot (fun u => u.setP p.toNat (f c.t))

/-- The effect of a long-latency result whose value is fixed at issue (03 R52). -/
def deliverLater (delay : Nat) (d : Dst) (v : Word) (c : Ctx) (s : State) : State :=
  (s.modThread c.t.cl c.t.slot (fun u => u.pend d)).addAct delay c.t.cl c.t.slot [] (.result d v none)

/-- SHL, SHR, SRA and ROL by n AND 63 (11 R222). -/
def shiftVal (k : Nat) (v : Word) (n : Nat) : Word :=
  match k with
  | 0 => v <<< (n % 64)
  | 1 => v >>> (n % 64)
  | 2 => v.sshiftRight (n % 64)
  | _ => v.rotateLeft (n % 64)

/-- Leading zero bits of an n-bit value. -/
def clzNat : Nat → Nat → Nat
  | 0, _ => 0
  | n + 1, v => if v / 2 ^ n % 2 = 1 then 0 else clzNat n v + 1

/-- Trailing zero bits of an n-bit value. -/
def ctzNat : Nat → Nat → Nat
  | 0, _ => 0
  | n + 1, v => if v % 2 = 1 then 0 else ctzNat n (v / 2) + 1

/-- One bits of an n-bit value. -/
def popNat : Nat → Nat → Nat
  | 0, _ => 0
  | n + 1, v => v % 2 + popNat n (v / 2)

/-- pos and w of a field descriptor (11 R225). -/
def bfPos (y : Word) : Nat := field y 0 6

def bfW (y : Word) : Nat := Nat.min (field y 8 7) (64 - bfPos y)

def bfxVal (v y : Word) : Word := BitVec.ofNat 64 (field v (bfPos y) (bfW y))

def bfxsVal (v y : Word) : Word :=
  if bfW y = 0 then 0 else BitVec.ofInt 64 (sextNat (bfW y) (field v (bfPos y) (bfW y)))

def bfiVal (old v y : Word) : Word :=
  (old &&& ~~~(BitVec.ofNat 64 ((2 ^ bfW y - 1) * 2 ^ bfPos y))) ||| BitVec.ofNat 64 (field v 0 (bfW y) * 2 ^ bfPos y)

/-- ADD: x + y (11 R222). -/
def execAdd (d : BitVec 5) (a : BitVec 5) (b : BitVec 5) (s : State) : Host.Outcome State Fault Refusal :=
  issueI (.add d a b) s (writeG d (fun t => t.getG a.toNat + t.getG b.toNat))

/-- SUB: x - y (11 R222). -/
def execSub (d : BitVec 5) (a : BitVec 5) (b : BitVec 5) (s : State) : Host.Outcome State Fault Refusal :=
  issueI (.sub d a b) s (writeG d (fun t => t.getG a.toNat - t.getG b.toNat))

/-- AND (11 R222). -/
def execAnd (d : BitVec 5) (a : BitVec 5) (b : BitVec 5) (s : State) : Host.Outcome State Fault Refusal :=
  issueI (.and d a b) s (writeG d (fun t => t.getG a.toNat &&& t.getG b.toNat))

/-- OR (11 R222). -/
def execOr (d : BitVec 5) (a : BitVec 5) (b : BitVec 5) (s : State) : Host.Outcome State Fault Refusal :=
  issueI (.or d a b) s (writeG d (fun t => t.getG a.toNat ||| t.getG b.toNat))

/-- XOR (11 R222). -/
def execXor (d : BitVec 5) (a : BitVec 5) (b : BitVec 5) (s : State) : Host.Outcome State Fault Refusal :=
  issueI (.xor d a b) s (writeG d (fun t => t.getG a.toNat ^^^ t.getG b.toNat))

/-- ANDN: x AND NOT y (11 R222). -/
def execAndn (d : BitVec 5) (a : BitVec 5) (b : BitVec 5) (s : State) : Host.Outcome State Fault Refusal :=
  issueI (.andn d a b) s (writeG d (fun t => t.getG a.toNat &&& ~~~(t.getG b.toNat)))

/-- ORN: x OR NOT y (11 R222). -/
def execOrn (d : BitVec 5) (a : BitVec 5) (b : BitVec 5) (s : State) : Host.Outcome State Fault Refusal :=
  issueI (.orn d a b) s (writeG d (fun t => t.getG a.toNat ||| ~~~(t.getG b.toNat)))

/-- SHL (11 R222). -/
def execShl (d : BitVec 5) (a : BitVec 5) (b : BitVec 5) (s : State) : Host.Outcome State Fault Refusal :=
  issueI (.shl d a b) s (writeG d (fun t => shiftVal 0 (t.getG a.toNat) (t.getG b.toNat).toNat))

/-- SHR (11 R222). -/
def execShr (d : BitVec 5) (a : BitVec 5) (b : BitVec 5) (s : State) : Host.Outcome State Fault Refusal :=
  issueI (.shr d a b) s (writeG d (fun t => shiftVal 1 (t.getG a.toNat) (t.getG b.toNat).toNat))

/-- SRA (11 R222). -/
def execSra (d : BitVec 5) (a : BitVec 5) (b : BitVec 5) (s : State) : Host.Outcome State Fault Refusal :=
  issueI (.sra d a b) s (writeG d (fun t => shiftVal 2 (t.getG a.toNat) (t.getG b.toNat).toNat))

/-- ROL (11 R222). -/
def execRol (d : BitVec 5) (a : BitVec 5) (b : BitVec 5) (s : State) : Host.Outcome State Fault Refusal :=
  issueI (.rol d a b) s (writeG d (fun t => shiftVal 3 (t.getG a.toNat) (t.getG b.toNat).toNat))

/-- MIN: the smaller signed value (11 R222). -/
def execMin (d : BitVec 5) (a : BitVec 5) (b : BitVec 5) (s : State) : Host.Outcome State Fault Refusal :=
  issueI (.min d a b) s (writeG d (fun t => if (t.getG a.toNat).slt (t.getG b.toNat) then t.getG a.toNat else t.getG b.toNat))

/-- MAX: the larger signed value (11 R222). -/
def execMax (d : BitVec 5) (a : BitVec 5) (b : BitVec 5) (s : State) : Host.Outcome State Fault Refusal :=
  issueI (.max d a b) s (writeG d (fun t => if (t.getG a.toNat).slt (t.getG b.toNat) then t.getG b.toNat else t.getG a.toNat))

/-- MINU: the smaller unsigned value (11 R222). -/
def execMinu (d : BitVec 5) (a : BitVec 5) (b : BitVec 5) (s : State) : Host.Outcome State Fault Refusal :=
  issueI (.minu d a b) s (writeG d (fun t => if (t.getG a.toNat).ult (t.getG b.toNat) then t.getG a.toNat else t.getG b.toNat))

/-- MAXU: the larger unsigned value (11 R222). -/
def execMaxu (d : BitVec 5) (a : BitVec 5) (b : BitVec 5) (s : State) : Host.Outcome State Fault Refusal :=
  issueI (.maxu d a b) s (writeG d (fun t => if (t.getG a.toNat).ult (t.getG b.toNat) then t.getG b.toNat else t.getG a.toNat))

/-- CSEL.T (11 R222). -/
def execCselT (d : BitVec 5) (a : BitVec 5) (b : BitVec 5) (k : BitVec 3) (s : State) : Host.Outcome State Fault Refusal :=
  issueI (.cselT d a b k) s (writeG d (fun t => if t.getP k.toNat then t.getG a.toNat else t.getG b.toNat))

/-- CSEL.F (11 R222). -/
def execCselF (d : BitVec 5) (a : BitVec 5) (b : BitVec 5) (k : BitVec 3) (s : State) : Host.Outcome State Fault Refusal :=
  issueI (.cselF d a b k) s (writeG d (fun t => if t.getP k.toNat then t.getG b.toNat else t.getG a.toNat))

/-- PMOV of the predicates to a register (11 R222). -/
def execPmovToG (d : BitVec 5) (s : State) : Host.Outcome State Fault Refusal :=
  issueI (.pmovToG d) s (writeG d (fun t => BitVec.ofNat 64 t.p.toNat))

/-- PMOV of bits [7:0] of a register to the predicates (11 R222). -/
def execPmovToP (a : BitVec 5) (s : State) : Host.Outcome State Fault Refusal :=
  issueI (.pmovToP a) s (fun c s => s.modThread c.t.cl c.t.slot (fun u => { u with p := (c.t.getG a.toNat).setWidth 8 }))

/-- MUL (11 R223). -/
def execMul (d : BitVec 5) (a : BitVec 5) (b : BitVec 5) (s : State) : Host.Outcome State Fault Refusal :=
  issueI (.mul d a b) s (writeG d (fun t => t.getG a.toNat * t.getG b.toNat))

/-- MULH: bits [127:64] of the signed product (11 R223). -/
def execMulh (d : BitVec 5) (a : BitVec 5) (b : BitVec 5) (s : State) : Host.Outcome State Fault Refusal :=
  issueI (.mulh d a b) s (writeG d (fun t => BitVec.ofInt 64 ((t.getG a.toNat).toInt * (t.getG b.toNat).toInt / (2 ^ 64 : Nat))))

/-- MULHU: bits [127:64] of the unsigned product (11 R223). -/
def execMulhu (d : BitVec 5) (a : BitVec 5) (b : BitVec 5) (s : State) : Host.Outcome State Fault Refusal :=
  issueI (.mulhu d a b) s (writeG d (fun t => BitVec.ofNat 64 ((t.getG a.toNat).toNat * (t.getG b.toNat).toNat / 2 ^ 64)))

/-- MADD (11 R223). -/
def execMadd (d : BitVec 5) (a : BitVec 5) (b : BitVec 5) (s : State) : Host.Outcome State Fault Refusal :=
  issueI (.madd d a b) s (writeG d (fun t => t.getG d.toNat + t.getG a.toNat * t.getG b.toNat))

/-- DIVU: the result is fixed at issue and delivered late (11 R223, R224). -/
def execDivu (d a b : BitVec 5) (s : State) : Host.Outcome State Fault Refusal :=
  issueI (.divu d a b) s (fun c s =>
    deliverLater Config.divide (.g d) (BitVec.ofNat 64 ((c.t.getG a.toNat).toNat / (c.t.getG b.toNat).toNat)) c s)

/-- REMU: the result is fixed at issue and delivered late (11 R223, R224). -/
def execRemu (d a b : BitVec 5) (s : State) : Host.Outcome State Fault Refusal :=
  issueI (.remu d a b) s (fun c s =>
    deliverLater Config.divide (.g d) (BitVec.ofNat 64 ((c.t.getG a.toNat).toNat % (c.t.getG b.toNat).toNat)) c s)

/-- CLZ (11 R225). -/
def execClz (d : BitVec 5) (a : BitVec 5) (s : State) : Host.Outcome State Fault Refusal :=
  issueI (.clz d a) s (writeG d (fun t => BitVec.ofNat 64 (clzNat 64 (t.getG a.toNat).toNat)))

/-- CTZ (11 R225). -/
def execCtz (d : BitVec 5) (a : BitVec 5) (s : State) : Host.Outcome State Fault Refusal :=
  issueI (.ctz d a) s (writeG d (fun t => BitVec.ofNat 64 (ctzNat 64 (t.getG a.toNat).toNat)))

/-- POPC (11 R225). -/
def execPopc (d : BitVec 5) (a : BitVec 5) (s : State) : Host.Outcome State Fault Refusal :=
  issueI (.popc d a) s (writeG d (fun t => BitVec.ofNat 64 (popNat 64 (t.getG a.toNat).toNat)))

/-- BREV (11 R225). -/
def execBrev (d : BitVec 5) (a : BitVec 5) (s : State) : Host.Outcome State Fault Refusal :=
  issueI (.brev d a) s (writeG d (fun t => (t.getG a.toNat).reverse))

/-- BSWAP (11 R225). -/
def execBswap (d : BitVec 5) (a : BitVec 5) (s : State) : Host.Outcome State Fault Refusal :=
  issueI (.bswap d a) s (writeG d (fun t => BitVec.ofNat 64 (fromLE (leBytes 8 (t.getG a.toNat).toNat).reverse)))

/-- BFX (11 R225). -/
def execBfx (d : BitVec 5) (a : BitVec 5) (b : BitVec 5) (s : State) : Host.Outcome State Fault Refusal :=
  issueI (.bfx d a b) s (writeG d (fun t => bfxVal (t.getG a.toNat) (t.getG b.toNat)))

/-- BFXS (11 R225). -/
def execBfxs (d : BitVec 5) (a : BitVec 5) (b : BitVec 5) (s : State) : Host.Outcome State Fault Refusal :=
  issueI (.bfxs d a b) s (writeG d (fun t => bfxsVal (t.getG a.toNat) (t.getG b.toNat)))

/-- BFI (11 R225). -/
def execBfi (d : BitVec 5) (a : BitVec 5) (b : BitVec 5) (s : State) : Host.Outcome State Fault Refusal :=
  issueI (.bfi d a b) s (writeG d (fun t => bfiVal (t.getG d.toNat) (t.getG a.toNat) (t.getG b.toNat)))

/-- XSHF (11 R225). -/
def execXshf (d : BitVec 5) (a : BitVec 5) (b : BitVec 5) (c : BitVec 6) (s : State) : Host.Outcome State Fault Refusal :=
  issueI (.xshf d a b c) s (writeG d (fun t => BitVec.ofNat 64 (((t.getG a.toNat).toNat * 2 ^ 64 + (t.getG b.toNat).toNat) / 2 ^ c.toNat)))

/-- ADDI (11 R226). -/
def execAddi (d : BitVec 5) (a : BitVec 5) (i : BitVec 14) (s : State) : Host.Outcome State Fault Refusal :=
  issueI (.addi d a i) s (writeG d (fun t => t.getG a.toNat + i.signExtend 64))

/-- ANDI (11 R226). -/
def execAndi (d : BitVec 5) (a : BitVec 5) (i : BitVec 14) (s : State) : Host.Outcome State Fault Refusal :=
  issueI (.andi d a i) s (writeG d (fun t => t.getG a.toNat &&& i.signExtend 64))

/-- ORI (11 R226). -/
def execOri (d : BitVec 5) (a : BitVec 5) (i : BitVec 14) (s : State) : Host.Outcome State Fault Refusal :=
  issueI (.ori d a i) s (writeG d (fun t => t.getG a.toNat ||| i.setWidth 64))

/-- XORI (11 R226). -/
def execXori (d : BitVec 5) (a : BitVec 5) (i : BitVec 14) (s : State) : Host.Outcome State Fault Refusal :=
  issueI (.xori d a i) s (writeG d (fun t => t.getG a.toNat ^^^ i.setWidth 64))

/-- SHLI (11 R226). -/
def execShli (d : BitVec 5) (a : BitVec 5) (c : BitVec 6) (s : State) : Host.Outcome State Fault Refusal :=
  issueI (.shli d a c) s (writeG d (fun t => shiftVal 0 (t.getG a.toNat) c.toNat))

/-- SHRI (11 R226). -/
def execShri (d : BitVec 5) (a : BitVec 5) (c : BitVec 6) (s : State) : Host.Outcome State Fault Refusal :=
  issueI (.shri d a c) s (writeG d (fun t => shiftVal 1 (t.getG a.toNat) c.toNat))

/-- SRAI (11 R226). -/
def execSrai (d : BitVec 5) (a : BitVec 5) (c : BitVec 6) (s : State) : Host.Outcome State Fault Refusal :=
  issueI (.srai d a c) s (writeG d (fun t => shiftVal 2 (t.getG a.toNat) c.toNat))

/-- ROLI (11 R226). -/
def execRoli (d : BitVec 5) (a : BitVec 5) (c : BitVec 6) (s : State) : Host.Outcome State Fault Refusal :=
  issueI (.roli d a c) s (writeG d (fun t => shiftVal 3 (t.getG a.toNat) c.toNat))

/-- MOVI (11 R226). -/
def execMovi (d : BitVec 5) (i : BitVec 19) (s : State) : Host.Outcome State Fault Refusal :=
  issueI (.movi d i) s (writeG d (fun _ => i.signExtend 64))

/-- MOVK (11 R226). -/
def execMovk (d : BitVec 5) (h : BitVec 2) (i : BitVec 16) (s : State) : Host.Outcome State Fault Refusal :=
  issueI (.movk d h i) s (writeG d (fun t => (t.getG d.toNat &&& ~~~(BitVec.ofNat 64 (0xFFFF * 2 ^ (16 * h.toNat)))) ||| BitVec.ofNat 64 (i.toNat * 2 ^ (16 * h.toNat))))

/-- MOVK.Z (11 R226). -/
def execMovkZ (d : BitVec 5) (h : BitVec 2) (i : BitVec 16) (s : State) : Host.Outcome State Fault Refusal :=
  issueI (.movkZ d h i) s (writeG d (fun _ => BitVec.ofNat 64 (i.toNat * 2 ^ (16 * h.toNat))))

/-- CMP (11 R228). -/
def execCmp (p c : BitVec 3) (a b : BitVec 5) (s : State) : Host.Outcome State Fault Refusal :=
  issueI (.cmp p c a b) s (writeP p (fun t => condHolds c (t.getG a.toNat) (t.getG b.toNat)))

/-- CMPI (11 R228). -/
def execCmpi (p c : BitVec 3) (a : BitVec 5) (i : BitVec 13) (s : State) : Host.Outcome State Fault Refusal :=
  issueI (.cmpi p c a i) s (writeP p (fun t => condHolds c (t.getG a.toNat) (i.signExtend 64)))

/-- PLOG (11 R229). -/
def execPlog (p o a b : BitVec 3) (s : State) : Host.Outcome State Fault Refusal :=
  issueI (.plog p o a b) s (writeP p (fun t => plogOp o (t.getP a.toNat) (t.getP b.toNat)))

end Sys2Proof.Machine
end

