-- ==== Sys2Proof/Machine/Control.lean ====
section
/-! DEFINITION. Control transfer: majors 0x18 to 0x1C (11 R230 to R232; 10 R201, R202). -/

namespace Sys2Proof.Machine

/-- The effect that moves the PC; it takes place after both words of the bundle (11 R231). -/
def State.jump (s : State) (c : Ctx) (target : Word) : State :=
  s.modThread c.t.cl c.t.slot (fun u => { u with pc := target })

/-- BPC + 4 x the sign-extended displacement (10 R201). -/
def dispTarget {n : Nat} (c : Ctx) (d : BitVec n) : Word := c.bpc + 4 * d.signExtend 64

/-- BR.T (11 R231). -/
def execBrT (p : BitVec 3) (d : BitVec 20) (s : State) : Host.Outcome State Fault Refusal :=
  issueI (.brT p d) s (fun c s => if c.t.getP p.toNat then s.jump c (dispTarget c d) else s)

/-- BR.F (11 R231). -/
def execBrF (p : BitVec 3) (d : BitVec 20) (s : State) : Host.Outcome State Fault Refusal :=
  issueI (.brF p d) s (fun c s => if c.t.getP p.toNat then s else s.jump c (dispTarget c d))

/-- JMP (11 R231). -/
def execJmp (d : BitVec 24) (s : State) : Host.Outcome State Fault Refusal :=
  issueI (.jmp d) s (fun c s => s.jump c (dispTarget c d))

/-- CALL: the link register receives NEXT (11 R231). -/
def execCall (d : BitVec 24) (s : State) : Host.Outcome State Fault Refusal :=
  issueI (.call d) s (fun c s => (writeG 7 (fun _ => c.next s) c s).jump c (dispTarget c d))

/-- JR (11 R231). -/
def execJr (a : BitVec 5) (s : State) : Host.Outcome State Fault Refusal :=
  issueI (.jr a) s (fun c s => s.jump c (c.t.getG a.toNat))

/-- CALLR: with a = 7 it jumps to the old g7 (11 R231). -/
def execCallr (a : BitVec 5) (s : State) : Host.Outcome State Fault Refusal :=
  issueI (.callr a) s (fun c s => (writeG 7 (fun _ => c.next s) c s).jump c (c.t.getG a.toNat))

/-- RET (11 R231). -/
def execRet (s : State) : Host.Outcome State Fault Refusal :=
  issueI .ret s (fun c s => s.jump c (c.t.getG 7))

/-- LOOP (11 R231). -/
def execLoop (d : BitVec 5) (i : BitVec 14) (s : State) : Host.Outcome State Fault Refusal :=
  issueI (.loop d i) s (fun c s =>
    let n := c.t.getG d.toNat
    if n = 0 then s
    else
      let s1 := writeG d (fun _ => n - 1) c s
      if n - 1 = 0 then s1 else s1.jump c (dispTarget c i))

/-- NOP (11 R232). -/
def execNop (s : State) : Host.Outcome State Fault Refusal := issueI .nop s (fun _ s => s)

end Sys2Proof.Machine
end

