-- ==== Sys2Proof/Machine/Mem.lean ====
section
/-! DEFINITION. Loads, stores, atomics, fences and cache invalidation: majors 0x20 to 0x23 (12 R249 to R264), and how a
load performs (04 R81, R87; 05 R103). -/

namespace Sys2Proof.Machine

/-! ### A thread's own writes that are still on their way -/

/-- The offset of a place in its line. -/
def Place.off (p : Place) : Nat := p.line.2

/-- The thread-class write of an act, queued or departed. -/
def Act.entry? (a : Act) : Option Entry :=
  match a.job with
  | .entry e => if e.cls = 0 then some e else none
  | .flight e => if e.cls = 0 then some e else none
  | _ => none

/-- The thread's writes to a line that entered before act `before`, oldest first. -/
def State.ownWrites (s : State) (cl slot before : Nat) (p : Place) : List Entry :=
  s.acts.filterMap (fun a =>
    if a.cl = cl ∧ a.slot = slot ∧ a.id < before then
      match a.entry? with
      | some e => if e.line.sameLine p then some e else none
      | none => none
    else none)

/-- The byte that an entry holds at an offset for an access of act number `before`: a store that merged after the access is none
of its own earlier ones (04 R87; 05 R103). -/
def Entry.byteFor (e : Entry) (bs : List (Nat × Byte)) (before off : Nat) : Option Byte :=
  match e.older.find? (fun x => decide (before < x.1) && x.2.1 == off) with
  | some x => x.2.2
  | none => (bs.find? (fun b => b.1 == off)).map (fun b => b.2)

/-- The latest write of a list to the byte at an offset of the line: its value, or none inside for an atomic (04 R87). -/
def latestByte (before off : Nat) : List Entry → Option (Option Byte)
  | [] => none
  | e :: r =>
    match latestByte before off r with
    | some x => some x
    | none =>
      match e.kind with
      | .data bs => (e.byteFor bs before off).map some
      | .atomic o sz .. => if o ≤ off ∧ off < o + sz then some none else none

/-- The byte that a load of the thread reads: its own queued byte or the byte at the point of performance; none while the
latest own write is an atomic that has not performed (04 R87). -/
def State.loadByte (s : State) (rgn knum cl slot before : Nat) (p : Place) : Option Byte :=
  match latestByte before p.off (s.ownWrites cl slot before p) with
  | some (some b) => some b
  | some none => none
  | none => some (s.readByte rgn knum p)

def State.loadBytes (s : State) (rgn knum cl slot before : Nat) (p : Place) : Nat → Option (List Byte)
  | 0 => some []
  | n + 1 =>
    match s.loadByte rgn knum cl slot before p, s.loadBytes rgn knum cl slot before (p.plus 1) n with
    | some b, some r => some (b :: r)
    | _, _ => none

/-- The value of loaded bytes (12 R251). -/
def loadValue (sext : Bool) (bs : List Byte) : Word :=
  if sext then BitVec.ofInt 64 (sextNat (8 * bs.length) (fromLE bs)) else BitVec.ofNat 64 (fromLE bs)

/-- The constant-cache line of a location (04 R81). -/
def State.cLine (s : State) (cl rgn loc : Nat) : Option (BitVec 512) :=
  match (s.clu cl).ccache.find? (fun e => e.1 == rgn && e.2.1 == loc / 64) with
  | some e => some e.2.2
  | none => none

/-- The line as an LDC finds it: whether a line is still held is open (04 R81; log 3). -/
def State.cHeld (s : State) (cl rgn loc : Nat) : Option (BitVec 512) :=
  if bitOf s.freeVal 0 then none else s.cLine cl rgn loc

/-- A miss fills the line from global memory (04 R81); the cache holds 1,024 lines (01 R13). -/
def State.cFill (s : State) (cl rgn : Nat) (pl : Place) : State :=
  match pl with
  | .global loc k _ =>
    match s.cHeld cl rgn loc with
    | some _ => s.useFree
    | none => (s.modClu cl (fun c =>
        { c with ccache := evict 1024 (fun _ => false) (c.ccache.filter (fun e => !(e.1 == rgn && e.2.1 == loc / 64))) ++ [(rgn, loc / 64, BitVec.ofNat 512 (fromLE (s.hbmRead k (loc / 64 * 64) 64)))] })).useFree.touchData pl
  | _ => s

/-- The value that a pending load returns if it may perform now (12 R252; 02 R45). -/
def State.loadNow (s : State) (t : Thread) (a : Act) : Option Word :=
  match a.job with
  | .load _ pl sz sx kind _ _ _ =>
    if !s.placeUp t.rgn t.knum pl then none
    else if kind = 2 then
      match pl with
      | .global loc _ _ =>
        match s.cHeld t.cl t.rgn loc with
        | some l => some (loadValue sx (leBytes sz (l.toNat / 2 ^ (8 * (loc % 64)))))
        | none =>
          match (s.cFill t.cl t.rgn pl).cLine t.cl t.rgn loc with
          | some l => some (loadValue sx (leBytes sz (l.toNat / 2 ^ (8 * (loc % 64)))))
          | none => none
      | _ => none
    else
      match s.loadBytes t.rgn t.knum t.cl t.slot a.id pl sz with
      | some bs => some (loadValue sx bs)
      | none => none
  | _ => none

/-- The error that a pending load meets in the bytes it reads; a byte of the thread's own queued store is no such byte. -/
def State.loadBad (s : State) (t : Thread) (a : Act) : Option Bool :=
  match a.job with
  | .load _ (.host _) _ _ _ _ _ _ => none
  | .load _ pl sz _ kind _ _ _ =>
    let own := s.ownWrites t.cl t.slot a.id pl
    if kind ≠ 2 && (List.range sz).all (fun k => (latestByte a.id (pl.off + k) own).isSome) then none
    else s.badAt t.rgn t.knum pl
  | _ => none

/-- A pending load performs: its value is fixed, or it meets an error (05 R101; 12 R259). It does not perform while it waits
for an acquire or an earlier access of the line. A load from the aperture waits for its completion. -/
def State.performLoad (s : State) (id : Nat) : State :=
  match s.act? id with
  | none => s
  | some a =>
    match a.job, s.thread? a.cl a.slot with
    | .load d pl _ _ kind ea i1 words, some t =>
      if !s.doneAll a.after then s
      else match s.loadNow t a, s.loadBad t a with
      | none, _ => s
      | some v, none =>
        let s1 := if kind = 2 then s.cFill t.cl t.rgn pl else s.touchData pl
        { s1 with acts := s1.acts.map (fun b => if b.id = id then { b with job := .result (.g d) v (some (ea, i1, words)) } else b) }
      | some _, some crc =>
        let s1 := s.touchData pl
        { (if crc then s1.countCrc (dieOf t.cl) else s1.countEcc (placeDie t.cl pl)) with
          acts := s.acts.map (fun b => if b.id = id then { b with job := .failed d (if crc then 457 else 456) ea i1 words } else b) }
    | _, _ => s

/-- Pending loads of a thread perform before a later write of the thread to their bytes (05 R103). -/
def State.fixLoads (s : State) (cl slot before : Nat) (p : Place) (n : Nat) : State :=
  (s.acts.filterMap (fun a =>
    if a.cl = cl ∧ a.slot = slot ∧ a.id < before then
      match a.job with
      | .load _ pl sz _ kind _ _ _ =>
        if kind ≠ 2 && pl.overlaps sz p n && (match pl with | .host _ => false | _ => true) then some a.id else none
      | _ => none
    else none)).foldl State.performLoad s

/-- Every pending load from the local window performs: the C scope of a release waits for it (05 R107). -/
def State.fixLocal (s : State) (cl slot : Nat) : State :=
  (s.acts.filterMap (fun a =>
    if a.cl = cl ∧ a.slot = slot then
      match a.job with
      | .load _ (.scratch _ _ false) _ _ _ _ _ _ => some a.id
      | _ => none
    else none)).foldl State.performLoad s

/-! ### Loads -/

def admitPlain : List Window := [.localW, .peer, .global, .host, .fabric]
def admitOrder : List Window := [.localW, .peer, .global, .host]
def admitAtomT : List Window := [.localW, .peer, .global, .fabric]
def admitAtomX : List Window := [.localW, .peer, .global]

/-- Delay of a load (15 R334; log 5): a load of the own window, and an LDC that finds its line, count pulses of the cluster, every other
load die pulses, with the walk that its translation waits for (21 R390). -/
def State.loadDelay (s : State) (cl rgn : Nat) : Place → Nat
  | .scratch _ _ false => Config.ldLocal
  | .scratch c _ true => if dieOf c = dieOf cl then Config.ldPeerSame else Config.ldPeerOther
  | .global l k w => s.readPulses (dieOf cl) (l / 64) k + s.walkLeft cl rgn (.global l k w)
  | .host _ => Config.aperture
  | .fabric _ => Config.aperture

/-- A pending load goes on its way, under the clock that its latency is counted in (15 R334). -/
def State.addLoad (s : State) (cl slot rgn : Nat) (after : List Nat) (pl : Place) (kind : Nat) (job : Job) : State :=
  let s1 := s.walkedAt cl rgn pl
  match pl with
  | .scratch _ _ false => s1.addAct Config.ldLocal cl slot after job
  | .global loc _ _ =>
    if kind = 2 ∧ (s.cLine cl rgn loc).isSome then s1.addAct Config.ldcHit cl slot after job
    else s1.addActDie (s1.loadDelay cl rgn pl) cl slot after job
  | _ => s1.addActDie (s1.loadDelay cl rgn pl) cl slot after job

/-- The stream of a source slot toward a package; a new one begins at 0 (12 R266; 05 R117). -/
def State.stream (s : State) (rgn cl slot target : Nat) : Stream :=
  match s.streams.find? (fun x => x.rgn == rgn && x.cl == cl && x.slot == slot && x.target == target) with
  | some x => x
  | none => { rgn := rgn, cl := cl, slot := slot, target := target, next := 0, counts := List.replicate 16 0,
              lost := false, cuts := 0 }

def State.setStream (s : State) (st : Stream) : State :=
  { s with streams := (s.streams.filter (fun x =>
      !(x.rgn == st.rgn && x.cl == st.cl && x.slot == st.slot && x.target == st.target))) ++ [st] }

/-- A remote operation takes the next SEQ of its stream and its path, and enters the fabric interface port queue with the number
of its thread's commands there (12 R266; 03 R61). -/
def State.enterFabric (s : State) (c : Ctx) (d : Option Dst) (r : Remote) : State :=
  let st := s.stream c.t.rgn c.t.cl c.t.slot r.target
  let k := nth c.t.seqs 3 0
  let r1 : Remote := { r with seq := st.next, path := st.next.toNat % 2 ^ c.t.wcode.toNat, bundle := c.bpc, rgn := c.t.rgn, knum := c.t.knum, prio := c.t.prio,
                              since := s.pulse c.t.cl, tag := k, fkey := c.r.fkey }
  let s1 := (s.setStream { st with next := st.next + 1 }).modThread c.t.cl c.t.slot (fun u => { u with seqs := u.seqs.set 3 (k + 1) })
  let s2 := match d with
    | some x => s1.modThread c.t.cl c.t.slot (fun u => u.pend x)
    | none => s1
  s2.addAct 1 c.t.cl c.t.slot (s.openAcq c.t) (.remote r1)

/-- G[a] of a remote operation: its address, RSIG's descriptor, or the first argument of RSPAWN (12 R265, R267). -/
def Remote.ga (r : Remote) : Word := if r.opc = 4 then nth r.args 0 0 else r.addr

/-- A remote operation with its check of the fabric key: 6.6.0 of 12 R267. -/
def State.fabricOp (s : State) (c : Ctx) (d : Option Dst) (r : Remote) : State :=
  if c.r.fkey = 0 then s.trapIssued c.t.cl c.t.slot ⟨432, r.ga, 0, s.cur.words, 0⟩ else s.enterFabric c d r

/-- The parts of a remote operation that an access gives; the stream gives the rest. -/
def remoteOf (opc : Nat) (addr val val2 : Word) (arg sz : Nat) (sx : Bool) (d : BitVec 5) (ofl : Bool) : Remote :=
  { opc := opc, addr := addr, target := field addr 48 15, val := val, val2 := val2, arg := arg, sz := sz, sext := sx, d := d,
    ofl := ofl, start := false, seq := 0, path := 0, bundle := 0, rgn := 0, knum := 0, bytes := [], args := [], cmd := none,
    prio := 0, since := 0, tag := 0, sent := false, resend := false, answered := none, ncount := [], fkey := 0, psn := 0, dead := false }

/-- The effect of every LD form (12 R252): the checks, then a pending load. kind 1 is LD.ACQ and 2 is LDC. -/
def loadEff (d b : BitVec 5) (z : BitVec 3) (i : BitVec 9) (kind : Nat) (c : Ctx) (s : State) : State :=
  let sz := sizeOf z.toNat
  let sx := decide (4 ≤ z.toNat)
  let a : Acc := { ea := effAddr c.t b i sz, size := sz, kind := 0, src := 1, align := sz,
                   wins := if kind = 0 then admitPlain else if kind = 1 then admitOrder else [.global], ldc := kind == 2 }
  match s.checkAccess c.t.cl c.f c.r s.cur.words a with
  | .error tr => s.accessTrap c tr
  | .ok (.fabric _) => s.fabricOp c (some (.g d)) (remoteOf 1 a.ea 0 0 0 sz sx d false)
  | .ok pl =>
    let s1 := s.modThread c.t.cl c.t.slot (fun u =>
      let u1 := u.pend (.g d)
      if kind = 1 then { u1 with acq := u1.acq ++ [s.seq] } else u1)
    s1.addLoad c.t.cl c.t.slot c.t.rgn (if kind = 2 then s.openAcq c.t else s.accessWaits c.t pl sz) pl kind (.load d pl sz sx kind a.ea a.i1 s.cur.words)

/-- LD (12 R251, R252). -/
def execLd (d b : BitVec 5) (z : BitVec 3) (i : BitVec 9) (s : State) : Host.Outcome State Fault Refusal :=
  issueI (.ld d b z i) s (loadEff d b z i 0)

/-- LD.ACQ (12 R253; 05 R109). -/
def execLdAcq (d b : BitVec 5) (z : BitVec 3) (i : BitVec 9) (s : State) : Host.Outcome State Fault Refusal :=
  issueI (.ldAcq d b z i) s (loadEff d b z i 1)

/-- LDC (12 R253; 04 R81). -/
def execLdc (d b : BitVec 5) (z : BitVec 3) (i : BitVec 9) (s : State) : Host.Outcome State Fault Refusal :=
  issueI (.ldc d b z i) s (loadEff d b z i 2)

/-! ### Stores -/

/-- A store-queue entry of bytes at a place. -/
def entryOf (cls : Nat) (pl : Place) (bs : List Byte) (release : Bool) (a : Acc) (words : Word) (rgn knum : Nat) : Entry :=
  let ob := offBytes pl.line.2 bs
  { cls := cls, line := pl.line.1, mask := maskOf ob, kind := .data ob, release := release, ea := a.ea, i1 := a.i1,
    words := words, rgn := rgn, knum := knum, ack := none, mcast := [], note := none, sealed := false, queued := true }

/-- A local write that must follow other work: the thread is not ready until it is written (12 R255). -/
def State.localAfter (s : State) (t : Thread) (after : List Nat) (e : Entry) : State :=
  (s.startWait t.cl t.slot (.release [s.seq])).addAct 1 t.cl t.slot after (.flight e)

/-- A write of the thread that has passed its checks: at the bank before the thread's next issue, with the thread's earlier loads of
the bytes before it, or into the store queue, where its entry waits for them (12 R255; 05 R103, R106). After an acquire that has not
performed it waits for it (05 R109). -/
def State.storePlace (s : State) (c : Ctx) (pl : Place) (bs : List Byte) (a : Acc) : State :=
  match pl with
  | .scratch _ _ false =>
    let s1 := s.fixLoads c.t.cl c.t.slot s.seq pl bs.length
    let after := s1.accessWaits c.t pl bs.length
    if after.isEmpty then s1.writeAt c.t.rgn c.t.knum pl bs
    else s1.localAfter c.t after (entryOf 0 pl bs false a s.cur.words c.t.rgn c.t.knum)
  | _ =>
    s.storeEnter c.t.cl c.t.slot (s.accessWaits c.t pl bs.length)
      (entryOf 0 pl bs false a s.cur.words c.t.rgn c.t.knum) none (c.t.limit c.t.swlim)

/-- The access of a store form. -/
def storeAcc (c : Ctx) (b : BitVec 5) (i : BitVec 9) (sz : Nat) (wins : List Window) : Acc :=
  { ea := effAddr c.t b i sz, size := sz, kind := 1, src := 1, align := sz, wins := wins, ldc := false }

/-- The effect of ST (12 R255). -/
def storeEff (r b : BitVec 5) (z : BitVec 2) (i : BitVec 9) (c : Ctx) (s : State) : State :=
  let sz := sizeOf z.toNat
  let a := storeAcc c b i sz admitPlain
  let v := c.t.getG r.toNat
  match s.checkAccess c.t.cl c.f c.r s.cur.words a with
  | .error tr => s.accessTrap c tr
  | .ok (.fabric _) => s.fabricOp c none (remoteOf 0 a.ea v 0 0 sz false 0 false)
  | .ok pl => s.storePlace c pl (leBytes sz v.toNat) a

/-- ST (12 R254, R255). -/
def execSt (r b : BitVec 5) (z : BitVec 2) (i : BitVec 9) (s : State) : Host.Outcome State Fault Refusal :=
  issueI (.st r b z i) s (storeEff r b z i)

/-- The effect of ST.REL at a scope (12 R255; 05 R108): in the local window the thread is not ready until it is written;
elsewhere its entry does not depart before the scope's accesses have performed. -/
def storeRelEff (r b : BitVec 5) (z o : BitVec 2) (i : BitVec 9) (c : Ctx) (s : State) : State :=
  let sz := sizeOf z.toNat
  let a := storeAcc c b i sz admitOrder
  let bs := leBytes sz (c.t.getG r.toNat).toNat
  match s.checkAccess c.t.cl c.f c.r s.cur.words a with
  | .error tr => s.accessTrap c tr
  | .ok pl =>
    match pl with
    | .scratch _ _ false =>
      let s1 := (s.fixLocal c.t.cl c.t.slot).fixLoads c.t.cl c.t.slot s.seq pl sz
      let after := s1.scopeSet c.t.cl c.t.slot o.toNat ++ s1.accessWaits c.t pl sz
      if after.isEmpty then (s1.seal c.t.cl c.t.slot).writeAt c.t.rgn c.t.knum pl bs
      else (s1.seal c.t.cl c.t.slot).localAfter c.t after (entryOf 0 pl bs true a s.cur.words c.t.rgn c.t.knum)
    | _ =>
      s.storeEnter c.t.cl c.t.slot (s.scopeSet c.t.cl c.t.slot o.toNat ++ s.accessWaits c.t pl sz)
        (entryOf 0 pl bs true a s.cur.words c.t.rgn c.t.knum) none (c.t.limit c.t.swlim)

/-- ST.REL (12 R254, R255). -/
def execStRel (r b : BitVec 5) (z o : BitVec 2) (i : BitVec 9) (s : State) : Host.Outcome State Fault Refusal :=
  issueI (.stRel r b z o i) s (storeRelEff r b z o i)

/-- The byte that a nibble store leaves (12 R256). -/
def nibble (hi : Bool) (old v : Byte) : Byte :=
  if hi then (old &&& 0x0F#8) ||| ((v &&& 0x0F#8) <<< 4) else (old &&& 0xF0#8) ||| (v &&& 0x0F#8)

/-- The effect of a nibble store, one read-modify-write at the bank (04 R80, 12 R256). To a peer window it passes through
the store queue as an atomic whose operation replaces a nibble: op 10 low, 11 high; so nothing merges with its entry, and loads of
its byte wait for it (log 78). -/
def nibbleEff (r b : BitVec 5) (i : BitVec 9) (hi : Bool) (c : Ctx) (s : State) : State :=
  let a := storeAcc c b i 1 [.localW, .peer]
  let v := c.t.getG r.toNat
  match s.checkAccess c.t.cl c.f c.r s.cur.words a with
  | .error tr => s.accessTrap c tr
  | .ok pl =>
    let e : Entry := { entryOf 0 pl [0] false a s.cur.words c.t.rgn c.t.knum with kind := .atomic pl.line.2 1 (if hi then 11 else 10) v 0 0 }
    match pl with
    | .scratch _ _ false =>
      let s1 := s.fixLoads c.t.cl c.t.slot s.seq pl 1
      let after := s1.accessWaits c.t pl 1
      if after.isEmpty then
        s1.writeByte c.t.rgn c.t.knum pl (nibble hi (s1.readByte c.t.rgn c.t.knum pl) (v.setWidth 8))
      else s1.localAfter c.t after e
    | _ => s.storeEnter c.t.cl c.t.slot (s.accessWaits c.t pl 1) e none (c.t.limit c.t.swlim)

/-- ST.NLO (12 R256). -/
def execStNlo (r b : BitVec 5) (i : BitVec 9) (s : State) : Host.Outcome State Fault Refusal :=
  issueI (.stNlo r b i) s (nibbleEff r b i false)

/-- ST.NHI (12 R256). -/
def execStNhi (r b : BitVec 5) (i : BitVec 9) (s : State) : Host.Outcome State Fault Refusal :=
  issueI (.stNhi r b i) s (nibbleEff r b i true)

/-! ### Atomics -/

/-- The new memory value of an atomic, none for no write (12 R257). Ops 10 and 11 are the nibble stores. -/
def atomicNew (op sz : Nat) (old x y : Nat) : Option Nat :=
  let w := 2 ^ (8 * sz)
  let lt := decide (sextNat (8 * sz) old < sextNat (8 * sz) x)
  match op with
  | 0 => some ((old + x) % w)
  | 1 => some (Nat.land old x)
  | 2 => some (Nat.lor old x)
  | 3 => some (Nat.xor old x)
  | 4 => some (if lt then old else x)
  | 5 => some (if lt then x else old)
  | 6 => some (Nat.min old x)
  | 7 => some (Nat.max old x)
  | 8 => some x
  | 9 => if old = x then some y else none
  | 10 => some (nibble false (BitVec.ofNat 8 old) (BitVec.ofNat 8 x)).toNat
  | _ => some (nibble true (BitVec.ofNat 8 old) (BitVec.ofNat 8 x)).toNat

/-- The read-modify-write at a point of performance: the old value and the state after it; without a write it is a read (12 R258, 05 R105;
21 R396). -/
def State.atomicAt (s : State) (rgn knum : Nat) (pl : Place) (sz op : Nat) (arg cmp : Word) : Nat × State :=
  let old := fromLE (s.readAt rgn knum pl sz)
  match atomicNew op sz old (arg.toNat % 2 ^ (8 * sz)) (cmp.toNat % 2 ^ (8 * sz)) with
  | some v => (old, s.writeAt rgn knum pl (leBytes sz v))
  | none => (old, s.touchData pl)

/-- The effect of ATOM and ACAS (12 R257, R258). `y` is G[d + 1] of ACAS. -/
def atomEff (d b : BitVec 5) (z : BitVec 1) (scope : BitVec 2) (op : Nat) (y : Word) (c : Ctx) (s : State) : State :=
  let sz := if z.toNat = 0 then 4 else 8
  let rel := scope.toNat
  let a : Acc := { ea := c.t.getG b.toNat, size := sz, kind := 2, src := 1, align := sz,
                   wins := if rel = 0 then admitAtomT else admitAtomX, ldc := false }
  let x := c.t.getG d.toNat
  let cl := c.t.cl
  let slot := c.t.slot
  match s.checkAccess cl c.f c.r s.cur.words a with
  | .error tr => s.accessTrap c tr
  | .ok (.fabric _) => s.fabricOp c (some (.g d)) (remoteOf 2 a.ea x y op sz false d false)
  | .ok pl =>
    let after := s.scopeSet cl slot rel ++ s.accessWaits c.t pl sz
    match pl with
    | .scratch _ _ false =>
      if after.isEmpty then
        match s.badAt c.t.rgn c.t.knum pl with
        | some crc =>
          ((s.countRead c.r cl crc a.ea).modThread cl slot (fun u => u.pend (.g d))).addAct Config.atomLocal cl slot []
            (.failed d (if crc then 457 else 456) a.ea a.i1 s.cur.words)
        | none =>
          let r := s.atomicAt c.t.rgn c.t.knum pl sz op x y
          (r.2.modThread cl slot (fun u => u.pend (.g d))).addAct Config.atomLocal cl slot []
            (.result (.g d) (BitVec.ofNat 64 r.1) none)
      else
        (s.modThread cl slot (fun u =>
          let u1 := u.pend (.g d)
          if rel = 0 then u1 else { u1 with acq := u1.acq ++ [s.seq] })).addAct Config.atomLocal cl slot
          after (.atomic d pl sz op x y a.ea a.i1 s.cur.words)
    | _ =>
      s.storeEnter cl slot after
        { entryOf 0 pl (leBytes sz 0) (rel ≠ 0) a s.cur.words c.t.rgn c.t.knum with
          kind := .atomic pl.line.2 sz op x y d } (some d) (c.t.limit c.t.swlim)

/-- ATOM (12 R257, R258). -/
def execAtom (d b : BitVec 5) (z : BitVec 1) (c : BitVec 2) (o : BitVec 5) (s : State) : Host.Outcome State Fault Refusal :=
  issueI (.atom d b z c o) s (atomEff d b z c o.toNat 0)

/-- ACAS: d is even, and G[d + 1] is the value written on a match (12 R257). -/
def execAcas (d : BitVec 4) (b : BitVec 5) (z : BitVec 1) (c : BitVec 2) (s : State) : Host.Outcome State Fault Refusal :=
  issueI (.acas d b z c) s (fun x s => atomEff (d ++ 0#1) b z c 9 (x.t.getG (2 * d.toNat + 1)) x s)

/-! ### Fences and cache invalidation -/

/-- The half of the latch that a fence at a scope reports first (12 R260, R261; of two failures of one TCTXW the memory half's: log 77). -/
def latchTrap (t : Thread) (scope : Nat) (words : Word) : Option (Trap × Bool) :=
  let mem := decide (2 ≤ scope) && t.errMem.n != 0
  let fab := scope == 4 && t.errFab.n != 0
  let tr (h : ErrHalf) : Trap :=
    ⟨h.cause.toNat, h.i0, (h.i1 &&& 0x0000FFFFFFFFFFFF#64) ||| BitVec.ofNat 64 (h.n.toNat * 2 ^ 48), words, h.i3⟩
  if mem && (!fab || t.errMem.ord ≤ t.errFab.ord) then some (tr t.errMem, false)
  else if fab then some (tr t.errFab, true)
  else none

/-- A fence has performed: the thread goes on, or traps with the latched failure, which clears that half (12 R260). -/
def State.fenceDone (s : State) (cl slot scope : Nat) (words : Word) : State :=
  match s.thread? cl slot with
  | none => s
  | some t =>
    match latchTrap t scope words with
    | none => s.endWait cl slot
    | some (tr, fab) =>
      ((s.modThread cl slot (fun u =>
        if fab then { u with wait := .none, errFab := { u.errFab with n := 0, cause := 0, i0 := 0, i1 := 0, i3 := 0 } }
        else { u with wait := .none, errMem := { u.errMem with n := 0, cause := 0, i0 := 0, i1 := 0, i3 := 0 } }))).trapIssued cl slot tr

/-- FENCE (12 R263; 05 R107, R110, R118): with nothing to wait for it performs at once. -/
def execFence (c : BitVec 3) (s : State) : Host.Outcome State Fault Refusal :=
  issueI (.fence c) s (fun x s =>
    let s1 := (if c.toNat = 0 then s else s.fixLocal x.t.cl x.t.slot).seal x.t.cl x.t.slot
    let after := s1.scopeSet x.t.cl x.t.slot c.toNat
    if after.isEmpty then s1.fenceDone x.t.cl x.t.slot c.toNat s.cur.words
    else s1.startWait x.t.cl x.t.slot (.fence c.toNat after s.cur.words))

/-- ICINV.I: no line of the cluster's instruction cache is held any more; pinned lines stay pinned and are fetched again before
a bundle issues from them (12 R264; 03 R67). -/
def execIcinvI (s : State) : Host.Outcome State Fault Refusal :=
  issueI .icinvI s (fun c s => s.modClu c.t.cl (fun k =>
    { k with icache := k.icache.filterMap (fun e => if e.2.2.1 then some (e.1, e.2.1, true, none) else none) }))

/-- ICINV.C (12 R264). -/
def execIcinvC (s : State) : Host.Outcome State Fault Refusal :=
  issueI .icinvC s (fun c s => s.modClu c.t.cl (fun k => { k with ccache := [] }))

end Sys2Proof.Machine
end

