-- ==== Sys2Proof/Machine/Lane.lean ====
section
/-! DEFINITION. The write lane and the events by which accesses take effect: departures, windows, performances, results,
late failures and fences (04 R83 to R92, R97 to R100; 05 R101; 12 R259 to R261, R263). -/

namespace Sys2Proof.Machine

/-! ### Allowance and status (04 R84, R97, R98) -/

/-- The effective allowance of a region in a window: a reload's takes effect at the next window. -/
def Region.allowIn (r : Region) (w : Nat) : Nat := if w < r.allowFrom then r.allowWas else r.allow

/-- The allowance A of a cluster: the largest effective allowance among the regions activated on it. -/
def State.allowance (s : State) (cl : Nat) : Nat :=
  s.regions.foldl (fun m r => if inSet r.clset cl then Nat.max m (r.allowIn (s.now / 1024)) else m) 0

/-- Threads blocked on the store queue: a descriptor instruction whose writes have found no entry blocks its thread too
(14 R327). -/
def State.blockedStores (s : State) (cl : Nat) : Nat :=
  (s.threads.filter (fun t => t.cl == cl &&
    (match t.wait with
     | .store .. => true
     | .desc after _ _ => (s.sqEntries cl).any (fun x => !x.2.queued && after.contains x.1.id)
     | _ => false))).length

/-- SQSTAT (R97). -/
def State.sqstat (s : State) (cl : Nat) : Word :=
  let n (k : Nat) : Nat := s.sqCount cl k
  BitVec.ofNat 64 ((64 - (n 0 + n 1 + n 2)) + 2 ^ 8 * n 0 + 2 ^ 16 * n 1 + 2 ^ 24 * n 2 + 2 ^ 32 * s.blockedStores cl)

/-- WLSTAT (R98). -/
def State.wlstat (s : State) (cl : Nat) : Word :=
  BitVec.ofNat 64 ((s.clu cl).credit + 2 ^ 24 * s.allowance cl + 2 ^ 48 * (s.now % 1024))

/-! ### Host writes (22 R401, R402) -/

/-- The SMC's boot has not failed: blocks other than the mailbox answer (22 R413). -/
def State.bootOk (s : State) : Bool := field s.bootstat 13 3 == 0

/-- A host physical address range inside one line of the device's memory, and its first PA. -/
def State.hdmPa (s : State) (hpa n : Nat) : Option Nat :=
  if s.hdmBase ≤ hpa ∧ hpa - s.hdmBase < 2 ^ 39 ∧ hpa % 64 + n ≤ 64 ∧ 6 ≤ field s.bootstat 0 3 ∧ s.bootOk then some (hpa - s.hdmBase) else none

/-- The key ID that the host's accesses use; none where HOSTMEM.KEY names an empty slot (22 R401). -/
def State.hostKey (s : State) : Option Nat := if (s.keyOf (field s.hostmem 14 10)).isSome then some (field s.hostmem 14 10) else none

/-- The HBM location of a host access. -/
def State.hostLoc (s : State) (pa : Nat) : Nat := place (field s.hostmem 0 3) pa

/-- The charge of a host write: a quarter line is 16 bytes (R85). -/
def hostCharge (pa n : Nat) : Nat := if n = 0 then 0 else 16 * ((pa % 64 + n - 1) / 16 + 1 - pa % 64 / 16)

/-- The location and charge of a waiting host write. -/
def State.hostWriteAt (s : State) (x : Nat × List Byte) : Option (Nat × Nat) :=
  match s.hdmPa x.1 x.2.length with
  | some pa => some (s.hostLoc pa, hostCharge pa x.2.length)
  | none => none

/-- The charge of the first host write that waits for the surplus tier of a die without a reserve; 0 for none (22 R402). -/
def State.hostOffer (s : State) (die : Nat) : Nat :=
  if (s.die die).hostres ≠ 0 then 0
  else match s.hostWrites.findSome? (fun x => match s.hostWriteAt x with
      | some (loc, c) => if locDie loc = die ∧ !s.walkHolds (loc / 64) then some c else none
      | none => none) with
    | some c => c
    | none => 0

/-! ### Departure (R85, R86, R89) -/

/-- The lines that an entry writes: one, or for a CPYM line one on each further cluster too (14 R316). -/
def Entry.lines (e : Entry) : List Place :=
  match e.line with
  | .scratch _ o _ => e.line :: e.mcast.map (fun c => .scratch c o true)
  | l => [l]

/-- Two entries write a common line. -/
def Entry.meets (e f : Entry) : Bool := e.lines.any (fun x => f.lines.any (fun y => x.meets y))

/-- Two entries write a common byte: accesses of one location (05 R103). -/
def Entry.clashes (e f : Entry) : Bool := e.meets f && e.mask &&& f.mask != 0

/-- The oldest entry of a class in a queue, unless an entry of its line stands before it; `seen` are the entries before
(R87, R89). -/
def oldestOf (cls : Nat) (seen : List Entry) : List (Act × Entry) → Option (Act × Entry)
  | [] => none
  | (a, e) :: r =>
    if e.cls = cls then (if seen.any (fun f => f.meets e) then none else some (a, e)) else oldestOf cls (seen ++ [e]) r

/-- The oldest entry of a class, if it is eligible (R89; 05 R108). -/
def State.eligible (s : State) (cl cls : Nat) : Option (Act × Entry) :=
  match oldestOf cls [] ((s.sqEntries cl).filter (fun x => x.2.queued)) with
  | none => none
  | some (a, e) => if s.doneAll a.after then some (a, e) else none

/-- The class whose turn it is, skipping classes without an eligible entry (R89). -/
def State.turnOf (s : State) (cl : Nat) : Option (Nat × Act × Entry) :=
  let r := (s.clu cl).rot
  match s.eligible cl (r % 3) with
  | some x => some (r % 3, x.1, x.2)
  | none =>
    match s.eligible cl ((r + 1) % 3) with
    | some x => some ((r + 1) % 3, x.1, x.2)
    | none =>
      match s.eligible cl ((r + 2) % 3) with
      | some x => some ((r + 2) % 3, x.1, x.2)
      | none => none

/-- The die that an entry is bound for (R86). -/
def entryDie (cl : Nat) (e : Entry) : Nat :=
  match e.line with
  | .scratch c _ _ => dieOf c
  | .global l _ _ => locDie l
  | _ => dieOf cl

/-- GC toward a die in this die pulse (R86). -/
def State.gcNow (s : State) (die dst : Nat) : Nat :=
  let d := s.die die
  Nat.min (nth d.gc dst 0 + 454 * (s.now + 1 - d.gcAt)) 1024

/-- The cluster takes part in the surplus tier: not every region activated on it is host-assisted there (22 R407). -/
def State.takesSurplus (s : State) (cl : Nat) : Bool :=
  let rs := s.regions.filter (fun r => inSet r.clset cl)
  rs.isEmpty || rs.any (fun r => field r.modes 6 2 != 2)

/-- The clusters of a die with queued stores, each once. -/
def State.laneClusters (s : State) (die : Nat) : List Nat :=
  (s.acts.filterMap (fun a => match a.job with | .entry _ => if dieOf a.cl = die then some a.cl else none | _ => none)).eraseDups

/-- Bytes that the lane of a die can still admit in this die pulse (R85). -/
def State.laneLeft (s : State) (die : Nat) : Nat := if (s.die die).laneAt = s.now then 1536 - (s.die die).laneUsed else 1536

/-- The entry that a cluster offers to the lane in this die pulse: one a pulse, with room on the Gallery lane (R85, R86). -/
def State.offers (s : State) (cl : Nat) : Option (Nat × Act × Entry) :=
  match s.turnOf cl with
  | none => none
  | some (k, a, e) =>
    let dst := entryDie cl e
    if (s.clu cl).depAt ≤ s.now && (dst == dieOf cl || e.charge ≤ s.gcNow (dieOf cl) dst) then some (k, a, e) else none

def State.offered (s : State) (cl : Nat) : Nat := match s.offers cl with | some x => x.2.2.charge | none => 0

/-- A cluster whose entry the credit tier can admit now. -/
def State.inCredit (s : State) (cl : Nat) : Bool :=
  (s.offers cl).isSome && s.offered cl ≤ (s.clu cl).credit && s.offered cl ≤ s.laneLeft (dieOf cl)

/-- A cluster that the rounds of the surplus tier visit. -/
def State.inSurplus (s : State) (cl : Nat) : Bool := (s.offers cl).isSome && !s.inCredit cl && s.takesSurplus cl

/-- What one visit adds to a cluster's deficit. -/
def State.visitGain (s : State) (cl : Nat) : Nat := Nat.max 1 ((s.allowance cl + 1023) / 1024)

/-- The visits after which a cluster's deficit covers its entry, and its place in the round; the host's writes take part as one
more cluster with A = 24,576, whose place follows cluster 63 (22 R402; DESIGN CHOICE, log 51). -/
def State.visits (s : State) (cl : Nat) : Nat :=
  Nat.max 1 ((s.offered cl - (s.clu cl).deficit + s.visitGain cl - 1) / s.visitGain cl)
def State.placeFrom (s : State) (die k : Nat) : Nat := (k + 129 - (s.die die).served) % 65
def State.roundPlace (s : State) (cl : Nat) : Nat := s.placeFrom (dieOf cl) (cl % 64)
def State.hostVisits (s : State) (die : Nat) : Nat := Nat.max 1 ((s.hostOffer die - (s.die die).hostDef + 23) / 24)
def State.hostPlace (s : State) (die : Nat) : Nat := s.placeFrom die 64

/-- The first of a list by an order. -/
def firstBy (lt : Nat → Nat → Bool) : List Nat → Option Nat
  | [] => none
  | x :: r =>
    match firstBy lt r with
    | none => some x
    | some y => if lt y x then some y else some x

/-- The first cluster of the credit tier: the largest CREDIT, ties to the lowest (R85). -/
def State.creditFirst (s : State) (die : Nat) : Option Nat :=
  firstBy (fun x y => decide ((s.clu y).credit < (s.clu x).credit) || ((s.clu x).credit == (s.clu y).credit && decide (x < y)))
    ((s.laneClusters die).filter s.inCredit)

/-- The cluster that the rounds of the surplus tier let depart first (R85). -/
def State.roundFirst (s : State) (die : Nat) : Option Nat :=
  firstBy (fun x y => decide (s.visits x < s.visits y) || (s.visits x == s.visits y && decide (s.roundPlace x < s.roundPlace y)))
    ((s.laneClusters die).filter (fun c => s.inSurplus c && decide (s.offered c ≤ s.laneLeft die)))

/-- A waiting host write is the one that the rounds let depart first (22 R402). -/
def State.hostFirst (s : State) (die : Nat) : Bool :=
  s.hostOffer die != 0 && decide (s.hostOffer die ≤ s.laneLeft die) && (s.creditFirst die).isNone &&
  (match s.roundFirst die with
   | none => true
   | some c => decide (s.hostVisits die < s.visits c) || (s.hostVisits die == s.visits c && decide (s.hostPlace die < s.roundPlace c)))

/-- The cluster whose entry the lane of a die admits next in this die pulse (R85): of the credit tier, else of the surplus tier
unless a host write comes first. -/
def State.laneChoice (s : State) (die : Nat) : Option Nat :=
  match s.creditFirst die with
  | some c => some c
  | none => if s.hostFirst die then none else s.roundFirst die

/-- An entry may leave in this die pulse: its cluster is the one that the lane serves next (R85, R86). -/
def State.mayDepart (s : State) (cl : Nat) : Option (Nat × Act × Entry) :=
  if s.laneChoice (dieOf cl) = some cl then s.offers cl else none

/-- The deficits of a die after n rounds of the surplus tier that end with the visit of a place: every visited cluster's gains, and
that of the host while one of its writes waits. -/
def State.rounds (s : State) (die n place : Nat) : State :=
  let k (p : Nat) : Nat := if p ≤ place then n else n - 1
  (((s.laneClusters die).filter s.inSurplus).foldl (fun t c =>
    t.modClu c (fun x => { x with deficit := x.deficit + s.visitGain c * k (s.roundPlace c) })) s).modDie die
      (fun d => if s.hostOffer die = 0 then d else { d with hostDef := d.hostDef + 24 * k (s.hostPlace die) })

/-- Bytes that the lane of a die admits in this die pulse. -/
def State.useLane (s : State) (die charge : Nat) : State :=
  s.modDie die (fun d => { d with laneUsed := 1536 - s.laneLeft die + charge, laneAt := s.now })

/-- The lane after it has admitted an entry of a cluster (R85): from its CREDIT, or from its deficit after the rounds that this
took. -/
def State.laneTakes (s : State) (cl charge : Nat) : State :=
  let die := dieOf cl
  if s.inCredit cl then (s.useLane die charge).modClu cl (fun k => { k with credit := k.credit - charge })
  else
    (((s.rounds die (s.visits cl) (s.roundPlace cl)).useLane die charge).modClu cl (fun k => { k with deficit := k.deficit - charge })).modDie
      die (fun d => { d with served := cl % 64 })

/-- The lane after it has admitted a host write in the surplus tier; with none left to wait the host's deficit is cleared. -/
def State.laneTakesHost (s : State) (die charge : Nat) : State :=
  ((s.rounds die (s.hostVisits die) (s.hostPlace die)).useLane die charge).modDie die (fun d => { d with hostDef := d.hostDef - charge, served := 64 })

/-- A deficit is cleared when its cluster has no eligible entry (R85). -/
def State.clearDeficits (s : State) (die : Nat) : State :=
  { s with clus := s.clus.map (fun x => if dieOf x.1 = die ∧ x.2.deficit ≠ 0 ∧ (s.turnOf x.1).isNone then (x.1, { x.2 with deficit := 0 }) else x) }

/-- GC after a departure toward another die. -/
def State.spendGc (s : State) (die dst charge : Nat) : State :=
  if dst = die then s
  else
    let g := (List.range 4).map (fun k => if k = dst then s.gcNow die k - charge else s.gcNow die k)
    s.modDie die (fun d => { d with gc := g, gcAt := s.now + 1 })

/-- A departed entry's writes in flight, one for each line, under the numbers that follow the entry's. -/
def flights (b : Act) (e : Entry) : List Act :=
  e.lines.zipIdx.map (fun x => { b with id := b.id + x.2, job := .flight { e with line := x.1, mcast := [] } })

/-- An entry leaves the queue: its lines go on their way in its place among the thread's and the cluster's work, which keeps the
order in which writes entered (R87). -/
def State.sendOff (s : State) (a : Act) (e : Entry) : State :=
  { s with acts := s.acts.flatMap (fun b => if b.id = a.id then flights { a with due := s.now + Config.storeTransit, cyc := 0 } e else [b]) }

/-- STORE_ENTRY_DEPARTURE (R85 to R89): the entry leaves, and its place is granted to a waiting request. -/
def execStoreEntryDeparture (cl : Nat) (s : State) : Host.Outcome State Fault Refusal :=
  match s.mayDepart cl with
  | none => .next s
  | some (k, a, e) =>
    let s1 := ((s.laneTakes cl e.charge).modClu cl (fun c => { c with rot := (k + 1) % 3, depAt := s.now + 1 })).spendGc (dieOf cl)
      (entryDie cl e) e.charge
    .next (((s1.sendOff a e).sqGrant cl k).clearDeficits (dieOf cl))

/-- The write window of this die pulse has not begun on a die (R84). -/
def State.windowDue (s : State) (die : Nat) : Bool := (s.die die).win != s.now / 1024 + 1

/-- A die's window begins: every cluster of it has its whole allowance as credit and no deficit, the host its whole reserve
(04 R84, R85; 22 R402). -/
def State.beginWindow (s : State) (die : Nat) : State :=
  ((List.range 64).foldl (fun s k =>
    let cl := 64 * die + k
    if s.allowance cl = (s.clu cl).credit ∧ (s.clu cl).deficit = 0 then s
    else s.modClu cl (fun c => { c with credit := s.allowance cl, deficit := 0 })) s).modDie die
      (fun d => { d with win := s.now / 1024 + 1, hostUsed := 0, hostDef := 0 })

/-- WRITE_WINDOW_START (R85; 22 R402), once for each window: credit renews, deficits clear and the host reserve is whole
again. -/
def execWriteWindowStart (die : Nat) (s : State) : Host.Outcome State Fault Refusal :=
  if s.windowDue die then .next (s.beginWindow die) else .next s

/-- The trap of a store that found no entry within SWLIM (R90). -/
def State.storeExpired (s : State) (t : Thread) (ea : Word) : State :=
  s.trapIssued t.cl t.slot ⟨266, ea, s.sqstat t.cl &&& 0xFFFFFFFF#64, s.wlstat t.cl &&& 0x03FFFFFFFFFFFFFF#64, t.swlim.setWidth 64⟩

/-- SWLIM_EXPIRY (R90; 14 R327). -/
def execSwlimExpiry (cl slot : Nat) (s : State) : Host.Outcome State Fault Refusal :=
  match s.thread? cl slot with
  | none => .next s
  | some t =>
    if s.frozen t then .next s
    else match t.wait with
    | .store e _ lim _ =>
      if lim = 0 then .next s else .next (s.storeExpired t e.ea)
    | .desc after lim _ =>
      match (s.sqEntries cl).find? (fun x => after.contains x.1.id && !x.2.queued) with
      | some x =>
        if lim = 0 then .next s
        else .next (({ s with acts := s.acts.filter (fun a =>
          !(after.contains a.id && (match a.job with | .entry e => !e.queued | _ => false))) } : State).storeExpired t x.2.ea)
      | none => .next s
    | _ => .next s

/-! ### Performance (05 R101) -/

/-- The write-error latch of a thread counts a failure and keeps the first one's words, and as `ord` its place among the
failures (12 R260, R261). -/
def ErrHalf.count (h : ErrHalf) (cause : Nat) (i0 i1 i3 : Word) (ord : Nat) : ErrHalf :=
  if h.n = 0 then { n := 1, cause := BitVec.ofNat 9 cause, i0 := i0, i1 := i1, i3 := i3, ord := ord }
  else { h with n := if h.n = 0xFFFF#16 then h.n else h.n + 1 }

/-- A CRC mismatch of an inbound write toward HBM: a record that names no thread, and no answer (7.6.1 of 19 R362). -/
def State.inboundFailed (s : State) (a : Act) (e : Entry) (p : Packet) (loc : Word) : State :=
  s.raise { cause := 497, parked := false, nothread := true, pstate := s.pstate a.cl, rgn := e.rgn, lcl := a.cl, slot := 0,
            knum := 0xFF, pc := 0, i0 := loc, i1 := BitVec.ofNat 64 (field p.stream 0 15), i2 := 0, i3 := 1 }

/-- A write failure of the memory half: a record that parks nothing, and the thread's latch (12 R260). -/
def State.writeFailed (s : State) (a : Act) (e : Entry) (tr : Trap) : State :=
  let s1 := s.report a.cl a.slot e.rgn e.knum tr
  if e.cls = 0 then
    (s1.modThread a.cl a.slot (fun t => { t with errMem := t.errMem.count tr.cause tr.i0 tr.i1 tr.i3 s1.seq })).bump
  else s1

/-- The source of a store-queue entry, for 7.s.1 (04 R100). -/
def entrySource (e : Entry) : Nat := if e.cls = 0 then 1 else if majorAt e.words 0 = 0x28 then 2 else if majorAt e.words 0 = 0x30 then 3 else 4

/-- Writes bytes at their offsets of a line. -/
def State.writeLine (s : State) (rgn knum : Nat) (line : Place) : List (Nat × Byte) → State
  | [] => s
  | (o, b) :: r => (s.writeByte rgn knum (line.plus o) b).writeLine rgn knum line r

/-- An inbound write takes effect; its answer follows (12 R268). An atomic whose data is in error writes nothing and is rejected
(6.6.6 of 12 R273). -/
def State.performInbound (s : State) (a : Act) (e : Entry) (p : Packet) : State :=
  match e.kind with
  | .data bs =>
    let s1 := (s.writeLine e.rgn e.knum e.line bs).dropAct a.id
    { s1 with settled := s1.settled ++ [(p, 0, 0)] }
  | .atomic off sz op arg cmp _ =>
    match s.badAt e.rgn e.knum (e.line.plus off) with
    | some crc =>
      let s1 := if crc then s.countCrc (placeDie a.cl e.line) else s.countEcc (placeDie a.cl e.line)
      { s1.dropAct a.id with settled := s1.settled ++ [(p, if crc then 457 else 456, 0)] }
    | none =>
      let r := s.atomicAt e.rgn e.knum (e.line.plus off) sz op arg cmp
      let s1 := r.2.dropAct a.id
      { s1 with settled := s1.settled ++ [(p, 0, r.1)] }

/-- Default delay of a signal (15 R334; log 5). -/
def signalDelay (frm dst : Nat) : Nat :=
  if frm = dst then Config.signalLocal else if dieOf frm = dieOf dst then Config.signalDie else Config.signalOther

/-- A doubleword of the MSI-X table: dwords 2v and 2v + 1 hold the address, the data and the control of vector v, whose mask, bit 32 of
the second, is set at reset (22 R400; PRESUMED, log 15). -/
def State.msixDword (s : State) (k : Nat) : Word := getK s.msixTable k (if k % 2 = 1 then 0x100000000#64 else 0)

/-- A vector is masked. -/
def State.msixMasked (s : State) (v : Nat) : Bool := bitOf (s.msixDword (2 * v + 1)) 32

/-- The device sends an MSI-X message, or keeps it pending while its vector is masked (19 R369; 22 R400). -/
def State.msix (s : State) (vector : Nat) : State :=
  let v := vector % 2048
  if s.msixMasked v then (if s.msixPend.contains v then s else { s with msixPend := s.msixPend ++ [v] })
  else { s with hostOut := s.hostOut ++ [.msix v] }

/-- A signal of a fault semaphore that cannot be delivered is held (19 R366). -/
def State.holdSignal (s : State) (cl owner : Nat) : State :=
  s.modRegion owner (fun r => { r with held := Nat.min (r.held + 1) 65535, heldCls := setBit r.heldCls cl true })

/-- A fault record of a cluster has been written: the fault semaphore is signalled, the signal is held, or the host is told; a
record of a page fault also tells the host where the region's mode says so (19 R365, R366, R369; 22 R407). -/
def State.recordDone (s : State) (cl : Nat) (n : RecordNote) : State :=
  let s1 :=
    if n.host then s.msix n.msiv
    else match s.frame? n.fsemCl n.owner n.fsemK with
      | some f =>
        if n.fsemS < f.hdr.ksems then
          s.addAct (signalDelay cl n.fsemCl) cl 512 [] (.signal n.fsemCl n.owner n.fsemK n.fsemS 1 false)
        else s.holdSignal cl n.owner
      | none => s.holdSignal cl n.owner
  if n.page then s1.msix (n.msiv + 1) else s1

/-- The error that a thread's atomic meets in the bytes it reads at its point of performance (12 R259). -/
def State.atomicBad (s : State) (e : Entry) : Option Bool :=
  match e.kind with
  | .atomic off _ op _ _ _ => if op < 10 && e.ack.isNone then s.badAt e.rgn e.knum (e.line.plus off) else none
  | .data _ => none

/-- The wait of a local store that had to follow other work ends as it is written (12 R255). -/
def State.endRelease (s : State) (a : Act) : State :=
  match s.thread? a.cl a.slot with
  | some t => if t.wait = .release [a.id] then s.endWait a.cl a.slot else s
  | none => s

/-- A departed write takes effect at its point of performance. An atomic's old value goes on its way to the register. -/
def State.performWrite (s : State) (a : Act) (e : Entry) : State :=
  match e.ack, e.kind with
  | some p, _ => s.performInbound a e p
  | none, .data bs =>
    let s1 := (s.writeLine e.rgn e.knum e.line bs).dropAct a.id
    match e.note with
    | some n => s1.recordDone a.cl n
    | none =>
      s1.endRelease a
  | none, .atomic off sz op arg cmp d =>
    let r := s.atomicAt e.rgn e.knum (e.line.plus off) sz op arg cmp
    let back := s.loadDelay a.cl e.rgn (e.line.plus off) + Config.atomExtra - Config.storeTransit
    if op < 10 then
      { r.2 with acts := r.2.acts.map (fun b =>
          if b.id = a.id then
            { b with job := .result (.g d) (BitVec.ofNat 64 r.1) none, due := s.now + back, cyc := 0 }
          else b) }
    else (r.2.dropAct a.id).endRelease a

/-- A write to the own window of its cluster, which passes no store queue. -/
def Entry.own (e : Entry) : Bool := match e.line with | .scratch _ _ false => true | _ => false

/-- An older write of the same cluster to a byte of the line is still on its way: writes to a location keep the order in which they
left (R87; 05 R103, R106), and those to the own window that of their thread (13 R280). -/
def State.olderFlight (s : State) (a : Act) (e : Entry) : Bool :=
  (s.acts.takeWhile (fun b => b.id != a.id)).any (fun b => b.cl == a.cl &&
    (b.slot == a.slot || !(e.own || (match b.job with | .flight f => f.own | _ => false))) &&
    !b.after.contains a.id && (match b.job with | .flight f => f.clashes e | .entry f => f.queued && f.clashes e | _ => false))

/-- A departed write may perform now (R87; 02 R45; 21 R390). -/
def State.mayPerform (s : State) (a : Act) : Option Entry :=
  match a.job with
  | .flight e =>
    if s.doneAll a.after && !s.olderFlight a e && s.placeUp e.rgn e.knum e.line && !s.heldByWalk a e then some e else none
  | _ => none

/-- A late failure: nothing is written, the pending bit clears, and the thread is told before its next issue (12 R259). -/
def State.failLate (s : State) (a : Act) (d : BitVec 5) (tr : Trap) : State :=
  ((s.modThread a.cl a.slot (fun t =>
    { t.unpend (.g d) with late := t.late ++ [{ ord := a.id, cause := tr.cause, i0 := tr.i0, i1 := tr.i1, i2 := tr.i2, i3 := tr.i3, vector := false }] })).dropAct
      a.id).deliverLate a.cl a.slot

/-- The information words of a late cause (12 R259). -/
def lateTrap (cause : Nat) (status : BitVec 16) (ea i1 words : Word) : Trap :=
  ⟨cause, ea, i1, words, if cause = 457 then 1 else if cause = 143 then BitVec.ofNat 64 (2 ^ 63 + status.toNat) else 0⟩

/-- A late cause is counted: an uncorrectable error on the die of the location, a CRC mismatch where the data is delivered
(04 R99, R100; 25 R447). -/
def State.countLate (s : State) (cl cause : Nat) (pl : Place) : State :=
  if cause = 456 then s.countEcc (placeDie cl pl) else s.countCrc (dieOf cl)

/-- A departed write that must wait for its thread's region to be resident: the report of its failure names the thread. -/
def State.waitsForThread (s : State) (a : Act) (e : Entry) : Bool := e.ack.isNone && e.cls == 0 && s.absent a

/-- A line of the save block that is being written on a cluster fails: its header, the last line, is not written any more (19 R374,
R375). -/
def State.saveFails (s : State) (cl : Nat) : State :=
  let s1 := s.modClu cl (fun c => { c with saveBad := true })
  match (s.clu cl).saving.getLast? with
  | some id => s1.dropAct id
  | none => s1

/-- A write that meets a CRC mismatch where it is delivered: nothing is written, and the mismatch is counted. Toward HBM it is
reported (R100): an inbound write's record names no thread, and an inbound atomic is rejected (6.6.6 of 12 R273). A fault
record is tried again (19 R366), a save block fails (19 R374), and a thread's atomic fails late (12 R259). -/
def State.writeMismatch (s : State) (a : Act) (e : Entry) : State :=
  let s1 := s.countCrc (placeDie a.cl e.line)
  let s2 := s1.dropAct a.id
  match e.ack, e.kind with
  | some p, .atomic .. => { s2 with settled := s2.settled ++ [(p, 457, 0)] }
  | some p, .data _ => s2.inboundFailed a e p (BitVec.ofNat 64 e.line.lineAddr)
  | none, .atomic _ _ op _ _ d =>
    if op < 10 then s1.failLate a d (lateTrap 457 0 e.ea e.i1 e.words)
    else s2
  | none, .data _ =>
    if e.note.isSome then s1
    else if e.cls = 2 then s2.saveFails a.cl
    else match e.line with
      | .global .. => s2.writeFailed a e ⟨448 + 8 * entrySource e + 1, BitVec.ofNat 64 e.line.lineAddr, e.i1, e.words, 1⟩
      | _ => s2

/-- WRITE_PERFORM: a write to a scratchpad or HBM; a CRC mismatch leaves its target as it was (R99, R100; 05 R101). A thread
whose region is suspended is told of a failure after its resumption. -/
def execWritePerform (id : Nat) (crcBad : Bool) (s : State) : Host.Outcome State Fault Refusal :=
  match s.act? id with
  | none => .next s
  | some a =>
    match s.mayPerform a with
    | none => .next s
    | some e =>
      match e.line with
      | .host _ => .next s
      | _ =>
        if crcBad then (if s.waitsForThread a e then .next s else .next (s.writeMismatch a e))
        else if (s.atomicBad e).isSome then .next s
        else .next (s.performWrite a e)

/-! ### Results (03 R52, R55) -/

/-- A result reaches its thread; a thread that has ended takes none. -/
def State.deliverTo (s : State) (a : Act) (d : Dst) (v : Word) : State :=
  (s.modThread a.cl a.slot (fun t => t.deliver d v)).dropAct a.id

/-- A piece of a command's reads performs: its bytes join those that the command has read (05 R105). A piece of a window that is not
resident waits (02 R45). -/
def State.performPiece (s : State) (a : Act) (owner rgn knum : Nat) (pl : Place) (n : Nat) : State :=
  if !s.doneAll a.after || !s.placeUp rgn knum pl then s
  else
    let bs := s.readAt rgn knum pl n
    let s1 := (s.touchData pl).dropAct a.id
    { s1 with acts := s1.acts.map (fun b =>
        if b.id = owner then (match b.job with | .reading c got via => { b with job := .reading c (got ++ [(pl, bs)]) via } | _ => b) else b) }

/-- RESULT_WRITEBACK: what an act delivers, read at its point of performance if it has not been read before. -/
def execResultWriteback (id : Nat) (s : State) : Host.Outcome State Fault Refusal :=
  match s.act? id with
  | none => .next s
  | some a =>
    match s.thread? a.cl a.slot with
    | none =>
      .next (match a.job with
        | .piece o rgn knum pl n => s.performPiece a o rgn knum pl n
        | .result (.g d) _ _ => if d = 0 ∨ awayTag a.slot = false then s.dropAct id else s
        | .result .. => if awayTag a.slot then s else s.dropAct id
        | _ => s)
    | some t =>
      if !s.doneAll a.after || s.absent a then .next s
      else match a.job with
      | .result d v _ => .next (s.deliverTo a d v)
      | .piece o rgn knum pl n => .next (s.performPiece a o rgn knum pl n)
      | .load d (.scratch ..) .. | .load d (.global ..) .. =>
        match s.loadNow t a with
        | some v => if (s.loadBad t a).isSome then .next s else .next ((s.performLoad id).deliverTo a (.g d) v)
        | none => .next s
      | .atomic d pl sz op arg cmp _ _ _ =>
        if (s.badAt t.rgn t.knum pl).isSome then .next s
        else
          let r := s.atomicAt t.rgn t.knum pl sz op arg cmp
          .next (r.2.deliverTo a (.g d) (BitVec.ofNat 64 r.1))
      | .sread d k =>
        match s.frame? t.cl t.rgn t.knum with
        | some f =>
          let v := f.sem k
          .next (s.deliverTo a (.g d) (BitVec.ofNat 64 (v.count.toNat + (if v.poison then 65536 else 0))))
        | none => .next s
      | .stry p k n =>
        match s.frame? t.cl t.rgn t.knum with
        | some f =>
          let v := f.sem k
          if !v.poison && n.toNat ≤ v.count.toNat then
            .next ((s.setSem t.cl t.rgn t.knum k { v with count := v.count - n.setWidth 16 }).deliverTo a (.p p) 1)
          else .next (s.deliverTo a (.p p) 0)
        | none => .next s
      | _ => .next s

/-- LATE_FAILURE of a load or atomic: an uncorrectable error (7.1.0), a CRC mismatch on delivery (7.1.1), or an aperture
read that completed with an error (2.1.7) (12 R259; 04 R100). -/
def execLateFailure (id : Nat) (cause : BitVec 9) (status : BitVec 16) (s : State) : Host.Outcome State Fault Refusal :=
  match s.act? id with
  | none => .next s
  | some a =>
    let k := cause.toNat
    if s.absent a then .next s
    else match a.job with
    | .load d (.host _) _ _ _ ea i1 words =>
      if k = 143 then .next (s.failLate a d (lateTrap k status ea i1 words)) else .next s
    | .load d pl _ _ _ ea i1 words | .atomic d pl _ _ _ _ ea i1 words =>
      if k = 456 ∨ k = 457 then .next (((s.touchData pl).countLate a.cl k pl).failLate a d (lateTrap k status ea i1 words)) else .next s
    | .failed d c ea i1 words => if k = c then .next (s.failLate a d (lateTrap k status ea i1 words)) else .next s
    | .result (.g d) _ (some (ea, i1, words)) =>
      if k = 457 then .next ((s.countCrc (dieOf a.cl)).failLate a d (lateTrap k status ea i1 words)) else .next s
    | .flight e | .entry e =>
      match e.kind with
      | .atomic _ _ op _ _ d =>
        if (k = 456 ∨ k = 457) ∧ op < 10 ∧ e.ack.isNone then
          .next (((s.touchData e.line).countLate a.cl k e.line).failLate a d (lateTrap k status e.ea e.i1 e.words))
        else .next s
      | .data _ => .next s
    | _ => .next s

/-- APERTURE_COMPLETION: the CXL completion of an aperture read or write (05 R101; 12 R259, R260; 22 R403). -/
def execApertureCompletion (id : Nat) (status : BitVec 16) (s : State) : Host.Outcome State Fault Refusal :=
  match s.act? id with
  | none => .next s
  | some a =>
    match a.job with
    | .load d (.host _) _ _ _ ea i1 words =>
      if status = 0 then .next (s.performLoad id)
      else if s.absent a then .next s
      else .next (s.failLate a d (lateTrap 143 status ea i1 words))
    | .flight e =>
      match e.line, s.mayPerform a with
      | .host _, some _ =>
        if status = 0 then .next (s.performWrite a e)
        else if s.waitsForThread a e then .next s
        else if e.cls = 2 then .next ((s.dropAct id).saveFails a.cl)
        else .next ((s.dropAct id).writeFailed a e
          ⟨143, e.ea, e.i1, e.words, BitVec.ofNat 64 (2 ^ 63 + status.toNat)⟩)
      | _, _ => .next s
    | _ => .next s

/-- FENCE_PERFORM (12 R263); so ends the wait of a release store or of a descriptor instruction (12 R255; 14 R327). -/
def execFencePerform (cl slot : Nat) (s : State) : Host.Outcome State Fault Refusal :=
  match s.thread? cl slot with
  | none => .next s
  | some t =>
    match t.wait with
    | .fence scope after words => if s.doneAll after && !s.savingOn cl t.rgn then .next (s.fenceDone cl slot scope words) else .next s
    | .release after => if s.doneAll after then .next (s.endWait cl slot) else .next s
    | .desc after _ _ => if s.doneAll after then .next (s.endWait cl slot) else .next s
    | _ => .next s

end Sys2Proof.Machine
end

