-- ==== Sys2Proof/Machine/Threads.lean ====
section
/-! DEFINITION. Threads: spawning, admission, QUIT, priority, allotment and sleep, majors 0x1D, with the events that go with
them (02 R24 to R34; 03 R66; 11 R233 to R240). -/

namespace Sys2Proof.Machine

/-- A frame of a kernel on some cluster. -/
def State.anyFrameOf (s : State) (rgn knum : Nat) : Option Frame := s.frames.find? (fun f => f.rgn == rgn && f.knum == knum)

/-! ### Budgets and admission (02 R26, R29) -/

/-- Live threads of a frame. -/
def State.live (s : State) (f : Frame) : List Thread :=
  s.threads.filter (fun t => t.cl == f.cl && t.rgn == f.rgn && t.knum == f.knum)

/-- The frames that hold resources on a cluster (19 R374). -/
def State.boundOn (s : State) (cl : Nat) : List Frame := s.frames.filter (fun f => f.cl == cl && !f.suspended)

/-- General registers of a frame's budget in use. -/
def State.usedRegs (s : State) (f : Frame) : Nat := (s.live f).foldl (fun n t => n + t.allot) 0

/-- Slots that a frame holds in reserve (R26). -/
def State.reserve (s : State) (f : Frame) : Nat := f.hdr.kmaxt - (s.live f).length

/-- Free slots of a cluster that no other frame holds in reserve. -/
def State.unreserved (s : State) (f : Frame) : Nat :=
  let other := (s.boundOn f.cl).filter (fun g => !(g.rgn == f.rgn && g.knum == f.knum))
  (512 - (s.threads.filter (fun t => t.cl == f.cl)).length) - other.foldl (fun n g => n + s.reserve g) 0

/-- A request for a frame is admissible (R26). -/
def State.admissible (s : State) (f : Frame) : Bool :=
  let n := (s.live f).length
  decide (s.usedRegs f + f.hdr.kregs ≤ f.hdr.kregs * f.hdr.kmaxt) &&
  decide (f.hdr.kvregs * n + f.hdr.kvregs ≤ f.hdr.kvregs * f.hdr.kmaxt) &&
  (decide (n < f.hdr.kmaxt) || decide (0 < s.unreserved f))

/-- Threads that a frame could still admit on a cluster, one after the other under R26: as many as its registers and vector
registers last, in the slots that it holds in reserve or, beyond them, those that no other frame does (R28). -/
def State.freeSlots (s : State) (f : Frame) : Nat :=
  if s.admissible f then
    let regs := (f.hdr.kregs * f.hdr.kmaxt - s.usedRegs f) / f.hdr.kregs
    let slots := Nat.max (s.reserve f) (s.unreserved f)
    if f.hdr.kvregs = 0 then Nat.min regs slots else Nat.min (Nat.min regs (f.hdr.kmaxt - (s.live f).length)) slots
  else 0

/-- A frame's share of the pending-spawn queue: 64 less one entry for each other frame of the cluster (R29). -/
def State.share (s : State) (cl : Nat) : Nat := 64 - ((s.boundOn cl).length - 1)

/-- The target queue accepts a request (R29). -/
def State.queueTakes (s : State) (r : SpawnReq) : Bool :=
  let q := (s.clu r.target).spawnq
  decide (q.length < 64) && decide ((q.filter (fun x => x.rgn == r.rgn && x.knum == r.knum)).length < s.share r.target)

/-- The clusters of a set in ascending order. -/
def setList (m : ClSet) : List Nat := (List.range 256).filter (fun c => m.getLsbD c)

/-- The lighter member of a cluster's stack pair by the balancer's latest sample (R28; 24 R436). DESIGN CHOICE (log 45): of two
members with equal samples, which the spec does not order, both count as the lighter, so that R28's third key decides. -/
def State.lighter (s : State) (cl : Nat) : Bool :=
  let p := s.pair (s.pairOf cl)
  if s.physOf cl % 2 = 0 then p.ia ≤ p.ib else p.ib ≤ p.ia

/-- Candidate x comes before candidate y for ANY (R28): more free slots, then lighter, then the lower number. -/
def State.anyBefore (s : State) (rgn knum x y : Nat) : Bool :=
  let n (c : Nat) : Nat := match s.frame? c rgn knum with | some f => if f.stopped then 0 else s.freeSlots f | none => 0
  if n x ≠ n y then decide (n y < n x)
  else if s.lighter x != s.lighter y then s.lighter x
  else decide (x < y)

def State.anyBest (s : State) (rgn knum : Nat) : List Nat → Nat → Nat
  | [], best => best
  | c :: r, best => s.anyBest rgn knum r (if s.anyBefore rgn knum c best then c else best)

/-- The cluster that ANY selects over a set (R28). -/
def State.resolveAny (s : State) (rgn knum : Nat) (set : ClSet) : Nat :=
  match setList set with
  | [] => 0
  | c :: r => s.anyBest rgn knum r c

/-! ### SPAWN and SPAWNT -/

/-- The request that a spawn descriptor and its arguments name (11 R233, R234). -/
def State.spawnReq (s : State) (c : Ctx) (desc : Word) (a : BitVec 3) : SpawnReq :=
  { rgn := c.t.rgn, knum := c.t.knum,
    target := if bitOf desc 8 then s.resolveAny c.t.rgn c.t.knum c.f.set else field desc 0 8,
    entry := field desc 9 3, args := (groupRegs a [0, 1, 2, 3]).map c.t.getG,
    join := if bitOf desc 15 then some (field desc 24 8, field desc 16 8) else none,
    bpri := c.t.prio, swlim := c.t.swlim, spwlim := c.t.spwlim, origin := 0 }

/-- Departure and transport to the target queue (03 R66). -/
def spawnDelay (frm dst : Nat) : Nat := if dieOf frm = dieOf dst then Config.spawnSame else Config.spawnOther

/-- The return transport of a SPAWNT's answer: what 15 R334 has beyond the stages up to acceptance. -/
def spawnReturn (frm dst : Nat) : Nat :=
  if dieOf frm = dieOf dst then Config.spawntSame - Config.spawnSame else Config.spawntOther - Config.spawnOther

/-- SPAWN: the request is sent, and the thread blocks until the target queue accepts it (11 R234). -/
def execSpawn (d : BitVec 5) (a : BitVec 3) (s : State) : Host.Outcome State Fault Refusal :=
  issueI (.spawn d a) s (fun c s =>
    let r := s.spawnReq c (c.t.getG d.toNat) a
    let lim := c.t.limit c.t.spwlim
    (s.startWait c.t.cl c.t.slot (.spawn s.seq (limitAt (s.pulse c.t.cl) lim))).addAct (spawnDelay c.t.cl r.target) c.t.cl
      c.t.slot [] (.spawn r none))

/-- SPAWNT: the answer is written to the predicate (11 R235). -/
def execSpawnt (d : BitVec 5) (a p : BitVec 3) (s : State) : Host.Outcome State Fault Refusal :=
  issueI (.spawnt d a p) s (fun c s =>
    let r := s.spawnReq c (c.t.getG d.toNat) a
    (s.modThread c.t.cl c.t.slot (fun u => u.pend (.p p))).addAct (spawnDelay c.t.cl r.target) c.t.cl c.t.slot []
      (.spawn r (some p)))

/-- A request enters the target queue. -/
def State.enqueueSpawn (s : State) (r : SpawnReq) : State :=
  let s1 := s.modClu r.target (fun k => { k with spawnq := k.spawnq ++ [r] })
  s1.tick Config.admission r.target 0 (.spawnAdmission r.target)

/-- A SPAWNT's answer is on its way back to its predicate (11 R235; 03 R66). -/
def State.spawnAnswer (s : State) (a : Act) (r : SpawnReq) (p : BitVec 3) (v : Word) : State :=
  s.addAct (spawnReturn a.cl r.target) a.cl a.slot [] (.result (.p p) v none)

/-- SPAWN_REQUEST_ARRIVAL (02 R29 to R31): accepted; or refused, when a SPAWN goes on blocking and a SPAWNT is to answer 0. A
request to a suspended cluster is retried (R45), and one of a suspended thread waits for its resumption (19 R376). -/
def execSpawnRequestArrival (id : Nat) (s : State) : Host.Outcome State Fault Refusal :=
  match s.act? id with
  | none => .next s
  | some a =>
    match a.job with
    | .spawn r ans =>
      match s.frame? r.target r.rgn r.knum with
      | none => .next s
      | some f =>
        if f.stopped || s.absent a then .next s
        else if s.queueTakes r then
          let s1 := (s.dropAct id).enqueueSpawn r
          .next (match ans with
            | some p => s1.spawnAnswer a r p 1
            | none =>
              match s1.thread? a.cl a.slot with
              | some t => (match t.wait with | .spawn k _ => if k = id then s1.endWait a.cl a.slot else s1 | _ => s1)
              | none => s1)
        else
          .next (match ans with
            | some p => (s.dropAct id).spawnAnswer a r p 0
            | none => s)
    | _ => .next s

/-- SPWLIM_EXPIRY (02 R30): the request is gone, and no child ever arises from it. -/
def execSpwlimExpiry (cl slot : Nat) (s : State) : Host.Outcome State Fault Refusal :=
  match s.thread? cl slot with
  | none => .next s
  | some t =>
    if s.frozen t then .next s
    else match t.wait with
    | .spawn id lim =>
      match s.act? id with
      | some a =>
        match a.job with
        | .spawn r _ =>
          if lim = 0 then .next s
          else .next ((s.dropAct id).trapIssued cl slot
            ⟨257, BitVec.ofNat 64 r.target, BitVec.ofNat 64 (s.clu r.target).spawnq.length,
              BitVec.ofNat 64 (s.share r.target), t.spwlim.setWidth 64⟩)
        | _ => .next s
      | none => .next s
    | _ => .next s

/-! ### Admission (02 R25, R26, R29) -/

/-- The head request of each frame that can admit it; requests of one frame keep their order. -/
def State.headRequests (s : State) (cl : Nat) : List SpawnReq → List (Nat × Nat) → List SpawnReq
  | [], _ => []
  | r :: rest, seen =>
    if seen.contains (r.rgn, r.knum) then s.headRequests cl rest seen
    else
      match s.frame? cl r.rgn r.knum with
      | some f =>
        if !f.stopped && !f.tearing && s.admissible f then r :: s.headRequests cl rest ((r.rgn, r.knum) :: seen)
        else s.headRequests cl rest ((r.rgn, r.knum) :: seen)
      | none => s.headRequests cl rest ((r.rgn, r.knum) :: seen)

/-- The turn of a request's frame among those of the cluster: later the later it admitted last. -/
def admitTurn (l : List (Nat × Nat)) (r : SpawnReq) : Nat := match l.findIdx? (fun x => x == (r.rgn, r.knum)) with | some k => k + 1 | none => 0

/-- The request with the earliest turn, the first of the queue among equals. -/
def firstTurnOf (l : List (Nat × Nat)) : List SpawnReq → Option SpawnReq
  | [] => none
  | r :: rest =>
    match firstTurnOf l rest with
    | none => some r
    | some q => if admitTurn l q < admitTurn l r then some q else some r

/-- The request that is admitted next: frames take turns, so that a head request waits behind one of each other frame at most
(R29; 03 R66). -/
def State.firstAdmissible (s : State) (cl : Nat) (q : List SpawnReq) (seen : List (Nat × Nat)) : Option SpawnReq :=
  firstTurnOf (s.clu cl).admits (s.headRequests cl q seen)

/-- The free slots of a cluster. -/
def State.openSlots (s : State) (cl : Nat) : List Nat := (List.range 512).filter (fun k => (s.thread? cl k).isNone)

/-- A saved thread of a suspended region held the slot and will return to it (19 R376). -/
def State.slotKept (s : State) (cl slot : Nat) : Bool :=
  s.away.any (fun t => t.cl == cl && t.slot == slot && s.frames.any (fun f => f.cl == cl && f.rgn == t.rgn && f.suspended))

/-- The slot that a thread takes: one of the free ones, which of them the spec leaves open, but none that a saved thread held
while there is another (R24; 20 R383; log 13). -/
def State.freeSlot (s : State) (cl : Nat) : Option Nat :=
  let pick (l : List Nat) : Option Nat := match l with | [] => none | k :: r => some (nth (k :: r) (s.freeVal.toNat % (r.length + 1)) k)
  match pick ((s.openSlots cl).filter (fun k => !s.slotKept cl k)) with
  | some k => some k
  | none => pick (s.openSlots cl)

/-- The arrival-phase bits with which a thread starts: the current phases (R25). -/
def phasesOf : List Bar → Nat → BitVec 16
  | [], _ => 0
  | b :: r, k => setBit (phasesOf r (k + 1)) k b.phase

/-- The thread that a request makes (R25; R34). -/
def childOf (f : Frame) (r : SpawnReq) (slot ceil now : Nat) : Thread :=
  { Thread.start f.cl slot f.rgn f.knum f.hdr.kregs f.hdr.kvregs
      (BitVec.ofNat 64 (f.code + (nth f.hdr.entries r.entry 0).toNat)) with
    g := 0 :: (r.args ++ List.replicate 27 0), prio := BitVec.ofNat 3 (Nat.min r.bpri.toNat ceil), swlim := r.swlim,
    spwlim := r.spwlim, barph := phasesOf f.bars 0, join := r.join, nextIssue := now }

/-- A cluster has admitted a thread in this pulse, its one admission of the pulse (03 R50). -/
def State.admittedNow (s : State) (cl : Nat) : Bool := s.threads.any (fun t => t.cl == cl && t.launch && decide (s.pulse cl < t.nextIssue))

/-- A new thread's streams begin at sequence number 0; the counts since the last START go on, because writes of the slot's
earlier thread may still be on their way (12 R266; 23 R426). -/
def restartStreams (l : List Stream) (rgn cl slot : Nat) : List Stream :=
  l.map (fun x => if x.rgn = rgn ∧ x.cl = cl ∧ x.slot = slot then { x with next := 0 } else x)

/-- SPAWN_ADMISSION: an admissible request gets a slot, registers and its entry PC (R26, R29), and is ready from the next
pulse. -/
def execSpawnAdmission (cl : Nat) (s : State) : Host.Outcome State Fault Refusal :=
  let q := (s.clu cl).spawnq
  match s.firstAdmissible cl q [] with
  | none => .next s
  | some r =>
    if s.admittedNow cl then .next s
    else match s.frame? cl r.rgn r.knum, s.freeSlot cl, s.region? r.rgn with
    | some f, some k, some g =>
      .next { (s.useFree.modClu cl (fun c =>
          { c with spawnq := c.spawnq.erase r, admits := c.admits.filter (fun x => x != (r.rgn, r.knum)) ++ [(r.rgn, r.knum)] })) with
        threads := s.threads ++ [childOf f r k g.ceil (s.pulse cl + 1)], streams := restartStreams s.streams r.rgn cl k }
    | _, _, _ => .next s

/-! ### QUIT, SETPRI, RSHRINK, SLEEP -/

/-- QUIT: issue stops, and pending results and vector instructions are awaited (02 R32; 11 R236). -/
def execQuit (s : State) : Host.Outcome State Fault Refusal :=
  issueI .quit s (fun c s =>
    (s.modThread c.t.cl c.t.slot (fun u => { u with marker := false, wait := .quit })).deliverLate c.t.cl c.t.slot)

/-- The scope of a semaphore for a thread, at least D (05 R111). -/
def semScope (frm dst : Nat) : Nat := if dieOf frm = dieOf dst then 2 else 3

/-- What a thread's join signal, as SSIG.G, still waits for (R32; 05 R108, R111). -/
def State.joinWaits (s : State) (t : Thread) : Bool :=
  match t.join with
  | none => false
  | some (jc, _) =>
    !(s.scopeSet t.cl t.slot (semScope t.cl jc)).isEmpty ||
      (match s.frame? jc t.rgn t.knum with | some f => f.stopped | none => false)

/-- Nothing of the thread is awaited any more: its results are in, its vector instructions have retired, and its join can be
signalled; a join toward a suspended cluster keeps the thread blocked (R32, R45). -/
def State.quitDone (s : State) (t : Thread) : Bool :=
  t.pendG == 0 && t.pendP == 0 && s.unretired t.cl t.slot == 0 && t.replay.isEmpty &&
  !s.acts.any (fun a => a.cl == t.cl && a.slot == t.slot &&
    (match a.job with | .load .. => true | .atomic .. => true | .sread .. => true | _ => false)) && !s.joinWaits t

/-- The work that ends with its thread: results, and requests that no queue has accepted. -/
def diesWith (a : Act) : Bool :=
  match a.job with
  | .result .. | .failed .. | .load .. | .atomic .. | .sread .. | .stry .. | .vtrap _ => true
  | .spawn _ answer => answer.isNone
  | _ => false

/-- Work of a slot goes under another slot number. -/
def State.reslot (s : State) (cl frm dst : Nat) : State :=
  { s with
    acts := s.acts.map (fun a => if a.cl = cl ∧ a.slot = frm then { a with slot := dst } else a),
    cmds := s.cmds.map (fun c => if c.cl = cl ∧ c.slot = frm then { c with slot := dst } else c) }

/-- A thread leaves its slot: its pending results and the vector instructions that have not started are discarded; its stores,
signals, engine commands and started vector instructions go on under a number that no later thread of the slot has, and no
status command writes a register (02 R18, R32; 14 R329). -/
def State.endThread (s : State) (t : Thread) : State :=
  let mine (a : Act) : Bool := a.cl == t.cl && a.slot == t.slot
  let s1 : State := { s with
    threads := s.threads.filter (fun u => !(u.cl == t.cl && u.slot == t.slot)),
    cmds := s.cmds.filter (fun c => !(c.cl == t.cl && c.slot == t.slot && c.port == .vector)),
    acts := (s.acts.filter (fun a => !(mine a && diesWith a))).map (fun a =>
      if mine a then (match a.job with | .ending e => { a with job := .ending { e with dst := none } } | _ => a) else a) }
  s1.bump.reslot t.cl t.slot (262144 + 512 * s.seq + t.slot)

/-- QUIT_COMPLETE: the join is signalled with increment 1 as SSIG.G, and the slot and registers return (02 R32). -/
def execQuitComplete (cl slot : Nat) (s : State) : Host.Outcome State Fault Refusal :=
  match s.thread? cl slot with
  | none => .next s
  | some t =>
    if t.wait == .quit && s.quitDone t && !s.savingOn cl t.rgn then
      let s1 := s.endThread t
      .next (match t.join with
        | some (jc, js) => s1.signal jc t.rgn t.knum js 1
        | none => s1)
    else .next s

/-- SETPRI (11 R237; 02 R34). -/
def execSetpri (k : BitVec 3) (s : State) : Host.Outcome State Fault Refusal :=
  issueI (.setpri k) s (fun c s =>
    s.modThread c.t.cl c.t.slot (fun u => { u with prio := BitVec.ofNat 3 (Nat.min k.toNat c.r.ceil) }))

/-- RSHRINK (11 R238; 02 R33): released registers read as zero. -/
def execRshrink (n : BitVec 2) (s : State) : Host.Outcome State Fault Refusal :=
  issueI (.rshrink n) s (fun c s =>
    let new := 8 * (n.toNat + 1)
    s.modThread c.t.cl c.t.slot (fun u =>
      { u with allot := new, g := u.g.take new ++ List.replicate (32 - new) 0 }))

/-- SLEEP (11 R239). -/
def execSleep (a : BitVec 5) (s : State) : Host.Outcome State Fault Refusal :=
  issueI (.sleep a) s (fun c s =>
    let n := (c.t.getG a.toNat).toNat
    if n < 8 then s
    else s.startWait c.t.cl c.t.slot (.sleep (s.pulse c.t.cl + n)))

/-- SLEEP_EXPIRY (11 R239). -/
def execSleepExpiry (cl slot : Nat) (s : State) : Host.Outcome State Fault Refusal :=
  match s.thread? cl slot with
  | none => .next s
  | some t =>
    if s.frozen t then .next s
    else match t.wait with
    | .sleep _ => .next (s.endWait cl slot)
    | _ => .next s

end Sys2Proof.Machine
end

