-- ==== Sys2Proof/Machine/Sems.lean ====
section
/-! DEFINITION. Semaphores and barriers: majors 0x1E and 0x1F, with their events (02 R37 to R41; 11 R241 to R248). -/

namespace Sys2Proof.Machine

/-! ### Waiting -/

/-- A wait begins at the semaphore's arbiter and is examined at once; it expires after its limit (11 R242; 02 R38, R39). -/
def State.semWait (s : State) (c : Ctx) (lim : Word) (w : Nat → Nat → Wait) : State :=
  (s.bump.startWait c.t.cl c.t.slot (w (limitAt (s.pulse c.t.cl) lim.toNat) s.seq)).serveOne c.t.cl c.t.rgn c.t.knum c.t.slot

/-- SWAIT (11 R242). -/
def execSwait (d a : BitVec 5) (e : BitVec 8) (s : State) : Host.Outcome State Fault Refusal :=
  issueI (.swait d a e) s (fun c s =>
    let lim := c.t.getG d.toNat
    s.semWait c lim (.sem e.toNat (c.t.getG a.toNat).toNat lim))

/-- QWAIT on the ring pair 2e, 2e + 1 (11 R243; 02 R40). -/
def execQwait (d a : BitVec 5) (p : BitVec 3) (e : BitVec 7) (s : State) : Host.Outcome State Fault Refusal :=
  issueI (.qwait d a p e) s (fun c s =>
    let lim := c.t.getG d.toNat
    s.semWait c lim (.ring p (2 * e.toNat) (c.t.getG a.toNat).toNat lim))

/-- The thread's own earlier operations on a semaphore that have not taken effect. -/
def State.ownSemOps (s : State) (cl slot k : Nat) : List Nat :=
  s.acts.filterMap (fun a =>
    if a.cl = cl ∧ a.slot = slot then
      match a.job with
      | .signal c _ _ q _ true => if c = cl ∧ q = k then some a.id else none
      | .stry _ q _ => if q = k then some a.id else none
      | .sread _ q => if q = k then some a.id else none
      | _ => none
    else none)

/-- STRY (11 R244): its event follows the thread's earlier operations on the semaphore; a success is an acquire. -/
def execStry (a : BitVec 5) (p : BitVec 3) (e : BitVec 8) (s : State) : Host.Outcome State Fault Refusal :=
  issueI (.stry a p e) s (fun c s =>
    (s.modThread c.t.cl c.t.slot (fun u => { u.pend (.p p) with acq := u.acq ++ [s.seq] })).addAct Config.semRead c.t.cl
      c.t.slot (s.ownSemOps c.t.cl c.t.slot e.toNat) (.stry p e.toNat (c.t.getG a.toNat)))

/-- The thread has an arrival at the barrier that is still to be counted: its arrival-phase bit is not yet that of it. -/
def State.arriving (s : State) (cl slot b : Nat) : Bool :=
  s.acts.any (fun a => a.cl == cl && a.slot == slot && (match a.job with | .arrive _ _ k => k == b | _ => false))

/-- An expiry waits for the arrival that a BARSYNC makes: an expired BARSYNC has counted it (R248). -/
def State.expiryHeld (s : State) (t : Thread) : Bool :=
  match t.wait with
  | .bar b true _ _ _ => s.arriving t.cl t.slot b
  | _ => false

/-- WAIT_LIMIT_EXPIRY of a semaphore or barrier wait: the waiter is removed and nothing is decremented (02 R39, R40;
11 R242, R243, R248). -/
def execWaitLimitExpiry (cl slot : Nat) (s : State) : Host.Outcome State Fault Refusal :=
  match s.thread? cl slot with
  | none => .next s
  | some t =>
    match s.frame? cl t.rgn t.knum with
    | none => .next s
    | some f =>
      if f.stopped then .next s
      else match t.wait with
      | .sem k n lim _ _ =>
        if lim = 0 then .next s
        else .next (s.trapIssued cl slot ⟨256, semid cl k, (f.sem k).count.setWidth 64, BitVec.ofNat 64 n, lim⟩)
      | .ring _ k n lim _ _ =>
        if lim = 0 then .next s
        else .next (s.trapIssued cl slot ⟨256, semid cl k,
          BitVec.ofNat 64 ((f.sem k).count.toNat + 65536 * (f.sem (k + 1)).count.toNat), BitVec.ofNat 64 n, lim⟩)
      | .bar b sync lim _ _ =>
        if lim = 0 ∨ s.expiryHeld t then .next s
        else
          let v := f.bar b
          .next ((s.modThread cl slot (fun u => if sync then { u with bsarr := true } else u)).trapIssued cl slot
            ⟨256, BitVec.ofNat 64 b, BitVec.ofNat 64 (v.counter + 65536 * v.n), (if v.phase then 1 else 0), lim⟩)
      | _ => .next s

/-! ### Barriers (02 R41; 11 R248) -/

def State.setBar (s : State) (cl rgn knum b : Nat) (v : Bar) : State :=
  s.modFrame cl rgn knum (fun f => { f with bars := f.bars.set b v })

/-- BARINIT: N is set, the arrival counter cleared and the phase kept. An arrival that has issued and is not yet counted counts after it
(log 65). -/
def execBarinit (a : BitVec 5) (b : BitVec 4) (s : State) : Host.Outcome State Fault Refusal :=
  issueI (.barinit a b) s (fun c s =>
    s.setBar c.t.cl c.t.rgn c.t.knum b.toNat
      { init := true, n := (c.t.getG a.toNat).toNat, counter := 0, phase := (c.f.bar b.toNat).phase })

/-- The threads that a completed phase releases, in wait order. -/
def State.barWaiters (s : State) (cl rgn knum b : Nat) (phase : Bool) : List Nat :=
  s.threads.filterMap (fun t =>
    if t.cl = cl ∧ t.rgn = rgn ∧ t.knum = knum then
      match t.wait with
      | .bar k _ _ _ _ => if k = b ∧ t.barph.getLsbD b ≠ phase ∧ s.arriving cl t.slot b = false then some t.slot else none
      | _ => none
    else none)

/-- One arrival at the barrier's arbiter: the thread's phase bit takes the current phase; the N-th arrival clears the counter,
inverts the phase and releases the waiters. -/
def State.arriveNow (s : State) (cl slot rgn knum b : Nat) : State :=
  match s.frame? cl rgn knum with
  | none => s
  | some f =>
    let v := f.bar b
    let s1 := s.modThread cl slot (fun u => { u with barph := setBit u.barph b v.phase })
    if v.counter + 1 = v.n then
      let s2 := s1.setBar cl rgn knum b { v with counter := 0, phase := !v.phase }
      (s2.barWaiters cl rgn knum b (!v.phase)).foldl (fun s k => s.endWait cl k) s2
    else s1.setBar cl rgn knum b { v with counter := v.counter + 1 }

/-- BARRIVE's arrival, a release at C scope as an SSIG is: with nothing of that scope or of the barrier's own to wait for it is counted
at once, else once that has performed (02 R41; 05 R111; log 65). -/
def State.arrive (s : State) (c : Ctx) (b : Nat) : State :=
  let s1 := s.fixLocal c.t.cl c.t.slot
  let own := s1.acts.filterMap (fun a => if a.cl = c.t.cl ∧ a.slot = c.t.slot then
    (match a.job with | .arrive _ _ k => if k = b then some a.id else none | _ => none) else none)
  let after := s1.scopeSet c.t.cl c.t.slot 1 ++ own
  if after.isEmpty then s1.arriveNow c.t.cl c.t.slot c.t.rgn c.t.knum b
  else s1.addAct 1 c.t.cl c.t.slot after (.arrive c.t.rgn c.t.knum b)

/-- Waits for a phase other than the thread's arrival-phase bit, with a limit. -/
def State.barWait (s : State) (c : Ctx) (b : Nat) (sync : Bool) (lim : Word) : State :=
  match s.thread? c.t.cl c.t.slot, s.frame? c.t.cl c.t.rgn c.t.knum with
  | some t, some f =>
    if (f.bar b).phase ≠ t.barph.getLsbD b ∧ s.arriving c.t.cl c.t.slot b = false then s
    else
      s.bump.startWait c.t.cl c.t.slot (.bar b sync lim (limitAt (s.pulse c.t.cl) lim.toNat) s.seq)
  | _, _ => s

/-! ### Signals -/

/-- A signal of the thread is on its way; it takes effect once its release's accesses have performed (11 R245). -/
def State.sendSignal (s : State) (c : Ctx) (cl k scope : Nat) (inc : Word) : State :=
  let s1 := s.fixLocal c.t.cl c.t.slot
  s1.addAct (signalDelay c.t.cl cl) c.t.cl c.t.slot (s1.scopeSet c.t.cl c.t.slot scope)
    (.signal cl c.t.rgn c.t.knum k inc true)

/-- SSIG on the thread's own cluster: a release at C scope (11 R245; 05 R111). -/
def execSsig (a : BitVec 5) (e : BitVec 8) (s : State) : Host.Outcome State Fault Refusal :=
  issueI (.ssig a e) s (fun c s => s.sendSignal c c.t.cl e.toNat 1 (c.t.getG a.toNat))

/-- SSIG on logical cluster G[d] (11 R245). -/
def execSsigRemote (d a : BitVec 5) (e : BitVec 8) (s : State) : Host.Outcome State Fault Refusal :=
  issueI (.ssigRemote d a e) s (fun c s =>
    s.sendSignal c (c.t.getG d.toNat).toNat e.toNat 1 (c.t.getG a.toNat))

/-- SSIG.G on the thread's own cluster: a release at max(D, the semaphore's scope) (11 R245; 05 R111). -/
def execSsigG (a : BitVec 5) (e : BitVec 8) (s : State) : Host.Outcome State Fault Refusal :=
  issueI (.ssigG a e) s (fun c s => s.sendSignal c c.t.cl e.toNat 2 (c.t.getG a.toNat))

/-- SSIG.G on logical cluster G[d] (11 R245). -/
def execSsigGRemote (d a : BitVec 5) (e : BitVec 8) (s : State) : Host.Outcome State Fault Refusal :=
  issueI (.ssigGRemote d a e) s (fun c s =>
    let cl := (c.t.getG d.toNat).toNat
    s.sendSignal c cl e.toNat (semScope c.t.cl cl) (c.t.getG a.toNat))

/-- SEMAPHORE_SIGNAL: the signal takes effect at the semaphore's arbiter; an overflow of the thread's own signal is told to
it late with 4.0.4 (02 R37; 11 R247; after its QUIT to nobody, log 76), after its resumption if its region is suspended. A signal
to a suspended cluster is retried (02 R45). So do the poison of a killed thread's join and an arrival at a barrier that had to wait. -/
def execSemaphoreSignal (id : Nat) (s : State) : Host.Outcome State Fault Refusal :=
  match s.act? id with
  | none => .next s
  | some a =>
    match a.job with
    | .signal cl rgn knum k inc own =>
      match s.frame? cl rgn knum with
      | none => .next (s.dropAct id)
      | some f =>
        if f.stopped || !s.doneAll a.after then .next s
        else
          let c := (f.sem k).count
          if own && decide (65535 < c.toNat + inc.toNat) && s.absent a then .next s
          else
            let s1 := (s.dropAct id).signal cl rgn knum k inc.toNat
            if own && decide (65535 < c.toNat + inc.toNat) then
              .next ((s1.modThread a.cl a.slot (fun t =>
                { t with late := t.late ++ [⟨a.id, 260, semid cl k, c.setWidth 64, inc, 0, false⟩] })).deliverLate a.cl a.slot)
            else .next s1
    | .poison cl rgn knum k =>
      match s.frame? cl rgn knum with
      | some f => if f.stopped then .next s else .next ((s.dropAct id).poisonSem cl rgn knum k)
      | none => .next (s.dropAct id)
    | .arrive rgn knum b =>
      if s.doneAll a.after then .next ((s.dropAct id).arriveNow a.cl a.slot rgn knum b) else .next s
    | _ => .next s

/-- SSET: bits [15:0] are the count and bit 16 the poison (11 R246). -/
def execSset (a : BitVec 5) (e : BitVec 8) (s : State) : Host.Outcome State Fault Refusal :=
  issueI (.sset a e) s (fun c s =>
    let v := c.t.getG a.toNat
    (s.setSem c.t.cl c.t.rgn c.t.knum e.toNat { count := v.setWidth 16, poison := v.getLsbD 16 }).serve c.t.cl c.t.rgn
      c.t.knum e.toNat)

/-- SREAD (11 R246). -/
def execSread (d : BitVec 5) (e : BitVec 8) (s : State) : Host.Outcome State Fault Refusal :=
  issueI (.sread d e) s (fun c s =>
    (s.modThread c.t.cl c.t.slot (fun u => u.pend (.g d))).addAct Config.semRead c.t.cl c.t.slot [] (.sread d e.toNat))

/-- SPOIS (11 R246). -/
def execSpois (e : BitVec 8) (s : State) : Host.Outcome State Fault Refusal :=
  issueI (.spois e) s (fun c s => s.poisonSem c.t.cl c.t.rgn c.t.knum e.toNat)

/-! ### Barrier instructions (11 R248) -/

/-- BARRIVE. -/
def execBarrive (b : BitVec 4) (s : State) : Host.Outcome State Fault Refusal :=
  issueI (.barrive b) s (fun c s => s.arrive c b.toNat)

/-- BARWAIT. -/
def execBarwait (a : BitVec 5) (b : BitVec 4) (s : State) : Host.Outcome State Fault Refusal :=
  issueI (.barwait a b) s (fun c s => s.barWait c b.toNat false (c.t.getG a.toNat))

/-- BARSYNC: BARRIVE, then BARWAIT; with BSARR set it has counted its arrival already and issues as BARWAIT. -/
def execBarsync (a : BitVec 5) (b : BitVec 4) (s : State) : Host.Outcome State Fault Refusal :=
  issueI (.barsync a b) s (fun c s =>
    let s1 := if c.t.bsarr then s.modThread c.t.cl c.t.slot (fun u => { u with bsarr := false }) else s.arrive c b.toNat
    s1.barWait c b.toNat true (c.t.getG a.toNat))

end Sys2Proof.Machine
end

