-- ==== Sys2Proof/Machine/Num.lean ====
section
/-! DEFINITION. Number formats and exact arithmetic (06 R123 to R144): decoding, RoundToFormat, sums, products, the special
functions, conversions and the generator. A magnitude is m x 2^e; a value between m and m + 1 carries a sticky part. -/

namespace Sys2Proof.Machine

/-- A binary format of 06 R123: exponent and mantissa widths, bias, and which specials it has. -/
structure Fmt where
  eb : Nat
  mb : Nat
  bias : Nat
  hasInf : Bool
  hasNan : Bool
  deriving DecidableEq, Repr

def fp32 : Fmt := { eb := 8, mb := 23, bias := 127, hasInf := true, hasNan := true }
def fp16 : Fmt := { eb := 5, mb := 10, bias := 15, hasInf := true, hasNan := true }
def bf16 : Fmt := { eb := 8, mb := 7, bias := 127, hasInf := true, hasNan := true }
def e4m3 : Fmt := { eb := 4, mb := 3, bias := 7, hasInf := false, hasNan := true }
def e5m2 : Fmt := { eb := 5, mb := 2, bias := 15, hasInf := true, hasNan := true }
def e2m1 : Fmt := { eb := 2, mb := 1, bias := 1, hasInf := false, hasNan := false }

/-- The format of a type code (13 R274). -/
def fmtOf (t : Nat) : Fmt :=
  match t with
  | 0 => fp32
  | 1 => fp16
  | 2 => bf16
  | 3 => e4m3
  | _ => e5m2

/-- The largest finite magnitude as mantissa and exponent of its last place (R123). -/
def Fmt.maxM (f : Fmt) : Nat :=
  if f.hasInf then 2 ^ (f.mb + 1) - 1 else if f.hasNan then 2 ^ (f.mb + 1) - 2 else 2 ^ (f.mb + 1) - 1

def Fmt.maxQ (f : Fmt) : Int :=
  (if f.hasInf then (2 ^ f.eb : Int) - 2 else (2 ^ f.eb : Int) - 1) - f.bias - f.mb

/-- Exponent of the smallest normal. -/
def Fmt.emin (f : Fmt) : Int := 1 - (f.bias : Int)

/-- Rounding modes of VFCSR.RM (R128). -/
inductive Rm where
  | rne | rz | ru | rd
  deriving DecidableEq, Repr

def rmOf (n : Nat) : Rm := match n % 4 with | 0 => .rne | 1 => .rz | 2 => .ru | _ => .rd

/-- A value: a signed magnitude m x 2^e, an infinity or a NaN. -/
inductive Val where
  | fin (neg : Bool) (m : Nat) (e : Int)
  | inf (neg : Bool)
  | nan (sig : Bool)
  deriving DecidableEq, Repr

/-- Raised flags in the order of FLAGS: 0 NV, 1 DZ, 2 OF, 3 UF, 4 NX, 5 QS (R128). -/
abbrev Fl := BitVec 6

def flNV : Fl := 1#6
def flDZ : Fl := 2#6
def flOF : Fl := 4#6
def flUF : Fl := 8#6
def flNX : Fl := 16#6
def flQS : Fl := 32#6

/-- The value of a code (R123, R124). -/
def decodeF (f : Fmt) (x : Nat) : Val :=
  let mant := x % 2 ^ f.mb
  let ex := x / 2 ^ f.mb % 2 ^ f.eb
  let neg := decide (x / 2 ^ (f.mb + f.eb) % 2 = 1)
  if f.hasInf ∧ ex = 2 ^ f.eb - 1 then
    if mant = 0 then .inf neg else .nan (decide (f.mb > 2) && decide (mant / 2 ^ (f.mb - 1) = 0))
  else if f.hasInf = false ∧ f.hasNan ∧ ex = 2 ^ f.eb - 1 ∧ mant = 2 ^ f.mb - 1 then .nan false
  else if ex = 0 then .fin neg mant (f.emin - f.mb)
  else .fin neg (2 ^ f.mb + mant) ((ex : Int) - f.bias - f.mb)

def signBit (f : Fmt) (neg : Bool) : Nat := if neg then 2 ^ (f.mb + f.eb) else 0

/-- The canonical NaN (R124). -/
def canonNan (f : Fmt) : Nat :=
  if f.hasInf then (2 ^ f.eb - 1) * 2 ^ f.mb + 2 ^ (f.mb - 1) else 2 ^ (f.mb + f.eb) - 1

def infCode (f : Fmt) (neg : Bool) : Nat := signBit f neg + (2 ^ f.eb - 1) * 2 ^ f.mb

/-- The code of a magnitude r x 2^q that the format holds. -/
def encodeMag (f : Fmt) (r : Nat) (q : Int) : Nat :=
  if r = 0 then 0
  else if r < 2 ^ f.mb then r
  else if r = 2 ^ (f.mb + 1) then (q + 1 + f.mb + f.bias).toNat * 2 ^ f.mb
  else (q + f.mb + f.bias).toNat * 2 ^ f.mb + (r - 2 ^ f.mb)

def maxCode (f : Fmt) (neg : Bool) : Nat := signBit f neg + encodeMag f f.maxM f.maxQ

/-- A magnitude in whole units of 2^q, rounded by a mode; and whether that was exact (R125). -/
def roundUnits (rm : Rm) (neg : Bool) (m : Nat) (e q : Int) : Nat × Bool :=
  if q ≤ e then (m * 2 ^ (e - q).toNat, true)
  else
    let k := (q - e).toNat
    let t := m / 2 ^ k
    let r := m % 2 ^ k
    let half := 2 ^ (k - 1)
    let up : Bool :=
      match rm with
      | .rne => decide (half < r) || (decide (r = half) && decide (t % 2 = 1))
      | .rz => false
      | .ru => decide (r ≠ 0) && !neg
      | .rd => decide (r ≠ 0) && neg
    (if up then t + 1 else t, decide (r = 0))

/-- Whether a x 2^p is larger than b x 2^q. -/
def magGt (a : Nat) (p : Int) (b : Nat) (q : Int) : Bool :=
  if q ≤ p then decide (b < a * 2 ^ (p - q).toNat) else decide (b * 2 ^ (q - p).toNat < a)

/-- What an overflow delivers (R126, R133). -/
def overflowCode (f : Fmt) (rm : Rm) (sat neg : Bool) : Nat :=
  let toInf : Bool :=
    match rm with
    | .rne => true
    | .rz => false
    | .ru => !neg
    | .rd => neg
  if sat || !toInf || !f.hasNan then maxCode f neg
  else if f.hasInf then infCode f neg
  else canonNan f

/-- RoundToFormat of the exact value, a sticky part standing for anything strictly between m and m + 1 (R125 to R127). -/
def roundTo (f : Fmt) (rm : Rm) (sat ftz neg : Bool) (m0 : Nat) (e0 : Int) (sticky : Bool) : Nat × Fl :=
  if m0 = 0 ∧ sticky = false then (signBit f neg, 0)
  else
    let m := m0 * 8 + (if sticky then 1 else 0)
    let e := e0 - 3
    let qu : Int := (Nat.log2 m : Int) + e - f.mb
    let u := roundUnits rm neg m e qu
    let q : Int := if qu < f.emin - f.mb then f.emin - f.mb else qu
    let r := roundUnits rm neg m e q
    let tiny := magGt 1 f.emin u.1 qu
    if magGt u.1 qu f.maxM f.maxQ then (overflowCode f rm sat neg, flOF ||| flNX)
    else if ftz && tiny then (signBit f neg, flUF ||| flNX)
    else
      (signBit f neg + encodeMag f r.1 q,
        if r.2 then 0 else if tiny then flUF ||| flNX else flNX)

/-- RoundToFormat of a value: specials deliver themselves. -/
def roundVal (f : Fmt) (rm : Rm) (ftz : Bool) (v : Val) : Nat × Fl :=
  match v with
  | .nan s => (canonNan f, if s then flNV else 0)
  | .inf n => (infCode f n, 0)
  | .fin n m e => roundTo f rm false ftz n m e false

/-- A subnormal operand reads as zero under FTZ (R127). -/
def flushIn (f : Fmt) (ftz : Bool) (v : Val) : Val :=
  match v with
  | .fin n m e => if ftz && decide (m < 2 ^ f.mb) && decide (e = f.emin - f.mb) then .fin n 0 e else v
  | _ => v

def Val.isNan : Val → Bool
  | .nan _ => true
  | _ => false

def Val.isSig : Val → Bool
  | .nan s => s
  | _ => false

def Val.neg : Val → Val
  | .fin n m e => .fin (!n) m e
  | .inf n => .inf (!n)
  | v => v

/-- The exact sum of two finite values; an exact zero of opposite signs takes the sign of the mode (R125). -/
def addFin (rm : Rm) (n1 : Bool) (m1 : Nat) (e1 : Int) (n2 : Bool) (m2 : Nat) (e2 : Int) : Val :=
  let e := if e1 ≤ e2 then e1 else e2
  let a := m1 * 2 ^ (e1 - e).toNat
  let b := m2 * 2 ^ (e2 - e).toNat
  if n1 = n2 then .fin n1 (a + b) e
  else if a = b then .fin (rm == .rd) 0 e
  else if b < a then .fin n1 (a - b) e
  else .fin n2 (b - a) e

/-- The exact sum, with the flags of its operands (R131). -/
def addVal (rm : Rm) (x y : Val) : Val × Fl :=
  if x.isNan || y.isNan then (.nan false, if x.isSig || y.isSig then flNV else 0)
  else match x, y with
  | .inf a, .inf b => if a = b then (.inf a, 0) else (.nan false, flNV)
  | .inf a, _ => (.inf a, 0)
  | _, .inf b => (.inf b, 0)
  | .fin n1 m1 e1, .fin n2 m2 e2 => (addFin rm n1 m1 e1 n2 m2 e2, 0)
  | _, _ => (.nan false, 0)

/-- The exact product (R131). DESIGN CHOICE (log 60): the product of two infinities, which 07 R154 does not name among its cases, is an
infinity of the product's sign. -/
def mulVal (x y : Val) : Val × Fl :=
  match x, y with
  | .nan a, .nan b => (.nan false, if a || b then flNV else 0)
  | .nan a, _ => (.nan false, if a then flNV else 0)
  | _, .nan b => (.nan false, if b then flNV else 0)
  | .inf a, .inf b => (.inf (a != b), 0)
  | .inf a, .fin b m _ => if m = 0 then (.nan false, flNV) else (.inf (a != b), 0)
  | .fin a m _, .inf b => if m = 0 then (.nan false, flNV) else (.inf (a != b), 0)
  | .fin a m1 e1, .fin b m2 e2 => (.fin (a != b) (m1 * m2) (e1 + e2), 0)

/-- x y + z, rounded once by the caller: 0 x infinity sets NV even beside a quiet NaN addend (R131). -/
def fmaVal (rm : Rm) (x y z : Val) : Val × Fl :=
  let p := mulVal x y
  let s := addVal rm p.1 z
  (s.1, p.2 ||| s.2)

/-- Order of two finite or infinite values as integers for comparison: -1, 0 or 1; zeros are equal. -/
def cmpVal (x y : Val) : Int :=
  match x, y with
  | .inf a, .inf b => if a = b then 0 else if a then -1 else 1
  | .inf a, _ => if a then -1 else 1
  | _, .inf b => if b then 1 else -1
  | .fin n1 m1 e1, .fin n2 m2 e2 =>
    let e := if e1 ≤ e2 then e1 else e2
    let a : Int := (m1 * 2 ^ (e1 - e).toNat : Nat)
    let b : Int := (m2 * 2 ^ (e2 - e).toNat : Nat)
    let sa := if n1 then -a else a
    let sb := if n2 then -b else b
    if sa < sb then -1 else if sb < sa then 1 else 0
  | _, _ => 0

def Val.sign : Val → Bool
  | .fin n _ _ => n
  | .inf n => n
  | .nan _ => false

/-- minimumNumber and maximumNumber on codes (R131): -0 orders below +0, and the bits of the chosen operand are kept. -/
def minMax (f : Fmt) (isMax : Bool) (a b : Nat) : Nat × Fl :=
  let x := decodeF f a
  let y := decodeF f b
  let fl : Fl := if x.isSig || y.isSig then flNV else 0
  if x.isNan && y.isNan then (canonNan f, fl)
  else if x.isNan then (b, fl)
  else if y.isNan then (a, fl)
  else
    let c := cmpVal x y
    let aLess : Bool := decide (c < 0) || (decide (c = 0) && x.sign && !y.sign)
    if isMax then (if aLess then b else a, fl) else (if aLess || (decide (c = 0) && x.sign == y.sign) then a else b, fl)

/-! ### Special functions (R132): fixed point with `fixP` fraction bits, and a sticky part where the value is irrational -/

def fixP : Nat := 320

/-- Integer square root by bits, from bit k down. -/
def sqrtBits (n : Nat) : Nat → Nat → Nat
  | 0, r => r
  | k + 1, r => if (r + 2 ^ k) * (r + 2 ^ k) ≤ n then sqrtBits n k (r + 2 ^ k) else sqrtBits n k r

def isqrt (n : Nat) : Nat := sqrtBits n (Nat.log2 n / 2 + 1) 0

/-- 2 (z + z^3 / 3 + z^5 / 5 + ...), z in fixed point: `t` is the current power and k the current odd number. -/
def atanhSum (z2 : Nat) : Nat → Nat → Nat → Nat → Nat
  | 0, _, _, acc => acc
  | n + 1, t, k, acc => atanhSum z2 n (t * z2 / 2 ^ fixP) (k + 2) (acc + t / k)

/-- ln((1 + z) / (1 - z)) for 0 <= z <= 1/3 in fixed point. -/
def lnRatio (z : Nat) : Nat := 2 * atanhSum (z * z / 2 ^ fixP) 110 z 1 0

/-- ln 2 in fixed point. -/
def ln2Fix : Nat := lnRatio (2 ^ fixP / 3)

/-- e^y for 0 <= y < 1 in fixed point: `t` is y^k / k!. -/
def expSum (y : Nat) : Nat → Nat → Nat → Nat → Nat
  | 0, _, _, acc => acc
  | n + 1, t, k, acc => expSum y n (t * y / 2 ^ fixP / k) (k + 1) (acc + t)

def expFix (y : Nat) : Nat := expSum y 80 (2 ^ fixP) 1 0

/-- A magnitude with its sticky part. -/
structure Mag where
  neg : Bool
  m : Nat
  e : Int
  sticky : Bool
  deriving DecidableEq, Repr

/-- Whole part of a signed value, rounded down, and the fraction in fixed point. -/
def splitFix (neg : Bool) (m : Nat) (e : Int) : Int × Nat :=
  if 0 ≤ e then (if neg then -((m * 2 ^ e.toNat : Nat) : Int) else ((m * 2 ^ e.toNat : Nat) : Int), 0)
  else
    let k := (-e).toNat
    let i := m / 2 ^ k
    let r := m % 2 ^ k
    let fr := r * 2 ^ fixP / 2 ^ k
    if neg then (if r = 0 then (-(i : Int), 0) else (-(i : Int) - 1, 2 ^ fixP - fr)) else ((i : Int), fr)

/-- 2^x. Beyond 2^20 either way the result lies outside every format. -/
def exp2Mag (neg : Bool) (m : Nat) (e : Int) : Mag :=
  if magGt m e 1 20 then { neg := false, m := 1, e := if neg then -5000 else 5000, sticky := false }
  else
    let s := splitFix neg m e
    if s.2 = 0 then { neg := false, m := 1, e := s.1, sticky := false }
    else { neg := false, m := expFix (s.2 * ln2Fix / 2 ^ fixP), e := s.1 - fixP, sticky := true }

/-- log2 of a positive value. -/
def log2Mag (m : Nat) (e : Int) : Mag :=
  let l := Nat.log2 m
  let ex : Int := (l : Int) + e
  if m = 2 ^ l then { neg := decide (ex < 0), m := ex.natAbs, e := 0, sticky := false }
  else
    let fr := lnRatio ((m - 2 ^ l) * 2 ^ fixP / (m + 2 ^ l)) * 2 ^ fixP / ln2Fix
    let v : Int := ex * (2 ^ fixP : Nat) + (fr : Nat)
    { neg := decide (v < 0), m := if v < 0 then v.natAbs - 1 else v.natAbs, e := -(fixP : Int), sticky := true }

/-- 1 / x. -/
def rcpMag (neg : Bool) (m : Nat) (e : Int) : Mag :=
  let k := Nat.log2 m + 64
  { neg := neg, m := 2 ^ k / m, e := -e - k, sticky := decide (2 ^ k % m ≠ 0) }

/-- sqrt x, x positive. -/
def sqrtMag (m : Nat) (e : Int) : Mag :=
  let odd : Bool := decide (e % 2 ≠ 0)
  let m1 := (if odd then 2 * m else m) * 2 ^ 128
  let e1 : Int := (if odd then e - 1 else e) / 2 - 64
  let r := isqrt m1
  { neg := false, m := r, e := e1, sticky := decide (r * r ≠ m1) }

/-- 1 / sqrt x, x positive. -/
def rsqMag (m : Nat) (e : Int) : Mag :=
  let odd : Bool := decide (e % 2 ≠ 0)
  let m1 := if odd then 2 * m else m
  let e1 : Int := (if odd then e - 1 else e) / 2
  let k := Nat.log2 m1 + 64
  let r := isqrt (2 ^ (2 * k) / m1)
  { neg := false, m := r, e := -e1 - k, sticky := decide (r * r * m1 ≠ 2 ^ (2 * k)) }

/-- e^y for y >= 0 in fixed point: fraction in [1, 2) and the power of two beside it. -/
def expWide (y : Nat) : Nat × Nat :=
  let n := y / ln2Fix
  (expFix (y - n * ln2Fix), n)

/-- tanh x: x less a trifle for tiny x, 1 less a trifle for large x, else (1 - t) / (1 + t) with t = e^(-2|x|). -/
def tanhMag (neg : Bool) (m : Nat) (e : Int) : Mag :=
  if magGt 1 (-60) m e then { neg := neg, m := m * 2 ^ 64 - 1, e := e - 64, sticky := true }
  else if magGt m e 1 6 then { neg := neg, m := 2 ^ 64 - 1, e := -64, sticky := true }
  else
    let y := if 0 ≤ e then 2 * m * 2 ^ e.toNat * 2 ^ fixP else 2 * m * 2 ^ fixP / 2 ^ (-e).toNat
    let w := expWide y
    let t := 2 ^ (2 * fixP) / (w.1 * 2 ^ w.2)
    { neg := neg, m := (2 ^ fixP - t) * 2 ^ fixP / (2 ^ fixP + t), e := -(fixP : Int), sticky := true }

/-- The special functions on a code, by fn of 13 R293 (R132). -/
def sfuVal (f : Fmt) (rm : Rm) (ftz : Bool) (fn x : Nat) : Nat × Fl :=
  let put (g : Mag) : Nat × Fl := roundTo f rm false ftz g.neg g.m g.e g.sticky
  let nv : Nat × Fl := (canonNan f, flNV)
  let one (neg : Bool) : Nat := signBit f neg + f.bias * 2 ^ f.mb
  match flushIn f ftz (decodeF f x) with
  | .nan s => (canonNan f, if s then flNV else 0)
  | .inf n =>
    match fn with
    | 0 => (if n then 0 else infCode f false, 0)
    | 1 => if n then nv else (infCode f false, 0)
    | 2 => (signBit f n, 0)
    | 3 => if n then nv else (0, 0)
    | 4 => if n then nv else (infCode f false, 0)
    | _ => (one n, 0)
  | .fin n m e =>
    if m = 0 then
      match fn with
      | 0 => (one false, 0)
      | 1 => (infCode f true, flDZ)
      | 2 | 3 => (infCode f n, flDZ)
      | _ => (signBit f n, 0)
    else
      match fn with
      | 0 => put (exp2Mag n m e)
      | 1 => if n then nv else put (log2Mag m e)
      | 2 => put (rcpMag n m e)
      | 3 => if n then nv else put (rsqMag m e)
      | 4 => if n then nv else put (sqrtMag m e)
      | _ => put (tanhMag n m e)

/-! ### Conversion and the generator (R133 to R137) -/

/-- Rng(key, ctr) (R137). -/
def rng (key ctr : BitVec 32) : BitVec 32 :=
  let x := key ^^^ (ctr * 0x9E3779B9#32)
  let x := x ^^^ (x >>> 16)
  let x := x * 0x85EBCA6B#32
  x ^^^ (x >>> 13)

/-- A narrowing by rounding mode (R133). -/
def narrow (f : Fmt) (rm : Rm) (sat : Bool) (v : Val) : Nat × Fl :=
  match v with
  | .nan s => (canonNan f, if s then flNV else 0)
  | .inf n =>
    if sat then (maxCode f n, flOF)
    else if f.hasInf then (infCode f n, 0)
    else (canonNan f, flNV)
  | .fin n m e => roundTo f rm sat false n m e false

/-- A narrowing by stochastic rounding with the draw x (R136). -/
def narrowSr (f : Fmt) (sat : Bool) (x : BitVec 32) (v : Val) : Nat × Fl :=
  match v with
  | .fin n m e =>
    if m = 0 then (signBit f n, 0)
    else
      let qu : Int := (Nat.log2 m : Int) + e - f.mb
      let q : Int := if qu < f.emin - f.mb then f.emin - f.mb else qu
      let k := (q - e).toNat
      let whole := if q ≤ e then m * 2 ^ (e - q).toNat else m / 2 ^ k
      let rest := if q ≤ e then 0 else m % 2 ^ k
      let d := rest * 65536 / 2 ^ k
      let r := if d + (x >>> 16).toNat ≥ 65536 then whole + 1 else whole
      let nx : Fl := if rest = 0 then 0 else flNX
      if magGt r q f.maxM f.maxQ then
        (if sat then maxCode f n else if f.hasInf then infCode f n else canonNan f, flOF ||| flNX)
      else
        (signBit f n + encodeMag f r q,
          if r ≠ 0 && magGt 1 f.emin r q && rest ≠ 0 then nx ||| flUF else nx)
  | _ => narrow f .rne sat v

/-- A float to a 32-bit integer (R135). -/
def toInt32 (rm : Rm) (uns : Bool) (v : Val) : Nat × Fl :=
  let lo : Int := if uns then 0 else -(2 ^ 31 : Int)
  let hi : Int := if uns then (2 ^ 32 : Int) - 1 else (2 ^ 31 : Int) - 1
  let bits (i : Int) : Nat := (BitVec.ofInt 32 i).toNat
  match v with
  | .nan _ => (0, flNV)
  | .inf n => (bits (if n then lo else hi), flNV)
  | .fin n m e =>
    let r := roundUnits rm n m e 0
    let i : Int := if n then -(r.1 : Int) else (r.1 : Int)
    if i < lo then (bits lo, flNV) else if hi < i then (bits hi, flNV) else (bits i, if r.2 then 0 else flNX)

/-- A 32-bit integer to a float (R135). -/
def fromInt32 (f : Fmt) (rm : Rm) (uns : Bool) (x : Nat) : Nat × Fl :=
  let i : Int := if uns then (x : Int) else sextNat 32 x
  roundTo f rm false false (decide (i < 0)) i.natAbs 0 false

end Sys2Proof.Machine
end

