-- ==== Sys2Proof/Machine/VecCore.lean ====
section
/-! DEFINITION. What a vector instruction reads and leaves: element groups, activity, the element-wise scheme and block
quantisation (13 R274, R275, R279; 06 R138 to R144). -/

namespace Sys2Proof.Machine

/-! ### Groups as numbers -/

/-- A group of registers as one little-endian number (13 R275). -/
def vget (v : List VReg) (n : Nat) : Nat → Nat
  | 0 => 0
  | k + 1 => (nth v n 0).toNat + 2 ^ 32768 * vget v (n + 1) k

def vput (v : List VReg) (n : Nat) : Nat → Nat → List VReg
  | 0, _ => v
  | k + 1, x => vput (v.set n (BitVec.ofNat 32768 x)) (n + 1) k (x >>> 32768)

/-- Element i of width w bytes. -/
def elemAt (x w i : Nat) : Nat := x >>> (8 * w * i) % 2 ^ (8 * w)

/-- Bits [lo+len-1:lo] replaced. -/
def putBits (x lo len v : Nat) : Nat := x - (x >>> lo % 2 ^ len) <<< lo + (v % 2 ^ len) <<< lo

def setElem (x w i v : Nat) : Nat := putBits x (8 * w * i) (8 * w) v

/-! ### One vector instruction in flight -/

/-- What a vector instruction leaves, before its flags are tested against the enables: the thread, raised flags by element,
bytes to store in order, a value for a general register. -/
structure VRes where
  t : Thread
  fl : List (Nat × Fl)
  out : List (Place × Byte)
  res : Option Word
  deriving DecidableEq, Repr

/-- A result without flags. -/
def VRes.of (t : Thread) : VRes := { t := t, fl := [], out := [], res := none }


def Captured.g (c : Captured) : Nat := 2 ^ c.grp.toNat
def Captured.ty (c : Captured) : Nat := c.vtype.toNat
def Captured.w (c : Captured) : Nat := typeW c.ty
def Captured.vlmax (c : Captured) : Nat := 4096 / c.w * c.g
def Captured.fmt (c : Captured) : Fmt := fmtOf c.ty
def Captured.rm (c : Captured) : Rm := rmOf c.vfcsr.toNat
def Captured.ftz (c : Captured) : Bool := bitOf c.vfcsr 2
def Captured.en (c : Captured) : Fl := c.vfcsr.extractLsb' 16 6

/-- The active elements below VL under a mask (13 R279). -/
def activeOf (c : Captured) (t : Thread) (m : BitVec 3) : List Nat :=
  (List.range c.vl).filter (fun i => (t.getM m.toNat).getLsbD i)

/-- The flags raised anywhere. -/
def orFlags (l : List (Nat × Fl)) : Fl := l.foldl (fun a x => a ||| x.2) 0

/-- Element-wise work: new element values of width w in a group of n registers at d, with their flags. -/
def mapInto (t : Thread) (d n w : Nat) (idx : List Nat) (f : Nat → Nat × Fl) : VRes :=
  let r := idx.foldl (fun a i => let y := f i; (setElem a.1 w i y.1, if y.2 = 0 then a.2 else (i, y.2) :: a.2))
    (vget t.v d n, ([] : List (Nat × Fl)))
  { t := { t with v := vput t.v d n r.1 }, fl := r.2.reverse, out := [], res := none }

/-- One-operand work on active elements. -/
def map1 (c : Captured) (t : Thread) (d a : BitVec 5) (m : BitVec 3) (f : Nat → Nat × Fl) : VRes :=
  let x := vget t.v a.toNat c.g
  mapInto t d.toNat c.g c.w (activeOf c t m) (fun i => f (elemAt x c.w i))

/-- Two-operand work on active elements. -/
def map2 (c : Captured) (t : Thread) (d a b : BitVec 5) (m : BitVec 3) (f : Nat → Nat → Nat × Fl) : VRes :=
  let x := vget t.v a.toNat c.g
  let y := vget t.v b.toNat c.g
  mapInto t d.toNat c.g c.w (activeOf c t m) (fun i => f (elemAt x c.w i) (elemAt y c.w i))

/-- Three-operand work, the destination's element last. -/
def map3 (c : Captured) (t : Thread) (d a b : BitVec 5) (m : BitVec 3) (f : Nat → Nat → Nat → Nat × Fl) : VRes :=
  let x := vget t.v a.toNat c.g
  let y := vget t.v b.toNat c.g
  let z := vget t.v d.toNat c.g
  mapInto t d.toNat c.g c.w (activeOf c t m) (fun i => f (elemAt x c.w i) (elemAt y c.w i) (elemAt z c.w i))

/-- A floating-point operand of an arithmetic instruction (06 R127). -/
def Captured.val (c : Captured) (x : Nat) : Val := flushIn c.fmt c.ftz (decodeF c.fmt x)

/-- The result of an arithmetic instruction: rounded once, with the flags of the operands (06 R131). -/
def Captured.finish (c : Captured) (r : Val × Fl) : Nat × Fl :=
  let x := roundVal c.fmt c.rm c.ftz r.1
  (x.1, x.2 ||| r.2)

/-- Mask bits of active positions (13 R301). -/
def maskInto (t : Thread) (d : BitVec 3) (idx : List Nat) (f : Nat → Bool × Fl) : VRes :=
  let old := (t.getM d.toNat).toNat
  let r := idx.foldl (fun a i => let y := f i; (putBits a.1 i 1 (if y.1 then 1 else 0), if y.2 = 0 then a.2 else (i, y.2) :: a.2))
    (old, ([] : List (Nat × Fl)))
  { t := t.setM d.toNat (BitVec.ofNat 16384 r.1), fl := r.2.reverse, out := [], res := none }

/-! ### Reductions and scans (06 R146, R147) -/

/-- A node of the tree: value and lowest present position, or absent. -/
abbrev Node := Option (Nat × Nat)

/-- An operand of a floating-point minimum or maximum of VRED and VSCAN: under FTZ a subnormal one is read as zero of its sign
(06 R127). -/
def Captured.flushCode (c : Captured) (x : Nat) : Nat :=
  match decodeF fp32 x, c.val x with
  | .fin _ m _, .fin n k _ => if m ≠ 0 ∧ k = 0 then (if n then 0x80000000 else 0) else x
  | _, _ => x

/-- An operation of VRED and VSCAN on two values, by code 0 to 5 (13 R298; 06 R127, R146, R147). -/
def redOp (c : Captured) (o x y : Nat) : Nat × Fl :=
  match o with
  | 0 => c.finish (addVal c.rm (c.val x) (c.val y))
  | 1 => minMax fp32 false (c.flushCode x) (c.flushCode y)
  | 2 => minMax fp32 true (c.flushCode x) (c.flushCode y)
  | 3 => ((x + y) % 2 ^ 32, 0)
  | 4 => (if sextNat 32 x < sextNat 32 y then x else y, 0)
  | _ => (if sextNat 32 x < sextNat 32 y then y else x, 0)

/-- A value that is passed through: a NaN becomes the canonical one, and a signalling one sets NV (06 R146). -/
def passNan (o x : Nat) : Nat × Fl :=
  if o < 3 then
    match decodeF fp32 x with
    | .nan s => (canonNan fp32, if s then flNV else 0)
    | _ => (x, 0)
  else (x, 0)

/-- One level of the tree. -/
def pairUp (c : Captured) (o : Nat) : List Node → List Node × List (Nat × Fl)
  | x :: y :: r =>
    let rest := pairUp c o r
    match x, y with
    | some (a, i), some (b, _) =>
      let z := redOp c o a b
      (some (z.1, i) :: rest.1, if z.2 = 0 then rest.2 else (i, z.2) :: rest.2)
    | some (a, i), none | none, some (a, i) =>
      let z := passNan o a
      (some (z.1, i) :: rest.1, if z.2 = 0 then rest.2 else (i, z.2) :: rest.2)
    | none, none => (none :: rest.1, rest.2)
  | l => (l, [])

def treeFold (c : Captured) (o : Nat) : Nat → List Node → List (Nat × Fl) → List Node × List (Nat × Fl)
  | 0, l, fl => (l, fl)
  | n + 1, l, fl =>
    let r := pairUp c o l
    treeFold c o n r.1 (fl ++ r.2)

/-- The result when every element is absent (13 R298). -/
def redEmpty (o : Nat) : Nat :=
  match o with
  | 0 => 0
  | 1 => 0x7F800000
  | 2 => 0xFF800000
  | 3 => 0
  | 4 => 0x7FFFFFFF
  | _ => 0x80000000

/-- x then y under the operation, either absent (06 R146). -/
def combine (c : Captured) (o at_ : Nat) (x y : Option Nat) : Option Nat × List (Nat × Fl) :=
  let put (z : Nat × Fl) : Option Nat × List (Nat × Fl) := (some z.1, if z.2 = 0 then [] else [(at_, z.2)])
  match x, y with
  | some a, some b => put (redOp c o a b)
  | some a, none => put (passNan o a)
  | none, some b => put (passNan o b)
  | none, none => (none, [])

/-- Serial partial results within a segment: `s` is the last one. -/
def partials (c : Captured) (o : Nat) (el : Nat → Option Nat) : List Nat → Option Nat → List (Nat × Option Nat) × List (Nat × Fl)
  | [], _ => ([], [])
  | j :: r, s =>
    let z := combine c o j s (el j)
    let q := partials c o el r z.1
    ((j, z.1) :: q.1, z.2 ++ q.2)

/-- The segments' outputs: `p` is the running combination of the earlier totals (06 R147). An output that is masked off is not
formed, and raises no flag (DESIGN CHOICE, log 54). -/
def scanSegs (c : Captured) (o : Nat) (el : Nat → Option Nat) : Nat → Nat → Option Nat → List (Nat × Option Nat) × List (Nat × Fl)
  | 0, _, _ => ([], [])
  | n + 1, k, p =>
    let js := (List.range 32).map (fun x => 32 * k + x)
    let s := partials c o el js none
    let outs := if k = 0 then s.1.map (fun x => (x.1, x.2, ([] : List (Nat × Fl))))
      else s.1.map (fun x => if (el x.1).isSome then let z := combine c o x.1 p x.2; (x.1, z.1, z.2) else (x.1, x.2, []))
    let total := match s.1.getLast? with | some x => x.2 | none => none
    let p' := if k = 0 then (total, []) else combine c o (32 * k) p total
    let rest := scanSegs c o el n (k + 1) p'.1
    (outs.map (fun x => (x.1, x.2.1)) ++ rest.1, s.2 ++ outs.flatMap (fun x => x.2.2) ++ p'.2 ++ rest.2)

/-! ### Block quantisation (06 R138 to R144) -/

/-- floor(log2 |v|) of a finite non-zero value. -/
def floorLog (m : Nat) (e : Int) : Int := (Nat.log2 m : Int) + e

/-- Element format of a block format code, for the float ones. -/
def blockFmt (f : Nat) : Fmt := if f = 0 then e4m3 else if f = 1 then e5m2 else e2m1

def blockEmax (f : Nat) : Int := if f = 0 then 8 else if f = 1 then 15 else if f = 3 then 0 else 2

def clampE (x : Int) : Int := if x < -127 then -127 else if 127 < x then 127 else x

/-- The larger magnitude of two. -/
def maxMag (a b : Nat × Int) : Nat × Int := if magGt b.1 b.2 a.1 a.2 then b else a

/-- Magnitude of a finite value; zero otherwise. -/
def Val.mag : Val → Nat × Int
  | .fin _ m e => (m, e)
  | _ => (0, 0)

/-- A finite value in a float block format, or MXINT8, under scale exponent E (R140): code and whether it is inexact, which is
all that a tiny element tells too (log 73). -/
def quantElem (f : Nat) (ex : Int) (neg : Bool) (m : Nat) (e : Int) : Nat × Bool :=
  if f = 3 then
    let r := roundUnits .rne neg m (e - ex + 6) 0
    let k := Nat.min r.1 127
    ((BitVec.ofInt 8 (if neg then -(k : Int) else (k : Int))).toNat, !r.2 || decide (127 < r.1))
  else
    let z := roundTo (blockFmt f) .rne true false neg m (e - ex) false
    (z.1, z.2 &&& flNX != 0)

/-- The code of an infinity in a block with finite elements (R141). -/
def quantInf (f : Nat) (neg : Bool) : Nat :=
  if f = 3 then (if neg then 0x81 else 0x7F) else maxCode (blockFmt f) neg

/-- A value at a common exponent as an integer. -/
def atExp (neg : Bool) (m : Nat) (e lo : Int) : Int :=
  let x : Int := (m * 2 ^ (e - lo).toNat : Nat)
  if neg then -x else x

/-- The E2M1 code, not 0b1000, nearest to a value at exponent lo, with its distance; a tie goes to the even code (R143). -/
def nearestE2M1 (v lo : Int) : List Nat → Nat × Int → Nat × Int
  | [], best => best
  | c :: r, best =>
    match decodeF e2m1 c with
    | .fin n m e =>
      let d : Int := ((v - atExp n m e lo).natAbs : Int)
      nearestE2M1 v lo r (if d < best.2 ∨ (d = best.2 ∧ c % 2 = 0 ∧ best.1 % 2 = 1) then (c, d) else best)
    | _ => nearestE2M1 v lo r best

/-- The FP4X code of v / 2^E beside the special value x (R143): code and whether it is inexact. -/
def fp4xElem (ex : Int) (xm : Val) (neg : Bool) (m : Nat) (e : Int) : Nat × Bool :=
  let x := match xm with | .fin n a b => (n, a, b) | _ => (false, 0, 0)
  let lo0 : Int := if e - ex < -1 then e - ex else -1
  let lo : Int := if x.2.2 < lo0 then x.2.2 else lo0
  let v := atExp neg m (e - ex) lo
  let b := nearestE2M1 v lo [1, 2, 3, 4, 5, 6, 7, 9, 10, 11, 12, 13, 14, 15] (0, (v.natAbs : Int))
  let dx : Int := ((v - atExp x.1 x.2.1 x.2.2 lo).natAbs : Int)
  if dx < b.2 then (8, decide (dx ≠ 0)) else (b.1, decide (b.2 ≠ 0))

/-- A quantised block: scale plane value, the codes, flags charged to positions. -/
structure QBlock where
  scale : Nat
  codes : List Nat
  fl : List (Nat × Fl)
  deriving DecidableEq, Repr

/-- The least k with |v| <= 448 x 2^k. -/
def ceilLog448 (m : Nat) (e : Int) : Int :=
  let k := floorLog m e - 8
  if magGt m e 7 (k + 6) then k + 1 else k

/-- The lowest index whose magnitude is the largest. -/
def imaxOf : List (Nat × Int) → Nat → Nat × (Nat × Int) → Nat
  | [], _, best => best.1
  | x :: r, i, best => imaxOf r (i + 1) (if magGt x.1 x.2 best.2.1 best.2.2 then (i, x) else best)

/-- Positions of a list that satisfy a test. -/
def positions {α : Type} (p : α → Bool) (l : List α) : List Nat :=
  (List.range l.length).filter (fun i => match l[i]? with | some x => p x | none => false)

/-- VQNT of one block of 32 values (R140 to R143): `infnan` is the infinity-to-NaN mode. DESIGN CHOICE (log 53): of what the spec leaves
open, QS is charged to the first NaN or infinity, OF to every infinity (in a block of infinities alone, to the first) and the NX of X to
imax (i1 of R130); and an element at or above VL, which counts as +0, is a finite element of R141. -/
def quantBlock (f : Nat) (infnan : Bool) (vs : List Val) : QBlock :=
  let isInf (v : Val) : Bool := match v with | .inf _ => true | _ => false
  let nans := positions Val.isNan vs
  let infs := positions isInf vs
  let all0 (fl : List (Nat × Fl)) : QBlock :=
    { scale := if f = 4 then 0x7FFF else 0xFF, codes := List.replicate 32 0, fl := fl }
  match nans, infs with
  | i :: _, _ => all0 ((i, flQS) :: (positions Val.isSig vs).map (fun j => (j, flNV)))
  | [], j :: _ =>
    if infnan then all0 [(j, flQS)]
    else if infs.length = 32 then all0 [(j, flQS), (j, flOF)]
    else
      let q := quantFinite f (vs.map (fun v => match v with
        | .inf n =>
          if f = 4 then
            let a := vs.foldl (fun m v => maxMag m v.mag) (0, 0)
            .fin n a.1 a.2
          else v
        | v => v))
      { q with fl := (j, flQS) :: (infs.map (fun k => (k, flOF)) ++ q.fl) }
  | [], [] => quantFinite f vs
where
  quantFinite (f : Nat) (vs : List Val) : QBlock :=
    let mags := vs.map Val.mag
    let amax := mags.foldl maxMag (0, 0)
    if f = 4 then
      let im := imaxOf mags 0 (0, nth mags 0 (0, 0))
      let other := ((List.range 32).filter (fun i => i ≠ im)).foldl (fun m i => maxMag m (nth mags i (0, 0))) (0, 0)
      let e1 : Int := if other.1 = 0 then -127 else floorLog other.1 other.2 - 2
      let e2 : Int := if amax.1 = 0 then -127 else ceilLog448 amax.1 amax.2
      let ex := clampE (if e1 < e2 then e2 else e1)
      let xv := nth vs im (.fin false 0 0)
      let xr := roundTo e4m3 .rne true false xv.sign xv.mag.1 (xv.mag.2 - ex) false
      let cs := vs.map (fun v => fp4xElem ex (decodeF e4m3 xr.1) v.sign v.mag.1 v.mag.2)
      { scale := (ex + 127).toNat + 256 * xr.1, codes := cs.map (fun c => c.1),
        fl := (if xr.2 &&& flNX != 0 then [(im, flNX)] else []) ++ (positions (fun c : Nat × Bool => c.2) cs).map (fun i => (i, flNX)) }
    else
      let ex := clampE (if amax.1 = 0 then -127 else floorLog amax.1 amax.2 - blockEmax f)
      let cs := vs.map (fun v => match v with
        | .inf n => (quantInf f n, false)
        | _ => quantElem f ex v.sign v.mag.1 v.mag.2)
      { scale := (ex + 127).toNat, codes := cs.map (fun c => c.1),
        fl := (positions (fun c : Nat × Bool => c.2) cs).map (fun i => (i, flNX)) }

/-- The value of an element code under a scale value (R138, R142); a NaN is quiet. DESIGN CHOICE (log 53): an X byte of 0x80, E4M3's -0,
read through code 0b1000 has the value -0. -/
def blockVal (f scale code : Nat) : Val :=
  let s := scale % 256
  if s = 0xFF then .nan false
  else
    let v : Val :=
      if f = 3 then
        let k := sextNat 8 code
        .fin (decide (k < 0)) k.natAbs (-6)
      else if f = 4 ∧ code % 16 = 8 then decodeF e4m3 (scale / 256)
      else decodeF (blockFmt f) code
    match v with
    | .fin n m e => .fin n m (e + (s : Int) - 127)
    | .nan _ => .nan false
    | .inf n => .inf n

/-- The code of element i in a block format's element plane: a byte, or a nibble of one. -/
def planeCode (f plane i : Nat) : Nat := if f = 2 ∨ f = 4 then plane >>> (4 * i) % 16 else plane >>> (8 * i) % 256

def setPlane (f plane i v : Nat) : Nat := if f = 2 ∨ f = 4 then putBits plane (4 * i) 4 v else putBits plane (8 * i) 8 v

end Sys2Proof.Machine
end

