-- ==== Sys2Proof/Machine/VecIssue.lean ====
section
/-! DEFINITION. Port queues and the issue of commands: captured values, sequence numbers, the arbiter's choice
(03 R60 to R64; 05 R113; 13 R278, R284). -/

namespace Sys2Proof.Machine

/-! ### Entering a port queue -/

/-- A port's number in the tag and in WDSTAT (03 R60; 19 R362). -/
def portNum : Port → Nat
  | .matrix => 0
  | .copy => 1
  | .batcher => 2
  | .fabric => 3
  | .vector => 4

/-- The thread's accesses to the local and peer scratchpad windows that have not performed (05 R113). -/
def State.scratchSet (s : State) (cl slot : Nat) : List Nat :=
  s.acts.filterMap (fun a =>
    if a.cl = cl ∧ a.slot = slot then
      match a.job with
      | .load _ (.scratch ..) _ _ _ _ _ _ => some a.id
      | .atomic _ (.scratch ..) _ _ _ _ _ _ _ => some a.id
      | .entry e | .flight e =>
        match e.line with
        | .scratch .. => if e.cls = 0 then some a.id else none
        | _ => none
      | _ => none
    else none)

/-- A command enters its port queue at issue, with its tag and the thread's base priority; the thread's pending loads from
its own window perform before it, and it starts after the thread's acquires (03 R60, R61; 05 R109, R113). -/
def State.enterPort (s : State) (c : Ctx) (p : Port) (i : Instr) (group : List Word) (vec : Option Captured) : State :=
  let s1 := s.fixLocal c.t.cl c.t.slot
  let sq := nth c.t.seqs (portNum p) 0
  let cmd : Cmd :=
    ⟨s1.seq, p, c.t.cl, c.t.slot, c.t.rgn, c.t.knum, sq, c.t.prio, s.pulse c.t.cl, s1.seq, i, s.cur.words.setWidth 32, group, c.f.swz,
      2 ^ c.t.wcode.toNat, vec, s1.scratchSet c.t.cl c.t.slot ++ s.openAcq c.t⟩
  let s2 := s1.modThread c.t.cl c.t.slot (fun u => { u with seqs := u.seqs.set (portNum p) (sq + 1) })
  { s2 with cmds := s1.cmds ++ [cmd], seq := s1.seq + 1 }

/-- The values that a vector instruction captures (13 R278, 19 R370): the descriptor that it selects and its
general-register operands. -/
def capture (s : State) (c : Ctx) (i : Instr) (k : Nat) (ga gb : Word) (pd : Option (BitVec 5)) : Captured :=
  { instr := i, word := s.cur.words.setWidth 32, words := s.cur.words,
    offset := (c.bpc - BitVec.ofNat 64 c.f.code).setWidth 32, vtype := c.t.vtype, grp := c.t.grp, vl := c.t.vl,
    vfcsr := c.t.vfcsr, swz := nth c.f.swz k 0, ga := ga, gb := gb, pendReg := pd }

/-- The issue of a vector instruction: its values are captured, a general destination becomes pending, and it enters the
vector port, or the thread's replay queue behind a vector trap (13 R278, R284, R290; 03 R52). -/
def vecEff (i : Instr) (k : Nat) (ga gb : Thread → Word) (pd : Option (BitVec 5)) (c : Ctx) (s : State) : State :=
  let s1 := match pd with
    | some d => s.modThread c.t.cl c.t.slot (fun u => u.pend (.g d))
    | none => s
  let x := capture s c i k (ga c.t) (gb c.t) pd
  if c.t.vstop then
    s1.modThread c.t.cl c.t.slot (fun u => { u with replay := u.replay ++ [x], seqs := u.seqs.set 4 (nth u.seqs 4 0 + 1) })
  else s1.enterPort c .vector i [] (some x)

/-- A vector instruction without a general-register operand. -/
def vecPlain (i : Instr) (s : State) : Host.Outcome State Fault Refusal :=
  issueI i s (vecEff i 0 (fun _ => 0) (fun _ => 0) none)

/-! ### The arbiter (03 R62) -/

/-- The oldest entry of each thread in a port queue. -/
def State.candidates (s : State) (cl : Nat) (p : Port) : List Cmd :=
  let q := s.cmds.filter (fun c => c.cl == cl && c.port == p)
  q.filter (fun c => !q.any (fun d => d.slot == c.slot && decide (d.ord < c.ord)))

/-- Command priority. -/
def State.cmdPrio (s : State) (c : Cmd) : Nat := Nat.min 7 (c.prio.toNat + (s.pulse c.cl - c.since) / s.ageq c.cl)

/-- x starts before y: the higher priority, then the longer wait, then the lower slot (R62; 17 R352's table of variants lists
the other order of two equal commands too: log 52). -/
def State.cmdBefore (s : State) (x y : Cmd) : Bool :=
  if s.cmdPrio x ≠ s.cmdPrio y then decide (s.cmdPrio y < s.cmdPrio x)
  else if x.since ≠ y.since then decide (x.since < y.since)
  else decide (x.slot % 512 < y.slot % 512)

/-- The command that starts first; of two between which R62 does not decide, the later in the queue (03 R62; log 52). -/
def State.bestCmd (s : State) : List Cmd → Option Cmd
  | [] => none
  | c :: r =>
    match s.bestCmd r with
    | none => some c
    | some d => if s.cmdBefore c d then some c else some d

/-- The command that the port's arbiter chooses. -/
def State.chosen (s : State) (cl : Nat) (p : Port) : Option Cmd := s.bestCmd (s.candidates cl p)

/-- A command leaves its queue as it starts, and its thread's next entry becomes a candidate in this pulse. -/
def State.takeCmd (s : State) (c : Cmd) : State :=
  let rest := s.cmds.filter (fun d => d.id != c.id)
  let next := lowest (fun _ => true) ((rest.filter (fun d => d.cl == c.cl && d.slot == c.slot && d.port == c.port)).map (fun d => d.ord))
  { s with cmds := rest.map (fun d => if next = some d.ord then { d with since := s.pulse c.cl } else d) }

/-- The engine of a port is held until a pulse of its cluster (03 R63). -/
def State.hold (s : State) (cl : Nat) (p : Port) (pulses : Nat) : State :=
  s.modClu cl (fun k => { k with busy := k.busy.set (portNum p) (s.pulse cl + pulses) })

/-- The started command of a port whose reads are still to perform, or have performed, with what they have read (05 R105; 13 R283). -/
def State.reading? (s : State) (cl : Nat) (p : Port) : Option (Act × Cmd × List (Place × List Byte)) :=
  s.acts.findSome? (fun a => if a.cl = cl then (match a.job with
    | .reading c got _ => if c.port = p then some (a, c, got) else none
    | _ => none) else none)

/-- The batcher of a cluster is making formations, during which no other event of it takes effect (08 R171, R174, R178; log 72). -/
def State.cbForming (s : State) (cl : Nat) : Bool :=
  s.frames.any (fun f => f.cl == cl && !f.suspended &&
    (match f.cb with | some b => b.forming || b.flights.any (fun x => !x.published) | none => false))

/-- The engine of a port can start a command: its cluster has a pulse, no command holds it or still reads, it does not stall at a write
that has found no entry, and its batcher makes no formations (R63; 04 R92; 08 R171; 24 R434). -/
def State.idle (s : State) (cl : Nat) (p : Port) : Bool :=
  s.delivers cl && (s.reading? cl p).isNone && nth (s.clu cl).busy (portNum p) 0 ≤ s.pulse cl && !s.stalled cl p && !(p == .batcher && s.cbForming cl)

/-- Every piece of work of a list is gone. -/
def State.goneAll (s : State) (ids : List Nat) : Bool := ids.all (fun i => !(s.acts.any (fun a => a.id == i)))

end Sys2Proof.Machine
end

