-- ==== Sys2Proof/Machine/VecArith.lean ====
section
/-! DEFINITION. Vector arithmetic, majors 0x2A to 0x2C (13 R291 to R293): for each instruction its effect on a thread, made
when the engine starts it, and its meaning at issue, which enters it into the vector port (R278). -/

namespace Sys2Proof.Machine

/-- The class of a code, 0 to 9 (13 R291). -/
def classOf (f : Fmt) (x : Nat) : Nat :=
  match decodeF f x with
  | .inf n => if n then 0 else 7
  | .nan s => if s then 8 else 9
  | .fin n m e =>
    if m = 0 then (if n then 3 else 4)
    else if m < 2 ^ f.mb && decide (e = f.emin - f.mb) then (if n then 2 else 5)
    else if n then 1 else 6

/-! ### Floating point (13 R291) -/

/-- VADD (13 R291; 06 R131). -/
def effVadd (c : Captured) (t : Thread) (d a b : BitVec 5) (m : BitVec 3) : VRes :=
  map2 c t d a b m (fun x y => c.finish (addVal c.rm (c.val x) (c.val y)))

/-- VADD is issued (13 R291; R278). -/
def execVadd (d a b : BitVec 5) (m : BitVec 3) (s : State) : Host.Outcome State Fault Refusal := vecPlain (.vadd d a b m) s

/-- VSUB (13 R291; 06 R131). -/
def effVsub (c : Captured) (t : Thread) (d a b : BitVec 5) (m : BitVec 3) : VRes :=
  map2 c t d a b m (fun x y => c.finish (addVal c.rm (c.val x) (c.val y).neg))

/-- VSUB is issued (13 R291; R278). -/
def execVsub (d a b : BitVec 5) (m : BitVec 3) (s : State) : Host.Outcome State Fault Refusal := vecPlain (.vsub d a b m) s

/-- VMUL (13 R291; 06 R131). -/
def effVmul (c : Captured) (t : Thread) (d a b : BitVec 5) (m : BitVec 3) : VRes :=
  map2 c t d a b m (fun x y => c.finish (mulVal (c.val x) (c.val y)))

/-- VMUL is issued (13 R291; R278). -/
def execVmul (d a b : BitVec 5) (m : BitVec 3) (s : State) : Host.Outcome State Fault Refusal := vecPlain (.vmul d a b m) s

/-- VFMA: a x b + d (13 R291; 06 R131). -/
def effVfma (c : Captured) (t : Thread) (d a b : BitVec 5) (m : BitVec 3) : VRes :=
  map3 c t d a b m (fun x y z => c.finish (fmaVal c.rm (c.val x) (c.val y) (c.val z)))

/-- VFMA is issued (13 R291; R278). -/
def execVfma (d a b : BitVec 5) (m : BitVec 3) (s : State) : Host.Outcome State Fault Refusal := vecPlain (.vfma d a b m) s

/-- VFMS: a x b - d (13 R291; 06 R131). -/
def effVfms (c : Captured) (t : Thread) (d a b : BitVec 5) (m : BitVec 3) : VRes :=
  map3 c t d a b m (fun x y z => c.finish (fmaVal c.rm (c.val x) (c.val y) (c.val z).neg))

/-- VFMS is issued (13 R291; R278). -/
def execVfms (d a b : BitVec 5) (m : BitVec 3) (s : State) : Host.Outcome State Fault Refusal := vecPlain (.vfms d a b m) s

/-- VFNMA: d - a x b (13 R291; 06 R131). -/
def effVfnma (c : Captured) (t : Thread) (d a b : BitVec 5) (m : BitVec 3) : VRes :=
  map3 c t d a b m (fun x y z => c.finish (fmaVal c.rm (c.val x).neg (c.val y) (c.val z)))

/-- VFNMA is issued (13 R291; R278). -/
def execVfnma (d a b : BitVec 5) (m : BitVec 3) (s : State) : Host.Outcome State Fault Refusal := vecPlain (.vfnma d a b m) s

/-- VMIN (13 R291; 06 R131). -/
def effVmin (c : Captured) (t : Thread) (d a b : BitVec 5) (m : BitVec 3) : VRes :=
  map2 c t d a b m (minMax c.fmt false)

/-- VMIN is issued (13 R291; R278). -/
def execVmin (d a b : BitVec 5) (m : BitVec 3) (s : State) : Host.Outcome State Fault Refusal := vecPlain (.vmin d a b m) s

/-- VMAX (13 R291; 06 R131). -/
def effVmax (c : Captured) (t : Thread) (d a b : BitVec 5) (m : BitVec 3) : VRes :=
  map2 c t d a b m (minMax c.fmt true)

/-- VMAX is issued (13 R291; R278). -/
def execVmax (d a b : BitVec 5) (m : BitVec 3) (s : State) : Host.Outcome State Fault Refusal := vecPlain (.vmax d a b m) s

/-- VABS: the top bit cleared (13 R291; 06 R131). -/
def effVabs (c : Captured) (t : Thread) (d a : BitVec 5) (m : BitVec 3) : VRes :=
  map1 c t d a m (fun x => (x % 2 ^ (8 * c.w - 1), 0))

/-- VABS is issued (13 R291; R278). -/
def execVabs (d a : BitVec 5) (m : BitVec 3) (s : State) : Host.Outcome State Fault Refusal := vecPlain (.vabs d a m) s

/-- VNEG: the top bit inverted (13 R291; 06 R131). -/
def effVneg (c : Captured) (t : Thread) (d a : BitVec 5) (m : BitVec 3) : VRes :=
  map1 c t d a m (fun x => (x ^^^ 2 ^ (8 * c.w - 1), 0))

/-- VNEG is issued (13 R291; R278). -/
def execVneg (d a : BitVec 5) (m : BitVec 3) (s : State) : Host.Outcome State Fault Refusal := vecPlain (.vneg d a m) s

/-- VCLASS (13 R291; 06 R131). -/
def effVclass (c : Captured) (t : Thread) (d a : BitVec 5) (m : BitVec 3) : VRes :=
  map1 c t d a m (fun x => (2 ^ classOf c.fmt x, 0))

/-- VCLASS is issued (13 R291; R278). -/
def execVclass (d a : BitVec 5) (m : BitVec 3) (s : State) : Host.Outcome State Fault Refusal := vecPlain (.vclass d a m) s

/-! ### Integer arithmetic (13 R292): results are taken modulo 2^(8w) where they are stored -/

/-- VIADD (13 R292). -/
def effViadd (c : Captured) (t : Thread) (d a b : BitVec 5) (m : BitVec 3) : VRes :=
  map2 c t d a b m (fun x y => (x + y, 0))

/-- VIADD is issued (13 R292; R278). -/
def execViadd (d a b : BitVec 5) (m : BitVec 3) (s : State) : Host.Outcome State Fault Refusal := vecPlain (.viadd d a b m) s

/-- VISUB (13 R292). -/
def effVisub (c : Captured) (t : Thread) (d a b : BitVec 5) (m : BitVec 3) : VRes :=
  map2 c t d a b m (fun x y => (x + (2 ^ (8 * c.w) - y), 0))

/-- VISUB is issued (13 R292; R278). -/
def execVisub (d a b : BitVec 5) (m : BitVec 3) (s : State) : Host.Outcome State Fault Refusal := vecPlain (.visub d a b m) s

/-- VIMUL (13 R292). -/
def effVimul (c : Captured) (t : Thread) (d a b : BitVec 5) (m : BitVec 3) : VRes :=
  map2 c t d a b m (fun x y => (x * y, 0))

/-- VIMUL is issued (13 R292; R278). -/
def execVimul (d a b : BitVec 5) (m : BitVec 3) (s : State) : Host.Outcome State Fault Refusal := vecPlain (.vimul d a b m) s

/-- VIMAD (13 R292). -/
def effVimad (c : Captured) (t : Thread) (d a b : BitVec 5) (m : BitVec 3) : VRes :=
  map3 c t d a b m (fun x y z => (z + x * y, 0))

/-- VIMAD is issued (13 R292; R278). -/
def execVimad (d a b : BitVec 5) (m : BitVec 3) (s : State) : Host.Outcome State Fault Refusal := vecPlain (.vimad d a b m) s

/-- VIMIN: signed (13 R292). -/
def effVimin (c : Captured) (t : Thread) (d a b : BitVec 5) (m : BitVec 3) : VRes :=
  map2 c t d a b m (fun x y => (if sextNat (8 * c.w) x < sextNat (8 * c.w) y then x else y, 0))

/-- VIMIN is issued (13 R292; R278). -/
def execVimin (d a b : BitVec 5) (m : BitVec 3) (s : State) : Host.Outcome State Fault Refusal := vecPlain (.vimin d a b m) s

/-- VIMAX: signed (13 R292). -/
def effVimax (c : Captured) (t : Thread) (d a b : BitVec 5) (m : BitVec 3) : VRes :=
  map2 c t d a b m (fun x y => (if sextNat (8 * c.w) x < sextNat (8 * c.w) y then y else x, 0))

/-- VIMAX is issued (13 R292; R278). -/
def execVimax (d a b : BitVec 5) (m : BitVec 3) (s : State) : Host.Outcome State Fault Refusal := vecPlain (.vimax d a b m) s

/-- VAND (13 R292). -/
def effVand (c : Captured) (t : Thread) (d a b : BitVec 5) (m : BitVec 3) : VRes :=
  map2 c t d a b m (fun x y => (Nat.land x y, 0))

/-- VAND is issued (13 R292; R278). -/
def execVand (d a b : BitVec 5) (m : BitVec 3) (s : State) : Host.Outcome State Fault Refusal := vecPlain (.vand d a b m) s

/-- VOR (13 R292). -/
def effVor (c : Captured) (t : Thread) (d a b : BitVec 5) (m : BitVec 3) : VRes :=
  map2 c t d a b m (fun x y => (Nat.lor x y, 0))

/-- VOR is issued (13 R292; R278). -/
def execVor (d a b : BitVec 5) (m : BitVec 3) (s : State) : Host.Outcome State Fault Refusal := vecPlain (.vor d a b m) s

/-- VXOR (13 R292). -/
def effVxor (c : Captured) (t : Thread) (d a b : BitVec 5) (m : BitVec 3) : VRes :=
  map2 c t d a b m (fun x y => (Nat.xor x y, 0))

/-- VXOR is issued (13 R292; R278). -/
def execVxor (d a b : BitVec 5) (m : BitVec 3) (s : State) : Host.Outcome State Fault Refusal := vecPlain (.vxor d a b m) s

/-- VSHL (13 R292). -/
def effVshl (c : Captured) (t : Thread) (d a b : BitVec 5) (m : BitVec 3) : VRes :=
  map2 c t d a b m (fun x y => (x <<< (y % (8 * c.w)), 0))

/-- VSHL is issued (13 R292; R278). -/
def execVshl (d a b : BitVec 5) (m : BitVec 3) (s : State) : Host.Outcome State Fault Refusal := vecPlain (.vshl d a b m) s

/-- VSHR (13 R292). -/
def effVshr (c : Captured) (t : Thread) (d a b : BitVec 5) (m : BitVec 3) : VRes :=
  map2 c t d a b m (fun x y => (x >>> (y % (8 * c.w)), 0))

/-- VSHR is issued (13 R292; R278). -/
def execVshr (d a b : BitVec 5) (m : BitVec 3) (s : State) : Host.Outcome State Fault Refusal := vecPlain (.vshr d a b m) s

/-- VSRA (13 R292). -/
def effVsra (c : Captured) (t : Thread) (d a b : BitVec 5) (m : BitVec 3) : VRes :=
  map2 c t d a b m (fun x y => ((sextNat (8 * c.w) x / (2 ^ (y % (8 * c.w)) : Nat) % (2 ^ (8 * c.w) : Nat)).toNat, 0))

/-- VSRA is issued (13 R292; R278). -/
def execVsra (d a b : BitVec 5) (m : BitVec 3) (s : State) : Host.Outcome State Fault Refusal := vecPlain (.vsra d a b m) s

/-! ### Special functions (13 R293) -/

/-- VEXP2 (13 R293; 06 R132). -/
def effVexp2 (c : Captured) (t : Thread) (d a : BitVec 5) (m : BitVec 3) : VRes :=
  map1 c t d a m (sfuVal c.fmt c.rm c.ftz 0)

/-- VEXP2 is issued (13 R293; R278). -/
def execVexp2 (d a : BitVec 5) (m : BitVec 3) (s : State) : Host.Outcome State Fault Refusal := vecPlain (.vexp2 d a m) s

/-- VLOG2 (13 R293; 06 R132). -/
def effVlog2 (c : Captured) (t : Thread) (d a : BitVec 5) (m : BitVec 3) : VRes :=
  map1 c t d a m (sfuVal c.fmt c.rm c.ftz 1)

/-- VLOG2 is issued (13 R293; R278). -/
def execVlog2 (d a : BitVec 5) (m : BitVec 3) (s : State) : Host.Outcome State Fault Refusal := vecPlain (.vlog2 d a m) s

/-- VRCP (13 R293; 06 R132). -/
def effVrcp (c : Captured) (t : Thread) (d a : BitVec 5) (m : BitVec 3) : VRes :=
  map1 c t d a m (sfuVal c.fmt c.rm c.ftz 2)

/-- VRCP is issued (13 R293; R278). -/
def execVrcp (d a : BitVec 5) (m : BitVec 3) (s : State) : Host.Outcome State Fault Refusal := vecPlain (.vrcp d a m) s

/-- VRSQ (13 R293; 06 R132). -/
def effVrsq (c : Captured) (t : Thread) (d a : BitVec 5) (m : BitVec 3) : VRes :=
  map1 c t d a m (sfuVal c.fmt c.rm c.ftz 3)

/-- VRSQ is issued (13 R293; R278). -/
def execVrsq (d a : BitVec 5) (m : BitVec 3) (s : State) : Host.Outcome State Fault Refusal := vecPlain (.vrsq d a m) s

/-- VSQRT (13 R293; 06 R132). -/
def effVsqrt (c : Captured) (t : Thread) (d a : BitVec 5) (m : BitVec 3) : VRes :=
  map1 c t d a m (sfuVal c.fmt c.rm c.ftz 4)

/-- VSQRT is issued (13 R293; R278). -/
def execVsqrt (d a : BitVec 5) (m : BitVec 3) (s : State) : Host.Outcome State Fault Refusal := vecPlain (.vsqrt d a m) s

/-- VTANH (13 R293; 06 R132). -/
def effVtanh (c : Captured) (t : Thread) (d a : BitVec 5) (m : BitVec 3) : VRes :=
  map1 c t d a m (sfuVal c.fmt c.rm c.ftz 5)

/-- VTANH is issued (13 R293; R278). -/
def execVtanh (d a : BitVec 5) (m : BitVec 3) (s : State) : Host.Outcome State Fault Refusal := vecPlain (.vtanh d a m) s

end Sys2Proof.Machine
end

