-- ==== Sys2Proof/Machine/VecMisc.lean ====
section
/-! DEFINITION. Vector moves, conversions, quantisation, generators, reductions, permutations and masks: majors 0x29 and
0x2D to 0x2F (13 R276, R281, R282, R290, R294 to R301). -/

namespace Sys2Proof.Machine

/-! ### Moves (13 R290) -/

/-- The active elements take values by their index. -/
def fill (c : Captured) (t : Thread) (d : BitVec 5) (m : BitVec 3) (f : Nat → Nat) : VRes :=
  mapInto t d.toNat c.g c.w (activeOf c t m) (fun i => (f i, 0))

/-- A value for the general register that the instruction set pending. -/
def VRes.value (t : Thread) (v : Nat) : VRes := { t := t, fl := [], out := [], res := some (BitVec.ofNat 64 v) }

/-- VBCAST. -/
def effVbcast (c : Captured) (t : Thread) (d : BitVec 5) (m : BitVec 3) : VRes := fill c t d m (fun _ => c.ga.toNat)

/-- VBCAST is issued. -/
def execVbcast (d a : BitVec 5) (m : BitVec 3) (s : State) : Host.Outcome State Fault Refusal :=
  issueI (.vbcast d a m) s (vecEff (.vbcast d a m) 0 (fun t => t.getG a.toNat) (fun _ => 0) none)

/-- VMOVS from a vector: element 0. -/
def effVmovsToG (c : Captured) (t : Thread) (a : BitVec 5) : VRes := VRes.value t (elemAt (vget t.v a.toNat c.g) c.w 0)

/-- VMOVS to a general register is issued. -/
def execVmovsToG (d a : BitVec 5) (s : State) : Host.Outcome State Fault Refusal :=
  issueI (.vmovsToG d a) s (vecEff (.vmovsToG d a) 0 (fun _ => 0) (fun _ => 0) (some d))

/-- VMOVS to a vector: element 0, whatever VL and the masks are. -/
def effVmovsToV (c : Captured) (t : Thread) (d : BitVec 5) : VRes :=
  mapInto t d.toNat c.g c.w [0] (fun _ => (c.ga.toNat, 0))

/-- VMOVS to a vector register is issued. -/
def execVmovsToV (d a : BitVec 5) (s : State) : Host.Outcome State Fault Refusal :=
  issueI (.vmovsToV d a) s (vecEff (.vmovsToV d a) 0 (fun t => t.getG a.toNat) (fun _ => 0) none)

/-- VEXT: element G[b], or 0 from VLMAX on. -/
def effVext (c : Captured) (t : Thread) (a : BitVec 5) : VRes :=
  VRes.value t (if c.gb.toNat < c.vlmax then elemAt (vget t.v a.toNat c.g) c.w c.gb.toNat else 0)

/-- VEXT is issued. -/
def execVext (d a b : BitVec 5) (s : State) : Host.Outcome State Fault Refusal :=
  issueI (.vext d a b) s (vecEff (.vext d a b) 0 (fun _ => 0) (fun t => t.getG b.toNat) (some d))

/-- VIOTA. -/
def effViota (c : Captured) (t : Thread) (d : BitVec 5) (m : BitVec 3) : VRes := fill c t d m (fun i => i)

/-- VIOTA is issued. -/
def execViota (d : BitVec 5) (m : BitVec 3) (s : State) : Host.Outcome State Fault Refusal := vecPlain (.viota d m) s

/-! ### The instructions of the Newel, and VSIG (13 R276, R281, R282) -/

/-- VSETVL: VTYPE and VL are set at issue, and G[d] receives VL (R276). -/
def execVsetvl (d a : BitVec 5) (t : BitVec 4) (g : BitVec 2) (s : State) : Host.Outcome State Fault Refusal :=
  issueI (.vsetvl d a t g) s (fun c s =>
    let vl := Nat.min (c.t.getG a.toNat).toNat (4096 / typeW t.toNat * 2 ^ g.toNat)
    s.modThread c.t.cl c.t.slot (fun u => { u with vtype := t, grp := g, vl := vl }.setG d.toNat (BitVec.ofNat 64 vl)))

/-- VWAIT: the thread is not ready until its earlier vector instructions have retired (R281). -/
def execVwait (s : State) : Host.Outcome State Fault Refusal :=
  issueI .vwait s (fun c s =>
    if s.unretired c.t.cl c.t.slot = 0 then s else s.startWait c.t.cl c.t.slot .vwait)

/-- VSIG is issued (R282). -/
def execVsig (e : BitVec 8) (i : BitVec 2) (s : State) : Host.Outcome State Fault Refusal := vecPlain (.vsig e i) s

/-! ### Conversion (13 R294; 06 R133 to R136) -/

/-- The lane of an element of width w (13 R275). -/
def laneOf (w i : Nat) : Nat := i * w % 4096 / 4

/-- One draw of a lane: the output and the counters after it (06 R136, R137). -/
def draw (key ctr l : Nat) : BitVec 32 × Nat :=
  (rng (BitVec.ofNat 32 (elemAt key 4 l)) (BitVec.ofNat 32 (elemAt ctr 4 l)), setElem ctr 4 l (elemAt ctr 4 l + 1))

/-- Draws for a list of elements in ascending order: outputs with their elements, and the counters. -/
def draws (w key : Nat) : List Nat → Nat → List (Nat × BitVec 32) × Nat
  | [], ctr => ([], ctr)
  | i :: r, ctr =>
    let x := draw key ctr (laneOf w i)
    let y := draws w key r x.2
    ((i, x.1) :: y.1, y.2)

/-- The converted code of an element: r selects stochastic rounding, c saturation or an unsigned integer. -/
def cvtElem (src dst : Nat) (rm : Rm) (r c : Bool) (x : BitVec 32) (v : Nat) : Nat × Fl :=
  if dst = 5 then toInt32 rm c (decodeF (fmtOf src) v)
  else if src = 5 then fromInt32 (fmtOf dst) rm c v
  else if r then narrowSr (fmtOf dst) c x (decodeF (fmtOf src) v)
  else narrow (fmtOf dst) rm c (decodeF (fmtOf src) v)

/-- VCVT. -/
def effVcvt (c : Captured) (t : Thread) (d a dt : BitVec 5) (m : BitVec 3) (r k : BitVec 1) : VRes :=
  let x := vget t.v a.toNat c.g
  let wd := typeW dt.toNat
  let idx := activeOf c t m
  let ds := if r = 1 then draws c.w t.key.toNat idx t.ctr.toNat else ([], t.ctr.toNat)
  mapInto { t with ctr := BitVec.ofNat 32768 ds.2 } d.toNat ((c.g * wd + c.w - 1) / c.w) wd idx (fun i =>
    cvtElem c.ty dt.toNat c.rm (r == 1) (k == 1) (match ds.1.find? (fun y => y.1 == i) with | some y => y.2 | none => 0)
      (elemAt x c.w i))

/-- VCVT is issued. -/
def execVcvt (d a t : BitVec 5) (m : BitVec 3) (r c : BitVec 1) (s : State) : Host.Outcome State Fault Refusal :=
  vecPlain (.vcvt d a t m r c) s

/-! ### Blocks (13 R295, R296) -/

/-- The value of an element in its block; absent elements are +0. -/
def blockElem (c : Captured) (x i : Nat) : Val := if i < c.vl then decodeF c.fmt (elemAt x c.w i) else .fin false 0 0

/-- The planes and flags after the blocks of a list (log 23: a block with no active element does nothing). -/
def quantBlocks (c : Captured) (t : Thread) (m : BitVec 3) (n : Bool) (f x : Nat) :
    List Nat → Nat × Nat × List (Nat × Fl) × List (Nat × Nat) → Nat × Nat × List (Nat × Fl) × List (Nat × Nat)
  | [], st => st
  | k :: r, (el, _, fl, sc) =>
    let idx := (List.range 32).filter (fun j => decide (32 * k + j < c.vl) && (t.getM m.toNat).getLsbD (32 * k + j))
    if idx.isEmpty then quantBlocks c t m n f x r (el, 0, fl, sc)
    else
      let q := quantBlock f n ((List.range 32).map (fun j => blockElem c x (32 * k + j)))
      let el1 := idx.foldl (fun p j => setPlane f p (32 * k + j) (nth q.codes j 0)) el
      quantBlocks c t m n f x r (el1, 0, fl ++ q.fl.map (fun y => (32 * k + y.1, y.2)), sc ++ [(k, q.scale)])

/-- VQNT: the element plane, then the scale plane. -/
def effVqnt (c : Captured) (t : Thread) (d a b : BitVec 5) (m : BitVec 3) (n : BitVec 1) (f : BitVec 3) : VRes :=
  let x := vget t.v a.toNat c.g
  let de := planeSpan c.vlmax (planeEP f.toNat)
  let ds := planeSpan c.vlmax (planeSP f.toNat)
  let r := quantBlocks c t m (n == 1) f.toNat x (List.range ((c.vl + 31) / 32)) (vget t.v d.toNat de, 0, [], [])
  let v1 := vput t.v d.toNat de r.1
  let sp := 8 * planeSP f.toNat
  let sc := r.2.2.2.foldl (fun p y => putBits p (sp * y.1) sp y.2) (vget v1 b.toNat ds)
  { t := { t with v := vput v1 b.toNat ds sc }, fl := r.2.2.1, out := [], res := none }

/-- VQNT is issued. -/
def execVqnt (d a b : BitVec 5) (m : BitVec 3) (n : BitVec 1) (f : BitVec 3) (s : State) : Host.Outcome State Fault Refusal :=
  vecPlain (.vqnt d a b m n f) s

/-- VDQ. -/
def effVdq (c : Captured) (t : Thread) (d a b : BitVec 5) (m : BitVec 3) (f : BitVec 3) : VRes :=
  let el := vget t.v a.toNat (planeSpan c.vlmax (planeEP f.toNat))
  let sc := vget t.v b.toNat (planeSpan c.vlmax (planeSP f.toNat))
  let sp := 8 * planeSP f.toNat
  mapInto t d.toNat c.g c.w (activeOf c t m) (fun i =>
    roundVal c.fmt c.rm false (blockVal f.toNat (sc >>> (sp * (i / 32)) % 2 ^ sp) (planeCode f.toNat el i)))

/-- VDQ is issued. -/
def execVdq (d a b : BitVec 5) (m : BitVec 3) (f : BitVec 3) (s : State) : Host.Outcome State Fault Refusal :=
  vecPlain (.vdq d a b m f) s

/-! ### Generators (13 R297) -/

/-- VRSEED: keys and counters of the lanes below min(VL, 1,024) whose mask bit is set. -/
def effVrseed (c : Captured) (t : Thread) (a b : BitVec 5) (m : BitVec 3) : VRes :=
  let ls := (List.range (Nat.min c.vl 1024)).filter (fun l => (t.getM m.toNat).getLsbD l)
  let put (src dst : VReg) : VReg :=
    BitVec.ofNat 32768 (ls.foldl (fun p l => setElem p 4 l (elemAt src.toNat 4 l)) dst.toNat)
  VRes.of { t with key := put (nth t.v a.toNat 0) t.key, ctr := put (nth t.v b.toNat 0) t.ctr }

/-- VRSEED is issued. -/
def execVrseed (a b : BitVec 5) (m : BitVec 3) (s : State) : Host.Outcome State Fault Refusal := vecPlain (.vrseed a b m) s

/-- VRNG. -/
def effVrng (c : Captured) (t : Thread) (d : BitVec 5) (m : BitVec 3) : VRes :=
  let idx := activeOf c t m
  let ds := draws c.w t.key.toNat idx t.ctr.toNat
  mapInto { t with ctr := BitVec.ofNat 32768 ds.2 } d.toNat c.g c.w idx (fun i =>
    ((match ds.1.find? (fun y => y.1 == i) with | some y => y.2.toNat | none => 0), 0))

/-- VRNG is issued. -/
def execVrng (d : BitVec 5) (m : BitVec 3) (s : State) : Host.Outcome State Fault Refusal := vecPlain (.vrng d m) s

/-! ### Reductions and scans (13 R298, R299) -/

/-- VRED: the root of the tree goes to element 0, whatever VL and the mask are. -/
def effVred (c : Captured) (t : Thread) (d a : BitVec 5) (m : BitVec 3) (o : BitVec 3) : VRes :=
  let x := vget t.v a.toNat c.g
  let act (i : Nat) : Bool := decide (i < c.vl) && (t.getM m.toNat).getLsbD i
  let leaves : List Node := (List.range (1024 * c.g)).map (fun i => if act i then some (elemAt x 4 i, i) else none)
  let r := treeFold c o.toNat (10 + c.grp.toNat) leaves []
  let v := match r.1 with
    | some y :: _ => y.1
    | _ => redEmpty o.toNat
  { mapInto t d.toNat c.g 4 [0] (fun _ => (v, 0)) with fl := r.2 }

/-- VRED is issued. -/
def execVred (d a : BitVec 5) (m : BitVec 3) (o : BitVec 3) (s : State) : Host.Outcome State Fault Refusal :=
  vecPlain (.vred d a m o) s

/-- VSCAN. -/
def effVscan (c : Captured) (t : Thread) (d a : BitVec 5) (m : BitVec 3) (o : BitVec 3) : VRes :=
  let x := vget t.v a.toNat c.g
  let el (i : Nat) : Option Nat :=
    if decide (i < c.vl) && (t.getM m.toNat).getLsbD i then some (elemAt x 4 i) else none
  let r := scanSegs c o.toNat el (32 * c.g) 0 none
  { mapInto t d.toNat c.g 4 (activeOf c t m) (fun i =>
      ((match r.1.find? (fun y => y.1 == i) with | some (_, some v) => v | _ => 0), 0)) with fl := r.2 }

/-- VSCAN is issued. -/
def execVscan (d a : BitVec 5) (m : BitVec 3) (o : BitVec 3) (s : State) : Host.Outcome State Fault Refusal :=
  vecPlain (.vscan d a m o) s

/-! ### Permutations (13 R300) -/

/-- VPERM. -/
def effVperm (c : Captured) (t : Thread) (d a b : BitVec 5) (m : BitVec 3) : VRes :=
  let x := vget t.v a.toNat c.g
  let y := vget t.v b.toNat c.g
  fill c t d m (fun i => if elemAt y c.w i < c.vlmax then elemAt x c.w (elemAt y c.w i) else 0)

/-- VPERM is issued. -/
def execVperm (d a b : BitVec 5) (m : BitVec 3) (s : State) : Host.Outcome State Fault Refusal := vecPlain (.vperm d a b m) s

/-- VROT. -/
def effVrot (c : Captured) (t : Thread) (d a : BitVec 5) (m : BitVec 3) : VRes :=
  let x := vget t.v a.toNat c.g
  fill c t d m (fun i => elemAt x c.w ((i + c.gb.toNat % c.vl) % c.vl))

/-- VROT is issued. -/
def execVrot (d a b : BitVec 5) (m : BitVec 3) (s : State) : Host.Outcome State Fault Refusal :=
  issueI (.vrot d a b m) s (vecEff (.vrot d a b m) 0 (fun _ => 0) (fun t => t.getG b.toNat) none)

/-- VSHUF. -/
def effVshuf (c : Captured) (t : Thread) (d a b : BitVec 5) (m : BitVec 3) : VRes :=
  let x := vget t.v a.toNat c.g
  let y := vget t.v b.toNat c.g
  fill c t d m (fun i => if i % 2 = 0 then elemAt x c.w (i / 2) else elemAt y c.w (i / 2))

/-- VSHUF is issued. -/
def execVshuf (d a b : BitVec 5) (m : BitVec 3) (s : State) : Host.Outcome State Fault Refusal := vecPlain (.vshuf d a b m) s

/-! ### Masks and compares (13 R301) -/

/-- A floating-point condition, by code 0 to 7. -/
def fcond (f : Fmt) (k x y : Nat) : Bool × Fl :=
  let a := decodeF f x
  let b := decodeF f y
  let nan := a.isNan || b.isNan
  let o := cmpVal a b
  let r : Bool :=
    match k with
    | 0 => !nan && decide (o = 0)
    | 1 => nan || decide (o ≠ 0)
    | 2 => !nan && decide (o < 0)
    | 3 => !nan && decide (o ≤ 0)
    | 4 => !nan && decide (0 < o)
    | 5 => !nan && decide (0 ≤ o)
    | 6 => nan
    | _ => !nan
  (r, if (a.isSig || b.isSig) || (nan && decide (2 ≤ k ∧ k ≤ 5)) then flNV else 0)

/-- An integer condition, by code 0 to 7: eq, ne, lt, le, ltu, leu, gt, gtu. -/
def icond (n k x y : Nat) : Bool :=
  let a := sextNat n x
  let b := sextNat n y
  match k with
  | 0 => decide (x = y)
  | 1 => decide (x ≠ y)
  | 2 => decide (a < b)
  | 3 => decide (a ≤ b)
  | 4 => decide (x < y)
  | 5 => decide (x ≤ y)
  | 6 => decide (b < a)
  | _ => decide (y < x)

/-- VCMP. -/
def effVcmp (c : Captured) (t : Thread) (d : BitVec 3) (a b : BitVec 5) (m k : BitVec 3) : VRes :=
  let x := vget t.v a.toNat c.g
  let y := vget t.v b.toNat c.g
  maskInto t d (activeOf c t m) (fun i => fcond c.fmt k.toNat (elemAt x c.w i) (elemAt y c.w i))

/-- VCMP is issued. -/
def execVcmp (d : BitVec 3) (a b : BitVec 5) (m c : BitVec 3) (s : State) : Host.Outcome State Fault Refusal :=
  vecPlain (.vcmp d a b m c) s

/-- VICMP. -/
def effVicmp (c : Captured) (t : Thread) (d : BitVec 3) (a b : BitVec 5) (m k : BitVec 3) : VRes :=
  let x := vget t.v a.toNat c.g
  let y := vget t.v b.toNat c.g
  maskInto t d (activeOf c t m) (fun i => (icond (8 * c.w) k.toNat (elemAt x c.w i) (elemAt y c.w i), 0))

/-- VICMP is issued. -/
def execVicmp (d : BitVec 3) (a b : BitVec 5) (m c : BitVec 3) (s : State) : Host.Outcome State Fault Refusal :=
  vecPlain (.vicmp d a b m c) s

/-- VSEL: vm is the selector. -/
def effVsel (c : Captured) (t : Thread) (d a b : BitVec 5) (m : BitVec 3) : VRes :=
  let x := vget t.v a.toNat c.g
  let y := vget t.v b.toNat c.g
  mapInto t d.toNat c.g c.w (List.range c.vl) (fun i =>
    (if (t.getM m.toNat).getLsbD i then elemAt x c.w i else elemAt y c.w i, 0))

/-- VSEL is issued. -/
def execVsel (d a b : BitVec 5) (m : BitVec 3) (s : State) : Host.Outcome State Fault Refusal := vecPlain (.vsel d a b m) s

/-- VMLOG on the bits below VL. -/
def effVmlog (c : Captured) (t : Thread) (d a b o : BitVec 3) : VRes :=
  let x := t.getM a.toNat
  let y := t.getM b.toNat
  let z : Mask :=
    match o.toNat with
    | 0 => x &&& y
    | 1 => x ||| y
    | 2 => x ^^^ y
    | 3 => x &&& ~~~y
    | 4 => x ||| ~~~y
    | _ => ~~~x
  let low : Mask := BitVec.ofNat 16384 (2 ^ c.vl - 1)
  VRes.of (t.setM d.toNat ((t.getM d.toNat &&& ~~~low) ||| (z &&& low)))

/-- VMLOG is issued. -/
def execVmlog (d a b o : BitVec 3) (s : State) : Host.Outcome State Fault Refusal := vecPlain (.vmlog d a b o) s

/-- VMPOP. -/
def effVmpop (c : Captured) (t : Thread) (a : BitVec 3) : VRes :=
  VRes.value t ((List.range c.vl).filter (fun i => (t.getM a.toNat).getLsbD i)).length

/-- VMPOP is issued. -/
def execVmpop (d : BitVec 5) (a : BitVec 3) (s : State) : Host.Outcome State Fault Refusal :=
  issueI (.vmpop d a) s (vecEff (.vmpop d a) 0 (fun _ => 0) (fun _ => 0) (some d))

end Sys2Proof.Machine
end

