-- ==== Sys2Proof/Machine/VecMem.lean ====
section
/-! DEFINITION. Vector loads and stores, major 0x28: addresses, swizzling, the checks of every element before any is read
or written, and their meanings at issue (13 R286 to R289; 04 R78, R79). -/

namespace Sys2Proof.Machine

/-! ### Swizzling (04 R79) -/

/-- A scratchpad offset under a descriptor; PL = 0 leaves it unchanged. -/
def swizzle (desc : Word) (o : Nat) : Nat :=
  let pl := field desc 0 5
  if pl = 0 then o
  else
    let x := Nat.land (o / 2 ^ pl / 2 ^ field desc 12 4) (field desc 16 6)
    Nat.xor o (Nat.land (x * 64) (2 ^ pl - 1))

/-- A place under a descriptor: only scratchpad offsets change. -/
def Place.swz (desc : Word) : Place → Place
  | .scratch c o p => .scratch c (swizzle desc o) p
  | p => p

/-! ### Element addresses (13 R287) -/

/-- The form of a vector memory instruction. -/
inductive VForm where
  | unit | strided | indexed | transposed
  deriving DecidableEq, Repr

/-- A_i. `ix` is the index group. -/
def elemAddr (c : Captured) (form : VForm) (ix i : Nat) : Word :=
  match form with
  | .unit => c.ga + BitVec.ofNat 64 (i * c.w)
  | .strided => c.ga + BitVec.ofNat 64 i * c.gb
  | .indexed => c.ga + BitVec.ofNat 64 (elemAt ix 4 i)
  | .transposed =>
    let p := if field c.swz 0 5 = 0 then 64 else 2 ^ field c.swz 0 5
    let n := p / c.w
    c.ga + BitVec.ofNat 64 (i % n * p + i / n * c.w)

/-- i2 of 13 R285: the instruction word and its byte offset from the kernel's first code byte. -/
def Captured.i2 (c : Captured) : Word := BitVec.ofNat 64 (c.word.toNat + 2 ^ 32 * c.offset.toNat)

/-- i1 of a vector trap holds the element index in bits 63 to 48 (13 R285). -/
def Trap.atElem (tr : Trap) (i : Nat) : Trap := { tr with i1 := tr.i1 ||| BitVec.ofNat 64 (i * 2 ^ 48) }

/-- The access of n bytes at an address, in the windows of the form (13 R288). -/
def vecAcc (c : Captured) (form : VForm) (kind : Nat) (ea : Word) (n : Nat) : Acc :=
  { ea := ea, size := n, kind := kind, src := 2, align := c.w,
    wins := if form = .transposed then [.localW, .peer] else [.localW, .peer, .global, .host], ldc := false }

/-- The places of active elements that are checked one by one, in ascending order. -/
def State.placesEach (s : State) (f : Frame) (r : Region) (c : Captured) (form : VForm) (kind ix : Nat) :
    List Nat → Except Trap (List (Nat × Place))
  | [] => .ok []
  | i :: rest =>
    match s.checkAccess f.cl f r c.i2 (vecAcc c form kind (elemAddr c form ix i) c.w) with
    | .error tr => .error (tr.atElem i)
    | .ok p =>
      match s.placesEach f r c form kind ix rest with
      | .error tr => .error tr
      | .ok l => .ok ((i, p.swz c.swz) :: l)

/-- The first of the 64 KiB blocks of a span, from its second one on, whose translation fails; the trap names the span. -/
def State.spanPages (s : State) (r : Region) (words : Word) (a : Acc) : Nat → Option Trap
  | 0 => none
  | n + 1 =>
    match s.spanPages r words a n with
    | some tr => some tr
    | none =>
      let va := (a.ea.toNat / 65536 + n + 1) * 65536
      if va < a.ea.toNat + a.size then
        match s.translate r (va % 2 ^ 48) a.kind false with
        | .error pf => some (a.trap words pf.kind 0 0)
        | .ok _ => none
      else none

/-- The places of a unit-stride access: its span is checked as one access, then every page (13 R288; 04 R75). -/
def State.placesSpan (s : State) (f : Frame) (r : Region) (c : Captured) (kind : Nat) (idx : List Nat) :
    Except Trap (List (Nat × Place)) :=
  match idx, idx.getLast? with
  | lo :: _, some hi =>
    let a := vecAcc c .unit kind (elemAddr c .unit 0 lo) ((hi - lo + 1) * c.w)
    match s.checkAccess f.cl f r c.i2 a with
    | .error tr => .error (tr.atElem 0xFFFF)
    | .ok p =>
      match (if window a.ea = .global then s.spanPages r c.i2 a (a.size / 65536 + 1) else none) with
      | some tr => .error (tr.atElem 0xFFFF)
      | none =>
        if window a.ea = .global then s.placesEach f r c .unit kind 0 idx
        else .ok (idx.map (fun i => (i, (p.plus ((i - lo) * c.w)).swz c.swz)))
  | _, _ => .ok []

/-- Every element and page is checked before any element is read or written (13 R288). -/
def State.vecPlaces (s : State) (f : Frame) (r : Region) (c : Captured) (form : VForm) (kind ix : Nat) (idx : List Nat) :
    Except Trap (List (Nat × Place)) :=
  if form = .unit then s.placesSpan f r c kind idx else s.placesEach f r c form kind ix idx

/-! ### Effects -/

/-- The form, data group, mask and index group of a vector memory instruction, and whether it stores. -/
structure VMem where
  form : VForm
  store : Bool
  d : BitVec 5
  m : BitVec 3
  ixg : BitVec 5
  deriving DecidableEq, Repr

def vmemOf : Instr → Option VMem
  | .vld d _ m _ => some ⟨.unit, false, d, m, 0⟩
  | .vlds d _ _ m _ => some ⟨.strided, false, d, m, 0⟩
  | .vldx d _ b m _ => some ⟨.indexed, false, d, m, b⟩
  | .vldt d _ m _ => some ⟨.transposed, false, d, m, 0⟩
  | .vst d _ m _ => some ⟨.unit, true, d, m, 0⟩
  | .vsts d _ _ m _ => some ⟨.strided, true, d, m, 0⟩
  | .vstx d _ b m _ => some ⟨.indexed, true, d, m, b⟩
  | _ => none

/-- The error in the data of a vector load, if any: the lowest element's (13 R285; 04 R100; 22 R403). -/
def State.vecBad (s : State) (f : Frame) (c : Captured) (v : VMem) (ix : Nat) : List (Nat × Place) → Option Trap
  | [] => none
  | (i, p) :: r =>
    match s.badAt f.rgn f.knum p with
    | some crc =>
      let a := vecAcc c v.form 0 (elemAddr c v.form ix i) c.w
      some ((⟨if crc then 465 else 464, a.ea, a.i1, c.i2, if crc then 1 else 0⟩ : Trap).atElem i)
    | none =>
      if s.hostStatus p = 0 then s.vecBad f c v ix r
      else
        let a := vecAcc c v.form 0 (elemAddr c v.form ix i) c.w
        some ((⟨151, a.ea, a.i1, c.i2, BitVec.ofNat 64 (2 ^ 63 + (s.hostStatus p).toNat)⟩ : Trap).atElem i)

/-- A load's elements. -/
def State.vecRead (s : State) (f : Frame) (c : Captured) (v : VMem) (t : Thread) (ps : List (Nat × Place)) : VRes :=
  let x := ps.foldl (fun x p => setElem x c.w p.1 (fromLE (s.readAt f.rgn f.knum p.2 c.w))) (vget t.v v.d.toNat c.g)
  VRes.of { t with v := vput t.v v.d.toNat c.g x }

/-- The bytes of a store, in ascending element order. -/
def vecBytes (c : Captured) (v : VMem) (t : Thread) (ps : List (Nat × Place)) : List (Place × Byte) :=
  let x := vget t.v v.d.toNat c.g
  ps.flatMap (fun p => (offBytes 0 (leBytes c.w (elemAt x c.w p.1))).map (fun b => (p.2.plus b.1, b.2)))

/-- The effect of a vector memory instruction, before its writes are sent. -/
def State.vmemEff (s : State) (f : Frame) (r : Region) (c : Captured) (v : VMem) (t : Thread) : Except Trap VRes :=
  let ix := vget t.v v.ixg.toNat c.g
  match s.vecPlaces f r c v.form (if v.store then 1 else 0) ix (activeOf c t v.m) with
  | .error tr => .error tr
  | .ok ps =>
    if v.store then .ok { t := t, fl := [], out := vecBytes c v t ps, res := none }
    else match s.vecBad f c v ix ps with
      | some tr => .error tr
      | none => .ok (s.vecRead f c v t ps)

/-- A byte of a load is held in an engine-class write of the thread that has not performed, or lies on a cluster that is
not resident: the load waits (13 R289; 02 R45). -/
def State.vecHeld (s : State) (f : Frame) (c : Captured) (slot : Nat) (ps : List (Nat × Place)) : Bool :=
  ps.any (fun p => !s.placeUp f.rgn f.knum p.2 ||
    s.acts.any (fun a => a.cl == f.cl && a.slot == slot &&
      match a.job with
      | .entry e | .flight e =>
        e.cls == 1 && majorAt e.words 0 == 0x28 && e.line.meets p.2 && (List.range c.w).any (fun k => bitOf e.mask (p.2.off + k))
      | _ => false))

/-- A vector command whose elements cannot be read yet. -/
def State.vecBlocked (s : State) (cmd : Cmd) : Bool :=
  match cmd.vec with
  | none => false
  | some c =>
    match vmemOf c.instr, s.thread? cmd.cl cmd.slot, s.frame? cmd.cl cmd.rgn cmd.knum, s.region? cmd.rgn with
    | some v, some t, some f, some r =>
      if v.store then false
      else match s.vecPlaces f r c v.form 0 (vget t.v v.ixg.toNat c.g) (activeOf c t v.m) with
        | .ok ps => s.vecHeld f c cmd.slot ps
        | .error _ => false
    | _, _, _, _ => false

/-- Bytes in order, gathered while they stay in one line (13 R289; 14 R316); `acc` is the result so far, latest first. -/
def groupLines : List (Place × Byte) → List (Place × List (Nat × Byte)) → List (Place × List (Nat × Byte))
  | [], acc => acc.reverse
  | (p, b) :: r, [] => groupLines r [(p.line.1, [(p.off, b)])]
  | (p, b) :: r, (l, bs) :: acc =>
    if l.sameLine p then groupLines r ((l, mergeBytes bs [(p.off, b)]) :: acc)
    else groupLines r ((p.line.1, [(p.off, b)]) :: (l, bs) :: acc)

/-- Whether a place is in the own window of the thread's cluster. -/
def Place.isLocal : Place → Bool
  | .scratch _ _ false => true
  | _ => false

/-- An engine-class entry for bytes of a line. `ea` is the address that an error names. -/
def engineEntry (line : Place) (bs : List (Nat × Byte)) (ea i1 words : Word) (rgn knum : Nat) : Entry :=
  { cls := 1, line := line, mask := maskOf bs, kind := .data bs, release := false, ea := ea, i1 := i1, words := words,
    rgn := rgn, knum := knum, ack := none, mcast := [], note := none, sealed := true, queued := true }

/-- Writes of a list of acts that write a byte of a mask of a line. -/
def State.meeting (s : State) (ids : List Nat) (l : Place) (mask : BitVec 64) : List Nat :=
  s.acts.filterMap (fun a =>
    if ids.contains a.id then
      match a.job with
      | .entry e | .flight e => if e.line.meets l && e.mask &&& mask != 0 then some a.id else none
      | _ => none
    else none)

/-- Writes of an engine or of the vector engine are sent, one piece for each line, to perform piece by piece: those to the own
window on their way to the bank, the others as entries. Pieces that share a byte keep their order. Answers the numbers of the pieces
too (04 R87, R92; 05 R105, R114, R115; 13 R289). -/
def State.sendLines (s : State) (cl slot rgn knum : Nat) (ea i1 words : Word) :
    List (Place × List (Nat × Byte)) → List Nat → State × List Nat
  | [], ids => (s, ids)
  | (l, bs) :: r, ids =>
    let e := engineEntry l bs ea i1 words rgn knum
    let s := s.walkedAt cl rgn l
    if l.isLocal then
      (s.addAct 1 cl slot (s.meeting ids l e.mask) (.flight e)).sendLines cl slot rgn knum ea i1 words r (ids ++ [s.seq])
    else
      (s.engineEnter cl slot e).sendLines cl slot rgn knum ea i1 words r (ids ++ [s.seq])

/-! ### Bank conflicts (04 R76, R77) -/

/-- A list without the repeats that stand side by side. -/
def squeeze : List Nat → List Nat
  | x :: y :: r => if x = y then squeeze (y :: r) else x :: squeeze (y :: r)
  | l => l

/-- The most rows of one bank among scratchpad lines: line k lies in bank k mod 64, and each row of a bank is one line. -/
def bankPulses (lines : List Nat) : Nat :=
  let ls := (squeeze lines).eraseDups
  (List.range 64).foldl (fun m b => Nat.max m (ls.filter (fun l => l % 64 == b)).length) 0

/-- The pulses for which the banks of the own scratchpad serve a vector access (R77; 13 R283). -/
def State.vecBankPulses (s : State) (f : Frame) (r : Region) (c : Captured) (t : Thread) : Nat :=
  match vmemOf c.instr with
  | none => 0
  | some v =>
    match s.vecPlaces f r c v.form (if v.store then 1 else 0) (vget t.v v.ixg.toNat c.g) (activeOf c t v.m) with
    | .ok ps => bankPulses (ps.filterMap (fun p => match p.2 with | .scratch _ o false => some (o / 64) | _ => none))
    | .error _ => 0

/-! ### Issue -/

/-- VLD is issued (R286). -/
def execVld (d a : BitVec 5) (m : BitVec 3) (k : BitVec 2) (s : State) : Host.Outcome State Fault Refusal :=
  issueI (.vld d a m k) s (vecEff (.vld d a m k) k.toNat (fun t => t.getG a.toNat) (fun _ => 0) none)

/-- VLDS is issued (R286). -/
def execVlds (d a b : BitVec 5) (m : BitVec 3) (k : BitVec 2) (s : State) : Host.Outcome State Fault Refusal :=
  issueI (.vlds d a b m k) s (vecEff (.vlds d a b m k) k.toNat (fun t => t.getG a.toNat) (fun t => t.getG b.toNat) none)

/-- VLDX is issued (R286). -/
def execVldx (d a b : BitVec 5) (m : BitVec 3) (k : BitVec 2) (s : State) : Host.Outcome State Fault Refusal :=
  issueI (.vldx d a b m k) s (vecEff (.vldx d a b m k) k.toNat (fun t => t.getG a.toNat) (fun _ => 0) none)

/-- VLDT is issued (R286). -/
def execVldt (d a : BitVec 5) (m : BitVec 3) (k : BitVec 2) (s : State) : Host.Outcome State Fault Refusal :=
  issueI (.vldt d a m k) s (vecEff (.vldt d a m k) k.toNat (fun t => t.getG a.toNat) (fun _ => 0) none)

/-- VST is issued (R286). -/
def execVst (d a : BitVec 5) (m : BitVec 3) (k : BitVec 2) (s : State) : Host.Outcome State Fault Refusal :=
  issueI (.vst d a m k) s (vecEff (.vst d a m k) k.toNat (fun t => t.getG a.toNat) (fun _ => 0) none)

/-- VSTS is issued (R286). -/
def execVsts (d a b : BitVec 5) (m : BitVec 3) (k : BitVec 2) (s : State) : Host.Outcome State Fault Refusal :=
  issueI (.vsts d a b m k) s (vecEff (.vsts d a b m k) k.toNat (fun t => t.getG a.toNat) (fun t => t.getG b.toNat) none)

/-- VSTX is issued (R286). -/
def execVstx (d a b : BitVec 5) (m : BitVec 3) (k : BitVec 2) (s : State) : Host.Outcome State Fault Refusal :=
  issueI (.vstx d a b m k) s (vecEff (.vstx d a b m k) k.toNat (fun t => t.getG a.toNat) (fun _ => 0) none)

end Sys2Proof.Machine
end

