-- ==== Sys2Proof/Machine/VecRun.lean ====
section
/-! DEFINITION. The vector engine: what a started command does, its flags and traps, and retirement (13 R280 to R285;
06 R129, R130). -/

namespace Sys2Proof.Machine

/-- The effect of a vector instruction that touches no memory. -/
def vecCompute (c : Captured) (t : Thread) : VRes :=
  match c.instr with
  | .vbcast d _ m => effVbcast c t d m
  | .vmovsToG _ a => effVmovsToG c t a
  | .vmovsToV d _ => effVmovsToV c t d
  | .vext _ a _ => effVext c t a
  | .viota d m => effViota c t d m
  | .vadd d a b m => effVadd c t d a b m
  | .vsub d a b m => effVsub c t d a b m
  | .vmul d a b m => effVmul c t d a b m
  | .vfma d a b m => effVfma c t d a b m
  | .vfms d a b m => effVfms c t d a b m
  | .vfnma d a b m => effVfnma c t d a b m
  | .vmin d a b m => effVmin c t d a b m
  | .vmax d a b m => effVmax c t d a b m
  | .vabs d a m => effVabs c t d a m
  | .vneg d a m => effVneg c t d a m
  | .vclass d a m => effVclass c t d a m
  | .viadd d a b m => effViadd c t d a b m
  | .visub d a b m => effVisub c t d a b m
  | .vimul d a b m => effVimul c t d a b m
  | .vimad d a b m => effVimad c t d a b m
  | .vimin d a b m => effVimin c t d a b m
  | .vimax d a b m => effVimax c t d a b m
  | .vand d a b m => effVand c t d a b m
  | .vor d a b m => effVor c t d a b m
  | .vxor d a b m => effVxor c t d a b m
  | .vshl d a b m => effVshl c t d a b m
  | .vshr d a b m => effVshr c t d a b m
  | .vsra d a b m => effVsra c t d a b m
  | .vexp2 d a m => effVexp2 c t d a m
  | .vlog2 d a m => effVlog2 c t d a m
  | .vrcp d a m => effVrcp c t d a m
  | .vrsq d a m => effVrsq c t d a m
  | .vsqrt d a m => effVsqrt c t d a m
  | .vtanh d a m => effVtanh c t d a m
  | .vcvt d a dt m r k => effVcvt c t d a dt m r k
  | .vqnt d a b m n f => effVqnt c t d a b m n f
  | .vdq d a b m f => effVdq c t d a b m f
  | .vrseed a b m => effVrseed c t a b m
  | .vrng d m => effVrng c t d m
  | .vred d a m o => effVred c t d a m o
  | .vscan d a m o => effVscan c t d a m o
  | .vperm d a b m => effVperm c t d a b m
  | .vrot d a _ m => effVrot c t d a m
  | .vshuf d a b m => effVshuf c t d a b m
  | .vcmp d a b m k => effVcmp c t d a b m k
  | .vicmp d a b m k => effVicmp c t d a b m k
  | .vsel d a b m => effVsel c t d a b m
  | .vmlog d a b o => effVmlog c t d a b o
  | .vmpop _ a => effVmpop c t a
  | _ => VRes.of t

/-- The lowest enabled flag that was raised (06 R130). -/
def lowFlag (x : Fl) : Nat := match lowest (fun k => x.getLsbD k) (List.range 6) with | some k => k | none => 0

/-- The trap of an enabled flag (06 R130): every raised flag, the lowest element that raised an enabled one, the bundle's
words and the instruction's address. -/
def flagTrap (c : Captured) (code : Nat) (fl : List (Nat × Fl)) : Trap :=
  let e := match lowest (fun _ => true) ((fl.filter (fun x => x.2 &&& c.en != 0)).map (fun x => x.1)) with
    | some i => i
    | none => 0
  ⟨208 + lowFlag (orFlags fl &&& c.en), BitVec.ofNat 64 (orFlags fl).toNat, BitVec.ofNat 64 e, c.words,
    BitVec.ofNat 64 (code + c.offset.toNat)⟩

/-- The effect of a started vector command, or its trap with the flags that FLAGS receives (13 R284). -/
def State.vecRun (s : State) (f : Frame) (r : Region) (c : Captured) (t : Thread) : Except (Trap × Fl) VRes :=
  match vmemOf c.instr with
  | some v =>
    match s.vmemEff f r c v t with
    | .error tr => .error (tr, 0)
    | .ok x => .ok x
  | none =>
    let x := vecCompute c t
    if orFlags x.fl &&& c.en != 0 then .error (flagTrap c f.code x.fl, orFlags x.fl) else .ok x

/-- A VECTOR TRAP: the instruction and the thread's later ones form its replay queue at once; the trap is on its way to the thread, which
issues nothing further once it has come (13 R284; log 41). -/
def State.vecTrap (s : State) (cmd : Cmd) (c : Captured) (tr : Trap) (fl : Fl) : State :=
  let mine (d : Cmd) : Bool := d.cl == cmd.cl && d.slot == cmd.slot && d.port == .vector
  let later := (s.cmds.filter mine).filterMap (fun d => d.vec)
  let s1 : State := { s with cmds := s.cmds.filter (fun d => !mine d) }
  (s1.modThread cmd.cl cmd.slot (fun t =>
    { t with vfcsr := t.vfcsr ||| BitVec.ofNat 64 (fl.toNat * 256), replay := c :: later ++ t.replay, vstop := true })).addAct
      Config.vecTrap cmd.cl cmd.slot [] (.vtrap ⟨cmd.ord, tr.cause, tr.i0, tr.i1, tr.i2, tr.i3, true⟩)

/-- A vector load that met an error in its data is counted (04 R100; 25 R447). -/
def State.countVec (s : State) (r : Region) (cl : Nat) (tr : Trap) : State :=
  if tr.cause = 464 ∨ tr.cause = 465 then s.countRead r cl (tr.cause == 465) tr.i0 else s

/-- The pieces that a vector load reads, one for each active element (05 R105; 13 R289); none for an instruction that reads no memory
or fails its checks. -/
def State.vecReads (s : State) (f : Frame) (r : Region) (c : Captured) (t : Thread) : List (Place × Nat) :=
  match vmemOf c.instr with
  | none => []
  | some v =>
    if v.store then []
    else match s.vecPlaces f r c v.form 0 (vget t.v v.ixg.toNat c.g) (activeOf c t v.m) with
      | .ok ps => ps.map (fun p => (p.2, c.w))
      | .error _ => []

/-- Bytes of source places, one piece for each part within one aligned 64-byte line; `acc` is the result so far, latest first. -/
def pieceLines : List Place → List (Place × Nat) → List (Place × Nat)
  | [], acc => acc.reverse
  | p :: r, [] => pieceLines r [(p, 1)]
  | p :: r, (q, n) :: acc => if q.sameLine p && p.line.2 == q.line.2 + n then pieceLines r ((q, n + 1) :: acc) else pieceLines r ((p, 1) :: (q, n) :: acc)

/-- One piece of a started command's reads goes on its way (05 R105; 15 R334). -/
def State.addPiece (s : State) (cmd : Cmd) (owner : Nat) (p : Place × Nat) : State :=
  let job : Job := .piece owner cmd.rgn cmd.knum p.1 p.2
  if p.1.isLocal then s.addAct 1 cmd.cl cmd.slot [] job else s.addActDie (s.loadDelay cmd.cl cmd.rgn p.1) cmd.cl cmd.slot [] job

/-- A started command reads memory: its pieces perform one by one, in any order, and it goes on once the last has. `got` is what it has
read at its start (05 R105, R115; 13 R283; log 7). -/
def State.startReading (s : State) (cmd : Cmd) (pulses : Nat) (ps : List (Place × Nat)) (got : List (Place × List Byte)) : State :=
  let s1 := ps.foldl (fun s p => s.walkedAt cmd.cl cmd.rgn p.1) s
  let s2 := ps.foldl (fun s p => s.addPiece cmd (s1.seq + ps.length) p) s1
  s2.addAct pulses cmd.cl cmd.slot ((List.range ps.length).map (fun k => s1.seq + k)) (.reading cmd got ((ps.flatMap (fun p => p.1.via)).eraseDups))

/-- Memory as a command's reads have found it. -/
def State.withRead (s : State) (rgn knum : Nat) (got : List (Place × List Byte)) : State :=
  got.foldl (fun s x => s.writeAt rgn knum x.1 x.2) s

/-- Retirements of a thread's earlier vector instructions that are still to come. -/
def State.ownRetires (s : State) (cl slot : Nat) : List Nat :=
  s.acts.filterMap (fun a =>
    if a.cl = cl ∧ a.slot = slot then
      match a.job with
      | .vretire .. | .vsig .. => some a.id
      | _ => none
    else none)

/-- The general register that a vector instruction writes. -/
def vecDst : Instr → Option (BitVec 5)
  | .vmovsToG d _ => some d
  | .vext d _ _ => some d
  | .vmpop d _ => some d
  | _ => none

/-- Pulses for which an instruction holds the engine (13 R283); `banks` are those of its bank conflicts (04 R77). Memory waits
are events of their own. -/
def vecHoldPulses (c : Captured) (banks : Nat) : Nat :=
  let regs := (vSpans c.ty c.g c.instr).foldl (fun n x => Nat.max n x.2) 1
  match c.instr with
  | .vexp2 .. | .vlog2 .. | .vrcp .. | .vrsq .. | .vsqrt .. | .vtanh .. => 4 * regs
  | .vperm .. | .vrot .. | .vshuf .. => 2 * regs
  | .vred .. | .vscan .. => c.g + 12
  | .vmovsToG .. | .vmovsToV .. | .vext .. | .vmlog .. | .vmpop .. | .vrseed .. | .vsig .. => 1
  | _ => Nat.max regs banks

/-- VSIGs of a cluster that have started and not signalled: they signal in start order (03 R64). -/
def State.openVsigs (s : State) (cl : Nat) : List Nat :=
  s.acts.filterMap (fun a => if a.cl = cl then (match a.job with | .vsig .. => some a.id | _ => none) else none)

/-- VSIG: the release scope of the thread's earlier vector writes is kept by waiting for their retirement; then it signals, behind
the VSIGs that started before it (03 R64; 13 R282; 05 R114). -/
def State.vsigRun (s : State) (cmd : Cmd) (e : BitVec 8) (inc : BitVec 2) : State :=
  s.addAct Config.signalLocal cmd.cl cmd.slot (s.ownRetires cmd.cl cmd.slot ++ s.openVsigs cmd.cl)
    (.vsig cmd.rgn cmd.knum e.toNat (2 ^ inc.toNat))

/-- The effect of a started vector command, its result and its retirement after n pulses; `v` is the state whose memory it reads. A
result for a general register comes after the retirement of the thread's earlier instructions (13 R280, R281; 15 R334). -/
def State.runVector (s v : State) (cmd : Cmd) (n : Nat) : State :=
  match cmd.vec, s.thread? cmd.cl cmd.slot, s.frame? cmd.cl cmd.rgn cmd.knum, s.region? cmd.rgn with
  | some c, some t, some f, some r =>
    match v.vecRun f r c t with
    | .error (tr, fl) => ((s.countVec r cmd.cl tr).faultWalk cmd.cl r tr.cause tr.i0).vecTrap cmd c tr fl
    | .ok x =>
      let s2 := s.modThread cmd.cl cmd.slot (fun _ => x.t)
      let sent := s2.sendLines cmd.cl cmd.slot cmd.rgn cmd.knum c.ga 0x10000 c.i2 (groupLines x.out []) []
      let s3 := sent.1
      let after := s3.ownRetires cmd.cl cmd.slot ++ sent.2
      match x.res, vecDst c.instr with
      | some v, some d =>
        (s3.addAct Config.vecToScalar cmd.cl cmd.slot (s3.ownRetires cmd.cl cmd.slot) (.result (.g d) v none)).addAct Config.vecToScalar cmd.cl
          cmd.slot (after ++ [s3.seq]) (.vretire cmd.rgn cmd.knum (orFlags x.fl))
      | _, _ => s3.addAct n cmd.cl cmd.slot after (.vretire cmd.rgn cmd.knum (orFlags x.fl))
  | _, _, _, _ => s

/-- A command of the vector port starts: a VSIG waits for its turn, a load reads its elements, and every other instruction has its effect
(13 R280 to R283). -/
def State.startVector (s : State) (cmd : Cmd) : State :=
  match cmd.vec, s.thread? cmd.cl cmd.slot, s.frame? cmd.cl cmd.rgn cmd.knum, s.region? cmd.rgn with
  | some c, some t, some f, some r =>
    let n := vecHoldPulses c (s.vecBankPulses f r c t)
    let s1 := (s.takeCmd cmd).hold cmd.cl .vector n
    match c.instr with
    | .vsig e i => s1.vsigRun cmd e i
    | _ => match s1.vecReads f r c t with
      | [] => s1.runVector s1 cmd n
      | p :: ps => s1.startReading cmd n (p :: ps) []
  | _, _, _, _ => s.takeCmd cmd

/-- The end of a retirement: the thread's VWAIT ends when nothing is left (13 R281). -/
def State.retired (s : State) (cl slot : Nat) : State :=
  match s.thread? cl slot with
  | some t => if t.wait = .vwait ∧ s.unretired cl slot = 0 then s.endWait cl slot else s
  | none => s

/-- A result that waits for a retirement comes 10 pulses after it (15 R334). -/
def State.afterRetire (s : State) (id : Nat) : State :=
  { s with acts := s.acts.map (fun b =>
      match b.job with
      | .result .. => if b.after.contains id then { b with cyc := Nat.max b.cyc (s.pulse b.cl + Config.vecToScalar) } else b
      | _ => b) }

/-- VECTOR_RETIRE: the flags join FLAGS, a VSIG signals, and a VWAIT of the thread ends when nothing is left (13 R281, R282; 06 R129).
A vector trap comes to its thread (R284). -/
def execVectorRetire (id : Nat) (s : State) : Host.Outcome State Fault Refusal :=
  match s.act? id with
  | none => .next s
  | some a =>
    match a.job with
    | .vretire _ _ fl =>
      if !s.goneAll a.after then .next s
      else
        .next ((((s.dropAct id).afterRetire id).modThread a.cl a.slot (fun t =>
          { t with vfcsr := t.vfcsr ||| BitVec.ofNat 64 (fl.toNat * 256) })).retired a.cl a.slot)
    | .vtrap l => .next (((s.dropAct id).modThread a.cl a.slot (fun t => { t with late := t.late ++ [l] })).deliverLate a.cl a.slot)
    | .vsig rgn knum k n =>
      if !s.goneAll a.after then .next s else .next (((s.dropAct id).signal a.cl rgn knum k n).retired a.cl a.slot)
    | _ => .next s

end Sys2Proof.Machine
end

