-- ==== Sys2Proof/Machine/Engine.lean ====
section
/-! DEFINITION. What the engine commands have in common: issue, error words, memory faults and the way a started command
ends (14 R302, R303; 05 R114; 03 R64). -/

namespace Sys2Proof.Machine

/-! ### Issue (14 R302) -/

/-- The group base register. -/
def groupBase (b : BitVec 3) : BitVec 5 := b ++ 0#2

/-- The issue of an engine command: the used group registers are captured, a status command sets its base register pending,
and the command enters its port queue. -/
def engEff (i : Instr) (p : Port) (b : BitVec 3) (used : List Nat) (pend : Bool) (c : Ctx) (s : State) : State :=
  let s1 := if pend then s.modThread c.t.cl c.t.slot (fun u => u.pend (.g (groupBase b))) else s
  s1.enterPort c p i ((List.range 4).map (fun k => if used.contains k then c.t.getG (4 * b.toNat + k) else 0)) none

/-- Register k of a command's captured group. -/
def Cmd.reg (c : Cmd) (k : Nat) : Word := nth c.group k 0

/-! ### Parameter errors -/

/-- The lowest set bit of a word. -/
def lowBit (v : Word) : Option Nat := (List.range 64).find? (fun k => v.getLsbD k)

/-- The lowest set bit outside the allowed ones. -/
def reservedBit (v allowed : Word) : Option Nat := lowBit (v &&& ~~~allowed)

/-- The bit that an out-of-range field is reported by. -/
def outside (bad : Bool) (bit : Nat) : Option Nat := if bad then some bit else none

/-- The lowest of the offending bits that were found. -/
def lowestBit (l : List (Option Nat)) : Option Nat := lowest (fun _ => true) (l.filterMap id)

/-- A parameter error of register `idx`: its lowest offending bit and its value (14 R312, R318). -/
def fieldTrap (cause idx : Nat) (v : Word) (bits : List (Option Nat)) : Option Trap :=
  match lowestBit bits with
  | some b => some ⟨cause, 0, BitVec.ofNat 64 (idx + 256 * b), v, 0⟩
  | none => none

/-- The first failing check of a list. -/
def firstField : List (Option Trap) → Option Trap
  | [] => none
  | x :: r => match x with | some t => some t | none => firstField r

/-- The lowest bit that keeps an address out of a window (14 R312): the lowest required-zero bit of 04 R69 that is set, or
bit 56. -/
def windowBit (a : Word) : Nat :=
  let mask : Word :=
    match field a 56 8 with
    | 0x00 => 0x00FF000000000000#64
    | 0x40 => 0x00FFFFFFFFC00000#64
    | 0x41 => 0x00FF00FFFFC00000#64
    | 0x42 => 0x00FF000000000000#64
    | _ => 0#64
  match lowBit (a &&& mask) with
  | some b => b
  | none => 56

/-- i0 of an error completion (14 R303). -/
def Cmd.i0 (c : Cmd) : Word := BitVec.ofNat 64 (c.slot % 512 + c.seq.toNat * 2 ^ 16 + c.cl * 2 ^ 40)

/-- A memory or machine fault of an engine command (14 R303): class 2 or 7, source, kind, access kind, side, progress. -/
def engFault (cls src k kind : Nat) (dst : Bool) (p : Nat) (ea i3 : Word) : Trap :=
  ⟨64 * cls + 8 * src + k, 0, BitVec.ofNat 64 (65536 * kind + (if dst then 0x40000 else 0) + p * 2 ^ 24), ea, i3⟩

/-- The place of one byte of an engine access whose window has been checked; a failure is a kind with its i3. -/
def State.engPlace (s : State) (f : Frame) (r : Region) (ea : Word) (kind : Nat) : Except (Nat × Word) Place :=
  match window ea with
  | .localW => .ok (.scratch f.cl (field ea 0 22) false)
  | .peer => .ok (.scratch (winField ea) (field ea 0 22) true)
  | .host =>
    if field ea 0 48 ≥ r.apsize then .error (7, BitVec.ofNat 64 r.apsize) else .ok (.host (r.apbase + field ea 0 48))
  | .global =>
    match s.translate r (field ea 0 48) kind false with
    | .error pf => .error (pf.kind, 0)
    | .ok (loc, k, pa) => .ok (.global loc k pa)
  | .fabric => .ok (.fabric ea)
  | .none => .error (4, ea)

/-! ### What a started command leaves -/

/-- The state after a command's effects at its start, the lines it writes, its error, its result and the pulses for which it
holds its engine. -/
structure EngOut where
  s : State
  out : List (Place × List (Nat × Byte))
  err : Option Trap
  val : Option Word
  pulses : Nat
  deriving DecidableEq, Repr

/-- A command that fails a check at start has no other effect (14 R302). -/
def EngOut.refuse (s : State) (tr : Trap) (pulses : Nat) : EngOut := { s := s, out := [], err := some tr, val := none, pulses := pulses }

/-- A command that is done at once. -/
def EngOut.done (s : State) (pulses : Nat) : EngOut := { s := s, out := [], err := none, val := none, pulses := pulses }

/-- The semaphore and increment that a command signals (10 R204). -/
def semInc : Instr → Option (Nat × Nat)
  | .mclr _ e i | .mmode _ e i | .mrnm _ e i | .msave _ e i | .mload _ e i | .mhdr _ e i | .mdrain _ e i | .cpy _ e i
  | .cpyx _ e i | .cpym _ e i | .cpyf _ e i | .cbcfg _ e i | .cbpush _ e i | .cbdone _ e i => some (e.toNat, 2 ^ i.toNat)
  | .mpass _ e i _ | .mpassh _ e i _ => some (e.toNat, 2 ^ i.toNat)
  | _ => none

/-- The register that a status command writes. -/
def statusReg : Instr → Option (BitVec 5)
  | .mstat b | .cbnext b | .cbstat b => some (groupBase b)
  | _ => none

/-- Commands of the port that have started and not ended: matrix and batcher completions keep start order (03 R64). -/
def State.endings (s : State) (cl : Nat) (p : Port) : List Nat :=
  s.acts.filterMap (fun a =>
    if a.cl = cl then
      match a.job with
      | .ending e => if e.port = p then some a.id else none
      | _ => none
    else none)

/-- The bytes of the pieces that a remote copy has sent (14 R317). -/
def State.pieceBytes (s : State) (id : Nat) : Nat :=
  s.acts.foldl (fun n a => match a.job with | .remote r => if r.cmd = some id then n + r.bytes.length else n | _ => n) 0

/-- The progress that an error completion adds to its i1: the bytes that a remote copy performed, where a piece failed
(14 R317, R318). -/
def Ending.progress (e : Ending) (cause : Nat) : Nat := if cause / 8 = 52 then e.bytes else 0

/-- An engine's read error is counted: 7.s.0 and 7.s.1 of 14 R303 carry the address in i2; 7.5.0 is the batcher's own window
(04 R100; 25 R447); a page fault's walk is made (21 R390). -/
def State.countEng (s : State) (cmd : Cmd) (err : Option Trap) : State :=
  match err, s.region? cmd.rgn with
  | some tr, some r =>
    if tr.cause / 64 = 7 ∧ tr.cause % 8 ≤ 1 then
      s.countRead r cmd.cl (tr.cause % 8 == 1) (if tr.cause = 488 then BitVec.ofNat 64 (0x40 * 2 ^ 56) else tr.i2)
    else s.faultWalk cmd.cl r tr.cause tr.i2
  | _, _ => s

/-- Pulses from a command's start to its end: a status command's answer takes the time of 15 R334, another holds its engine. -/
def endDelay (i : Instr) (pulses : Nat) : Nat :=
  match i with
  | .mstat _ | .cbnext _ => Config.statusRead
  | .cbstat _ => Config.cbStatusRead
  | _ => Nat.max 1 pulses

/-- A started command is on its way to its end: its lines are sent, and it completes after their performance and, in the
matrix and batcher ports, after the earlier commands (05 R114; 14 R303). `also` lists further work that it waits for. -/
def State.endEngine (o : EngOut) (cmd : Cmd) (also : List Nat) : State :=
  let s1 := (o.s.countEng cmd o.err).hold cmd.cl cmd.port o.pulses
  let sent := s1.sendLines cmd.cl cmd.slot cmd.rgn cmd.knum 0 0x10000 (BitVec.ofNat 64 cmd.word.toNat) o.out []
  let order := if cmd.port = .matrix ∨ cmd.port = .batcher then sent.1.endings cmd.cl cmd.port else []
  let e : Ending := { port := cmd.port, rgn := cmd.rgn, knum := cmd.knum, sem := semInc cmd.instr,
                      dst := (match statusReg cmd.instr with | some r => some (r, o.val.getD 0) | none => none),
                      err := (match o.err with | some t => some (t.cause, t.i0 ||| cmd.i0, t.i1, t.i2, t.i3) | none => none), cid := cmd.id,
                      bytes := o.s.pieceBytes cmd.id }
  sent.1.addAct (endDelay cmd.instr o.pulses) cmd.cl cmd.slot (sent.2 ++ also ++ order) (.ending e)

/-- COMMAND_COMPLETION: the semaphore is signalled, or the status register is written and its pending bit clears
(14 R302). -/
def execCommandCompletion (id : Nat) (s : State) : Host.Outcome State Fault Refusal :=
  match s.act? id with
  | none => .next s
  | some a =>
    match a.job with
    | .ending e =>
      if !s.goneAll a.after || e.err.isSome then .next s
      else
        let s1 := s.dropAct id
        let s2 := match e.sem with
          | some (k, n) => s1.signal a.cl e.rgn e.knum k n
          | none => s1
        .next (match e.dst with
          | some (r, v) => s2.modThread a.cl a.slot (fun t => t.deliver (.g r) v)
          | none => s2)
    | _ => .next s

/-- ERROR_COMPLETION: after the writes that its progress counts, the semaphore is poisoned and a record is sent; a status
register stays unwritten and its pending bit clears (14 R303). -/
def execErrorCompletion (id : Nat) (s : State) : Host.Outcome State Fault Refusal :=
  match s.act? id with
  | none => .next s
  | some a =>
    match a.job with
    | .ending e =>
      match e.err with
      | none => .next s
      | some (cause, i0, i1, i2, i3) =>
        if !s.goneAll a.after then .next s
        else
          let s1 := s.dropAct id
          let s2 := match e.sem with
            | some (k, _) => s1.poisonSem a.cl e.rgn e.knum k
            | none => s1
          let s3 := match e.dst with
            | some (r, _) => s2.modThread a.cl a.slot (fun t => t.unpend (.g r))
            | none => s2
          .next (s3.report a.cl a.slot e.rgn e.knum ⟨cause, i0, i1 + BitVec.ofNat 64 (e.progress cause * 2 ^ 24), i2, i3⟩)
    | _ => .next s

end Sys2Proof.Machine
end

