-- ==== Sys2Proof/Machine/Batch.lean ====
section
/-! DEFINITION. The conflict batcher: its commands, major 0x32, and the formation of flights (08 R166 to R181; 14 R320). -/

namespace Sys2Proof.Machine

/-! ### Records and state (R167 to R169, R175) -/

/-- The batcher of a frame after KBIND: unconfigured (R166). -/
def Batcher.fresh : Batcher :=
  { cfg := false, closed := false, endsig := false, fmax := 0, base := 0, fsem := 0, nextIndex := 0, formed := 0, stream := [],
    flights := [], forming := false }

/-- Word k of a record. -/
def recWord (c : Constraint) (k : Nat) : Nat := field c (32 * k) 32

/-- An invalid word: KIND 3, or KIND 1 or 2 with BODY 0xFFFFF. -/
def badWord (w : Nat) : Bool :=
  let kind := w / 2 ^ 30
  kind == 3 || ((kind == 1 || kind == 2) && w % 2 ^ 20 == 0xFFFFF)

/-- dyn(c): the bodies of the words of KIND 1. -/
def dyn (c : Constraint) : List Nat :=
  [0, 1, 2, 3].filterMap (fun k => let w := recWord c k; if w / 2 ^ 30 = 1 then some (w % 2 ^ 20) else none)

/-- SLOTSZ (R168). -/
def slotSize (fmax : Nat) : Nat := 64 + 64 * ((4 * fmax + 63) / 64)

/-- Free entries of the stream buffer (R169). -/
def Batcher.space (b : Batcher) : Nat :=
  match b.stream with
  | [] => 4096
  | (i, _) :: _ => 4096 - (b.nextIndex - i)

/-- OUT and PUB of R175. -/
def Batcher.out (b : Batcher) : Nat := b.flights.foldl (fun n f => n + 2 ^ f.slot) 0
def Batcher.pub (b : Batcher) : Nat := b.flights.foldl (fun n f => if f.published && !f.taken then n + 2 ^ f.slot else n) 0

/-- CBSTAT (R175). -/
def Batcher.stat (b : Batcher) : Word :=
  BitVec.ofNat 64 (b.formed.toNat + 2 ^ 32 * b.stream.length + 2 ^ 52 * b.pub + 2 ^ 56 * b.out +
    (if b.closed then 2 ^ 60 else 0) + (if b.cfg then 2 ^ 61 else 0))

/-- Bodies of the outstanding flights. -/
def Batcher.claimed (b : Batcher) : List Nat := b.flights.flatMap (fun f => f.members.flatMap (fun m => dyn m.2))

/-! ### Formation (R170 to R172) -/

/-- The loop of R170 over a window, from `n` constraints taken and bodies `cl`. -/
def formLoop (fmax : Nat) : List (Nat × Constraint) → Nat → List Nat → List (Nat × Constraint)
  | [], _, _ => []
  | c :: r, n, cl =>
    if (dyn c.2).all (fun b => !cl.contains b) && decide (n < fmax) then c :: formLoop fmax r (n + 1) (cl ++ dyn c.2)
    else formLoop fmax r n (cl ++ dyn c.2)

/-- The constraints of the next flight. -/
def Batcher.nextFlight (b : Batcher) : List (Nat × Constraint) := formLoop b.fmax (b.stream.take 1024) 0 b.claimed

/-- The lowest free flight slot. -/
def Batcher.freeSlot (b : Batcher) : Option Nat := [0, 1, 2, 3].find? (fun k => !b.flights.any (fun f => f.slot == k))

/-- A formation is to be made (R171). -/
def Batcher.mayForm (b : Batcher) : Bool :=
  b.forming && b.freeSlot.isSome && (decide (1024 ≤ b.stream.length) || (b.closed && !b.stream.isEmpty))

/-- The bytes of a flight's list (R172). -/
def flightList (number : Nat) (m : List (Nat × Constraint)) : List Byte :=
  let first := match m with | x :: _ => x.1 | [] => 0
  let last := match m.getLast? with | some x => x.1 | none => 0
  leBytes 4 number ++ leBytes 4 m.length ++ leBytes 4 first ++ leBytes 4 last ++ List.replicate 48 0 ++
    m.flatMap (fun x => leBytes 4 x.1)

/-- The frame that owns a cluster's batcher (R166). -/
def State.cbFrame (s : State) (cl : Nat) : Option (Frame × Batcher) :=
  match s.frames.find? (fun f => f.cl == cl && f.cb.isSome && !f.suspended) with
  | some f => (match f.cb with | some b => some (f, b) | none => none)
  | none => none

def State.setCb (s : State) (f : Frame) (b : Batcher) : State := s.modFrame f.cl f.rgn f.knum (fun x => { x with cb := some b })

/-- The end signal, once after each CBCFG, when the stream is closed and nothing is unissued (R172). -/
def State.endSignal (s : State) (f : Frame) (b : Batcher) : State :=
  if b.cfg && b.closed && b.stream.isEmpty && !b.endsig then
    (s.setCb f { b with endsig := true }).signal f.cl f.rgn f.knum b.fsem 1
  else s.setCb f b

/-- Pulses of a formation, which with the writing of the list and the signal stay within the bound of R171. -/
def Batcher.formPulses (b : Batcher) : Nat := (Nat.min 1024 b.stream.length + 63) / 64 + (4 * b.nextFlight.length + 127) / 64

/-- Formations go on while a flight can be formed, and end otherwise (R171). -/
def State.formNext (s : State) (f : Frame) (b : Batcher) : State :=
  let b1 : Batcher := { b with forming := true }
  if b1.mayForm then (s.setCb f b1).tick b1.formPulses f.cl 512 (.formation f.cl) else s.setCb f { b with forming := false }

/-- The same for a frame whose batcher stands in the state. -/
def State.formMore (s : State) (f : Frame) : State :=
  match s.frame? f.cl f.rgn f.knum with
  | some x => (match x.cb with | some b => s.formNext f b | none => s)
  | none => s

/-- A flight leaves the stream: its list goes to its slot, line by line (R170, R172; 05 R115). -/
def State.form (s : State) (f : Frame) (b : Batcher) (k : Nat) (m : List (Nat × Constraint)) : State :=
  let sent := s.sendLines f.cl 512 f.rgn f.knum 0 0x10000 0x32000000
    (groupLines ((offBytes (b.base + k * slotSize b.fmax) (flightList b.formed.toNat m)).map (fun x => (.scratch f.cl x.1 false, x.2))) []) []
  let b1 : Batcher := { b with
    formed := b.formed + 1,
    stream := b.stream.filter (fun c => !m.any (fun x => x.1 == c.1)),
    flights := b.flights ++ [⟨k, b.formed, m, false, false, sent.2⟩] }
  (sent.1.setCb f b1).addAct 1 f.cl 512 sent.2 (.tick (.formation f.cl))

/-- A flight whose list is written is published: its signal, then after the last the end signal (R172). -/
def State.publish (s : State) (f : Frame) (b : Batcher) (x : Flight) : State :=
  let b1 : Batcher := { b with flights := b.flights.map (fun y => if y.slot = x.slot then { y with published := true, writes := [] } else y) }
  let s1 := (s.setCb f b1).signal f.cl f.rgn f.knum b.fsem 1
  match s1.cbFrame f.cl with
  | some (f2, b2) => if f2.rgn = f.rgn ∧ f2.knum = f.knum then (s1.endSignal f b2).formMore f else s1
  | none => s1

/-- FORMATION: one flight is formed and its list goes on its way; once the list is written the flight is published; an empty result ends
the formations after the event (R170 to R172). -/
def execFormation (cl : Nat) (s : State) : Host.Outcome State Fault Refusal :=
  match s.cbFrame cl with
  | none => .next s
  | some (f, b) =>
    match b.flights.find? (fun x => !x.published) with
    | some x => if s.goneAll x.writes then .next (s.publish f b x) else .next s
    | none =>
      match b.mayForm, b.freeSlot with
      | true, some k => .next (if b.nextFlight.isEmpty then s.setCb f { b with forming := false } else s.form f b k b.nextFlight)
      | _, _ => .next (if b.forming then s.setCb f { b with forming := false } else s)

/-! ### Commands (R168, R169, R173, R174, R179; 14 R320) -/

/-- CBCFG. -/
def State.cbcfgRun (s : State) (f : Frame) (b : Batcher) (cmd : Cmd) : EngOut :=
  let fmax := field (cmd.reg 0) 0 11
  let base := field (cmd.reg 1) 0 22
  let sem := field (cmd.reg 2) 0 8
  let ws := f.hdr.kscr * 4096
  if fmax = 0 ∨ 1024 < fmax ∨ base % 64 ≠ 0 ∨ f.hdr.ksems ≤ sem ∨ b.out ≠ 0 ∨ ¬b.stream.isEmpty then
    EngOut.refuse s ⟨364, 0, BitVec.ofNat 64 fmax, b.stat >>> 32, 0⟩ 4
  else if ws < base + 4 * slotSize fmax then EngOut.refuse s ⟨365, 0, BitVec.ofNat 64 base, BitVec.ofNat 64 ws, 0⟩ 4
  else
    EngOut.done (s.formNext f { Batcher.fresh with cfg := true, fmax := fmax, base := base, fsem := sem }) 4

/-- The records of a push. -/
def pushed (f : Frame) (off n : Nat) : List Constraint :=
  (List.range n).map (fun k => BitVec.ofNat 128 (fromLE (memRead f.scr (off + 16 * k) 16)))

/-- The first invalid word of a push, with its record's index. -/
def firstInvalid (rs : List Constraint) : Option (Nat × Nat) :=
  (rs.zipIdx.flatMap (fun x => [0, 1, 2, 3].map (fun k => (x.2, recWord x.1 k)))).find? (fun x => badWord x.2)

/-- Offset of the first record that an uncorrectable error meets (7.5.0 of 19 R362). -/
def State.pushBad (s : State) (f : Frame) (off n : Nat) : Option Nat :=
  ((List.range n).map (fun k => off + 16 * k)).find? (fun o => s.badAt f.rgn f.knum (.scratch f.cl o false) == some false)

/-- CBPUSH (log 26 for the bound of the stream index). An uncorrectable error in a record is reported before an invalid word:
R179 gives no order between the two (DESIGN CHOICE, log 59). -/
def State.cbpushRun (s : State) (f : Frame) (b : Batcher) (cmd : Cmd) : EngOut :=
  let off := field (cmd.reg 0) 4 18 * 16
  let n := field (cmd.reg 1) 0 11
  let ws := f.hdr.kscr * 4096
  let h := 4 + (n + 3) / 4
  if !b.cfg || b.closed then EngOut.refuse s ⟨362, 0, b.stat >>> 32, 0, 0⟩ h
  else if 1024 < n ∨ b.space < n ∨ 2 ^ 32 - 1 < b.nextIndex + n then
    EngOut.refuse s ⟨361, 0, BitVec.ofNat 64 n, BitVec.ofNat 64 b.space, 0⟩ h
  else if n ≠ 0 ∧ ws < off + 16 * n then EngOut.refuse s ⟨365, 0, BitVec.ofNat 64 off, BitVec.ofNat 64 ws, 0⟩ h
  else
    match s.pushBad f off n, firstInvalid (pushed f off n) with
    | some o, _ => EngOut.refuse s ⟨488, 0, BitVec.ofNat 64 o, 0, 0⟩ h
    | none, some (k, w) => EngOut.refuse s ⟨360, 0, BitVec.ofNat 64 k, BitVec.ofNat 64 w, 0⟩ h
    | none, none =>
      let b1 : Batcher := { b with
        stream := b.stream ++ (pushed f off n).zipIdx.map (fun x => (b.nextIndex + x.2, x.1)),
        nextIndex := b.nextIndex + n,
        closed := bitOf (cmd.reg 1) 16 }
      EngOut.done ((s.endSignal f b1).formMore f) h

/-- CBNEXT (R173). -/
def State.cbnextRun (s : State) (f : Frame) (b : Batcher) : EngOut :=
  match b.flights.find? (fun x => x.published && !x.taken) with
  | some x =>
    { EngOut.done (s.setCb f { b with flights := b.flights.map (fun y => if y.slot = x.slot then { y with taken := true } else y) }) 2 with
      val := some (BitVec.ofNat 64 (x.number.toNat + 2 ^ 32 * x.members.length + 2 ^ 48 * x.slot + 2 ^ 63)) }
  | none =>
    { EngOut.done s 2 with val := some (if b.closed && b.stream.isEmpty then 0x4000000000000000#64 else 0) }

/-- CBDONE (R174). -/
def State.cbdoneRun (s : State) (f : Frame) (b : Batcher) (cmd : Cmd) : EngOut :=
  let k := field (cmd.reg 0) 0 3
  if b.flights.any (fun x => x.slot == k) then
    EngOut.done (s.formNext f { b with flights := b.flights.filter (fun x => x.slot != k) }) 2
  else EngOut.refuse s ⟨363, 0, BitVec.ofNat 64 k, BitVec.ofNat 64 b.out, 0⟩ 2

/-- A started batcher command. -/
def State.batcherRun (s : State) (f : Frame) (cmd : Cmd) : EngOut :=
  match f.cb with
  | none => EngOut.done s 1
  | some b =>
    match cmd.instr with
    | .cbcfg .. => s.cbcfgRun f b cmd
    | .cbpush .. => s.cbpushRun f b cmd
    | .cbnext .. => s.cbnextRun f b
    | .cbdone .. => s.cbdoneRun f b cmd
    | .cbstat .. => { EngOut.done s 1 with val := some b.stat }
    | _ => EngOut.done s 1

/-! ### Issue -/

/-- CBCFG is issued. -/
def execCbcfg (b : BitVec 3) (e : BitVec 8) (i : BitVec 2) (s : State) : Host.Outcome State Fault Refusal :=
  issueI (.cbcfg b e i) s (engEff (.cbcfg b e i) .batcher b [0, 1, 2] false)

/-- CBPUSH is issued. -/
def execCbpush (b : BitVec 3) (e : BitVec 8) (i : BitVec 2) (s : State) : Host.Outcome State Fault Refusal :=
  issueI (.cbpush b e i) s (engEff (.cbpush b e i) .batcher b [0, 1] false)

/-- CBNEXT is issued: its base register becomes pending. -/
def execCbnext (b : BitVec 3) (s : State) : Host.Outcome State Fault Refusal :=
  issueI (.cbnext b) s (engEff (.cbnext b) .batcher b [] true)

/-- CBDONE is issued. -/
def execCbdone (b : BitVec 3) (e : BitVec 8) (i : BitVec 2) (s : State) : Host.Outcome State Fault Refusal :=
  issueI (.cbdone b e i) s (engEff (.cbdone b e i) .batcher b [0] false)

/-- CBSTAT is issued: its base register becomes pending. -/
def execCbstat (b : BitVec 3) (s : State) : Host.Outcome State Fault Refusal :=
  issueI (.cbstat b) s (engEff (.cbstat b) .batcher b [] true)

end Sys2Proof.Machine
end

