-- ==== Sys2Proof/Machine/Fabric.lean ====
section
/-! DEFINITION. Remote operations at their source: major 0x24, their packets and routes, and the answers that come back
(12 R265 to R273; 23 R417 to R427). -/

namespace Sys2Proof.Machine

/-! ### Issue (12 R265 to R270) -/

/-- Checks 1 and 2 of R267 on an address, with the words of 04 R70. -/
def remoteCheck (a : Word) (sz kind : Nat) (words : Word) : Option Trap :=
  let i1 : Word := BitVec.ofNat 64 (sz + 65536 * kind)
  if !bitOf a 63 then some ⟨179, a, i1, words, 0⟩
  else if a.toNat % sz ≠ 0 then some ⟨181, a, i1, words, 0⟩
  else none

/-- RST (R268). -/
def execRst (d a : BitVec 5) (z : BitVec 2) (f : BitVec 1) (s : State) : Host.Outcome State Fault Refusal :=
  issueI (.rst d a z f) s (fun c s =>
    let ad := c.t.getG a.toNat
    match remoteCheck ad (sizeOf z.toNat) 1 s.cur.words with
    | some tr => s.trapIssued c.t.cl c.t.slot tr
    | none => s.fabricOp c none (remoteOf 0 ad (c.t.getG d.toNat) 0 z.toNat (sizeOf z.toNat) false 0 (f == 1)))

/-- RLD (R268). -/
def execRld (d a : BitVec 5) (z : BitVec 2) (s : State) : Host.Outcome State Fault Refusal :=
  issueI (.rld d a z) s (fun c s =>
    let ad := c.t.getG a.toNat
    match remoteCheck ad (sizeOf z.toNat) 0 s.cur.words with
    | some tr => s.trapIssued c.t.cl c.t.slot tr
    | none => s.fabricOp c (some (.g d)) (remoteOf 1 ad 0 0 z.toNat (sizeOf z.toNat) false d false))

/-- RATOM (R268); op 9 takes G[d + 1] as ACAS does. -/
def execRatom (d a : BitVec 5) (z : BitVec 1) (o : BitVec 4) (f : BitVec 1) (s : State) : Host.Outcome State Fault Refusal :=
  issueI (.ratom d a z o f) s (fun c s =>
    let ad := c.t.getG a.toNat
    let sz := if z = 1 then 8 else 4
    match remoteCheck ad sz 2 s.cur.words with
    | some tr => s.trapIssued c.t.cl c.t.slot tr
    | none => s.fabricOp c (some (.g d)) (remoteOf 2 ad (c.t.getG d.toNat) (c.t.getG (d.toNat + 1)) o.toNat sz false d (f == 1)))

/-- RSIG (R269). -/
def execRsig (d a : BitVec 5) (f : BitVec 1) (s : State) : Host.Outcome State Fault Refusal :=
  issueI (.rsig d a f) s (fun c s =>
    s.fabricOp c none (remoteOf 3 (c.t.getG a.toNat) (c.t.getG d.toNat) 0 0 8 false 0 (f == 1)))

/-- RSPAWN carries four arguments, the base priority and the limits (R269). -/
def execRspawn (d : BitVec 5) (a : BitVec 3) (s : State) : Host.Outcome State Fault Refusal :=
  issueI (.rspawn d a) s (fun c s =>
    s.fabricOp c none { remoteOf 4 (c.t.getG d.toNat) 0 0 0 8 false 0 false with
      args := (groupRegs a [0, 1, 2, 3]).map c.t.getG ++ [c.t.prio.setWidth 64, c.t.swlim.setWidth 64, c.t.spwlim.setWidth 64] })

/-- FPATH: the spray width of later remote operations (R270). -/
def execFpath (w : BitVec 3) (s : State) : Host.Outcome State Fault Refusal :=
  issueI (.fpath w) s (fun c s => s.modThread c.t.cl c.t.slot (fun u => { u with wcode := w }))

/-! ### Packets (23 R423, R424) -/

/-- A write of R266: RST, RATOM, RSIG; and a copy piece (14 R317). -/
def Remote.isWrite (r : Remote) : Bool := r.opc == 0 || r.opc == 2 || r.opc == 3 || r.opc == 6

/-- STREAM of the packet header. -/
def streamWord (pkg cl slot : Nat) : Word := BitVec.ofNat 64 (pkg % 32768 + cl % 256 * 2 ^ 15 + slot % 512 * 2 ^ 23)

/-- The bytes of a piece: an enable mask of the line, then the line (log 25). -/
def piecePayload (bs : List (Nat × Byte)) : List Byte :=
  leBytes 8 (maskOf bs).toNat ++ (List.range 64).map (fun k => match bs.find? (fun b => b.1 == k) with | some b => b.2 | none => 0)

/-- The payload of an operation (R424; log 25 for the parts whose places the spec does not give). -/
def Remote.payload (r : Remote) : List Byte :=
  match r.opc with
  | 0 => leBytes r.sz r.val.toNat
  | 2 => leBytes r.sz r.val.toNat ++ (if r.arg = 9 then leBytes r.sz r.val2.toNat else [])
  | 3 => leBytes 8 r.val.toNat
  | 4 => ((r.args.take 4).flatMap (fun v => leBytes 8 v.toNat)) ++ leBytes 1 (nth r.args 4 0).toNat ++
      leBytes 4 (nth r.args 5 0).toNat ++ leBytes 4 (nth r.args 6 0).toNat
  | 6 => piecePayload r.bytes
  | _ => []

/-- ARG: a size code, or the bits [10:6] of RATOM's word (R424; log 25). -/
def Remote.argByte (r : Remote) : Nat :=
  match r.opc with
  | 0 | 1 => if r.sz = 8 then 3 else if r.sz = 4 then 2 else r.sz / 2
  | 2 => r.arg + (if r.sz = 8 then 16 else 0)
  | _ => r.arg

/-- The packet of an operation of a source cluster and slot. -/
def State.packetOf (s : State) (cl slot : Nat) (r : Remote) : Packet :=
  { target := BitVec.ofNat 15 r.target, iface := s.iface,
    ev := BitVec.ofNat 16 (r.path % 16 + 16 * (Nat.xor (512 * cl + slot % 512) r.target % 4096)),
    opc := BitVec.ofNat 8 r.opc, flags := BitVec.ofNat 8 ((if r.ofl then 1 else 0) + (if r.start then 2 else 0)),
    arg := BitVec.ofNat 8 r.argByte, rsv := 0, mode := 0, seq := r.seq,
    fkey := r.fkey,
    stream := streamWord s.pkgid.toNat cl slot,
    addr := if r.opc = 3 ∨ r.opc = 4 then r.addr else BitVec.ofNat 64 (field r.addr 0 48),
    ncount := if r.ofl then r.ncount else [], payload := r.payload, trimmed := false, ce := false, crcBad := false,
    psn := r.psn, urgent := false, hops := 0, vc := 0 }

/-! ### Routes (23 R417 to R423; 01 R12) -/

/-- Coordinates x, y, z of a package in its pod. -/
def coord (p k : Nat) : Nat := p / 16 ^ k % 16

/-- The two ports of a face: dimension k, direction + or -. -/
def facePorts (k : Nat) (plus : Bool) : List Nat := let b := 4 * k + (if plus then 0 else 2); [b, b + 1]

/-- The productive ports of one dimension. -/
def dimPorts (at_ target k : Nat) : List Nat :=
  let d := (coord target k + 16 - coord at_ k) % 16
  (if 1 ≤ d ∧ d ≤ 8 then facePorts k true else []) ++ (if 8 ≤ d then facePorts k false else [])

/-- Productive ports of a packet in the pod. -/
def productive (at_ target : Nat) : List Nat :=
  (List.range 3).flatMap (dimPorts at_ target)

/-- Bytes that a port sends in one pulse at 1.6 Tb/s (log 5). -/
def portRate : Nat := 181

/-- Bytes queued at a port now. -/
def State.queuedAt (s : State) (p : Nat) : Nat := (s.eport p).queued - portRate * (s.now - (s.eport p).at_)

/-- Of a list of ports the up ones with the fewest bytes queued. -/
def State.least (s : State) (ps : List Nat) : List Nat :=
  let up := ps.filter (fun p => (s.eport p).up)
  match lowest (fun _ => true) (up.map s.queuedAt) with
  | some n => up.filter (fun p => s.queuedAt p == n)
  | none => []

/-- Entry EV mod n of a list of candidates in ascending order. -/
def pickPort (ev : Nat) (ps : List Nat) : Option Nat := if ps.isEmpty then none else ps[ev % ps.length]?

/-- The + face of the lowest non-productive dimension with an up port (R420). -/
def State.detour (s : State) (at_ target : Nat) : List Nat :=
  match (List.range 3).find? (fun k => coord at_ k == coord target k && (facePorts k true).any (fun p => (s.eport p).up)) with
  | some k => s.least (facePorts k true)
  | none => []

/-- The escape channels route in the order X, Y, Z: the ports of the lowest dimension that differs and has a productive port up
(R419, R420; log 49). -/
def State.escapePorts (s : State) (at_ target : Nat) : List Nat :=
  match (List.range 3).find? (fun k => (dimPorts at_ target k).any (fun p => (s.eport p).up)) with
  | some k => dimPorts at_ target k
  | none => []

/-- The escape channel after a hop: 1 turns to 2 as the packet crosses from coordinate 15 to 0 (R419). -/
def escapeAfter (at_ port vc : Nat) : Nat :=
  if vc = 1 ∧ port % 4 < 2 ∧ coord at_ (port / 4) = 15 then 2 else vc

/-- The port by which a packet leaves, and the non-minimal hops it has made then; none where it can make no hop. -/
def State.route (s : State) (pkt : Packet) : Option (Nat × Nat) :=
  let at_ := s.pkgid.toNat
  let t := pkt.target.toNat
  if at_ / 4096 ≠ t / 4096 then
    match pickPort pkt.ev.toNat ((List.range 4).map (fun k => 12 + k) |>.filter (fun p => (s.eport p).up)) with
    | some p => some (p, pkt.hops)
    | none => none
  else
    match pickPort pkt.ev.toNat (s.least (if pkt.vc = 0 then productive at_ t else s.escapePorts at_ t)) with
    | some p => some (p, pkt.hops)
    | none =>
      if pkt.hops < 2 then
        match pickPort pkt.ev.toNat (s.detour at_ t) with
        | some p => some (p, pkt.hops + 1)
        | none => none
      else none

/-- Bytes that a packet takes in a queue (log 25). -/
def packetSize (p : Packet) : Nat := if p.trimmed then 96 else 96 + p.payload.length + 2 * p.ncount.length

/-- A packet as an egress queue with so many bytes forwards it: marked from 64 KiB, and from 512 KiB trimmed to its headers, at the
highest priority (R422). -/
def queuedBehind (p : Packet) (q : Nat) : Packet :=
  if 524288 ≤ q then { p with ce := true, trimmed := true, urgent := true, payload := [] } else { p with ce := p.ce || decide (65536 ≤ q) }

/-- A packet of an operation of this package. -/
def pktOwn (s : State) (p : Packet) : Bool := field p.stream 0 15 == s.pkgid.toNat

/-- A packet leaves by a port, unless its CRC does not match as it leaves: then it is counted, not sent, and the transport sends it
again; the answer to one that it marks says so (R422, R430; 04 R100). -/
def State.emit (s : State) (pkt : Packet) (port hops : Nat) : State :=
  let q := s.queuedAt port
  let p1 : Packet := { queuedBehind pkt q with hops := hops, vc := escapeAfter s.pkgid.toNat port pkt.vc }
  if s.txBad.contains port then
    { s.modEport port (fun e => { e with crc := satInc e.crc }) with txBad := s.txBad.erase port }
  else
    { s.modEport port (fun e => { e with queued := q + packetSize p1, at_ := s.now }) with
      hostOut := s.hostOut ++ [.packet p1 port],
      marked := if p1.ce && !p1.trimmed && pktOwn s pkt then s.marked ++ [pkt.psn] else s.marked }

/-- A port's drop counter (R430). -/
def State.countDrop (s : State) (port : Nat) : State := s.modEport port (fun e => { e with drops := satInc e.drops })

/-- The port that counts a packet of this package that can make no hop: the one that its entropy value selects among those that
lead to its target, were they up (R420, R430; log 49). -/
def State.dropPort (s : State) (pkt : Packet) : Nat :=
  let at_ := s.pkgid.toNat
  let t := pkt.target.toNat
  (pickPort pkt.ev.toNat (if at_ / 4096 ≠ t / 4096 then [12, 13, 14, 15] else productive at_ t)).getD 0

/-- A packet is forwarded; one that finds no free adaptive buffer, which the spec leaves to the hardware, takes the escape
channel and keeps it (R419; log 3). None where it can make no hop. -/
def State.forward (s : State) (pkt : Packet) : Option State :=
  let p1 : Packet := if pkt.vc = 0 ∧ bitOf s.freeVal 0 then { pkt with vc := 1 } else pkt
  match s.route p1 with
  | some (p, h) => some (s.useFree.emit p1 p h)
  | none => none

/-- A packet of this package is sent: to the package itself through its endpoint, else through the switch. Without a route
it is dropped and counted, and the transport sends it again (R420). -/
def State.sendPacket (s : State) (pkt : Packet) : State :=
  if pkt.target = s.pkgid then { s with loop := s.loop ++ [(s.now + Config.fabricLoop, pkt)] }
  else match s.forward pkt with
    | some s1 => s1
    | none => s.useFree.countDrop (s.dropPort pkt)

/-! ### Sending (12 R266; 23 R426) -/

/-- An operation of the same stream, whichever thread of the slot issued it (R266; 05 R117). -/
def Remote.sameStream (r : Remote) (cl slot : Nat) (a : Act) (q : Remote) : Bool :=
  a.cl == cl && a.slot % 512 == slot % 512 && q.rgn == r.rgn && q.target == r.target

/-- An operation is started and not acknowledged, also one whose answer waits for its thread's resumption (12 R266, R270). -/
def Remote.unanswered (r : Remote) : Bool := r.sent && r.answered.isNone

/-- A write is acknowledged or rejected: its answer is there, and it is not that its retry budget has ended (23 R426, R427). -/
def Remote.settled (r : Remote) : Bool := match r.answered with | some (k, v, _) => !(k == 2 && v == 7) | none => false

/-- An earlier write of the stream of operation `id` is not acknowledged, or was given up (23 R426, R427). -/
def State.earlierWrites (s : State) (id cl slot : Nat) (r : Remote) : Bool :=
  (s.stream r.rgn cl (slot % 512) r.target).lost ||
  s.acts.any (fun a =>
    match a.job with
    | .remote q => r.sameStream cl slot a q && q.isWrite && decide (a.id < id) && !q.settled
    | _ => false)

/-- An operation is transmitted under a fresh PDS number: START, the counts and NCOUNT as R426 states. -/
def State.transmit (s : State) (id cl slot : Nat) (r : Remote) : State × Remote :=
  let r0 : Remote := { r with sent := true, resend := false, psn := BitVec.ofNat 32 s.psn }
  let s0 : State := { s with psn := s.psn + 1 }
  if r.isWrite then
    let st := s.stream r.rgn cl (slot % 512) r.target
    let start := !s.earlierWrites id cl slot r
    let base := if start then List.replicate 16 0 else st.counts
    let r1 : Remote := { r0 with start := start, ncount := base }
    let s1 := s0.setStream { st with counts := base.set r.path (nth base r.path 0 + 1) }
    (s1.sendPacket (s1.packetOf cl slot r1), r1)
  else (s0.sendPacket (s.packetOf cl slot r0), r0)

/-- A remote operation in flight is replaced. -/
def State.setRemote (s : State) (id : Nat) (r : Remote) : State :=
  { s with acts := s.acts.map (fun a => if a.id = id then { a with job := .remote r } else a) }

/-- Started and unacknowledged operations of a cluster. -/
def State.remoteCount (s : State) (cl : Nat) : Nat :=
  (s.acts.filter (fun a => a.cl == cl && (match a.job with | .remote r => r.unanswered | _ => false))).length

/-- An OF write of the stream is sent and not acknowledged: no further write of the stream is sent (R426). -/
def State.ofPending (s : State) (id cl slot : Nat) (r : Remote) : Bool :=
  r.isWrite && s.acts.any (fun a =>
    match a.job with
    | .remote q => r.sameStream cl slot a q && q.ofl && q.unanswered && q.isWrite && a.id != id
    | _ => false)

/-- An earlier operation of the stream is not sent: the interface starts them in SEQ order (12 R266). -/
def State.streamBehind (s : State) (id cl slot : Nat) (r : Remote) : Bool :=
  s.acts.any (fun a =>
    match a.job with
    | .remote q => r.sameStream cl slot a q && !q.sent && decide (a.id < id)
    | _ => false)

/-- The window of a stream after so many cuts, in operations: 4,096 at first, which limits nothing (12 R266; log 46). -/
def nsccWindow : Nat → Nat
  | 0 => 4096
  | k + 1 => Nat.max 1 (Config.nsccLower k % nsccWindow k)

/-- NSCC lowers the window of an operation's stream as its packet was trimmed or marked (R422). -/
def State.cutWindow (s : State) (a : Act) (r : Remote) : State :=
  let st := s.stream r.rgn a.cl (a.slot % 512) r.target
  s.setStream { st with cuts := st.cuts + 1 }

/-- The window of a stream has room for one more operation. -/
def State.windowOpen (s : State) (cl slot : Nat) (r : Remote) : Bool :=
  decide ((s.acts.filter (fun a => match a.job with | .remote q => r.sameStream cl slot a q && q.unanswered | _ => false)).length <
    nsccWindow (s.stream r.rgn cl (slot % 512) r.target).cuts)

/-- Nothing keeps the interface from sending an operation (12 R266; 23 R421, R426). -/
def State.maySend (s : State) (a : Act) (r : Remote) : Bool :=
  decide (s.remoteCount a.cl < 4096) && s.doneAll a.after && !s.ofPending a.id a.cl a.slot r && !s.streamBehind a.id a.cl a.slot r &&
  s.windowOpen a.cl a.slot r

/-- The oldest operation of each thread that stands in the fabric interface port queue. -/
def State.fabCands (s : State) (cl : Nat) : List (Act × Remote) :=
  let q := s.acts.filterMap (fun a => if a.cl = cl ∧ a.unsent = true then (match a.job with | .remote r => some (a, r) | _ => none) else none)
  q.filter (fun x => !q.any (fun y => y.1.slot == x.1.slot && decide (y.1.id < x.1.id)))

/-- The priority of a remote operation in its port's arbitration (03 R62). -/
def State.fabPriority (s : State) (cl : Nat) (r : Remote) : Nat := Nat.min 7 (r.prio.toNat + (s.pulse cl - r.since) / s.ageq cl)

/-- The order of candidates (03 R62). -/
def State.fabBefore (s : State) (cl : Nat) (x y : Act × Remote) : Bool :=
  if s.fabPriority cl x.2 ≠ s.fabPriority cl y.2 then decide (s.fabPriority cl y.2 < s.fabPriority cl x.2)
  else if x.2.since ≠ y.2.since then decide (x.2.since < y.2.since)
  else decide (x.1.slot % 512 < y.1.slot % 512)

def State.bestFab (s : State) (cl : Nat) : List (Act × Remote) → Option (Act × Remote)
  | [] => none
  | x :: r =>
    match s.bestFab cl r with
    | none => some x
    | some y => if s.fabBefore cl x y then some x else some y

/-- The operation that the interface starts next, if it may (12 R266; 23 R426). One that may not is passed over until its priority is 7; then,
once it is the chosen one, the port waits for it (03 R63; log 52). -/
def State.fabChosen (s : State) (cl : Nat) : Option (Act × Remote) :=
  if s.idle cl .fabric then
    match s.bestFab cl (s.fabCands cl) with
    | none => none
    | some x =>
      if s.maySend x.1 x.2 then some x
      else if s.fabPriority cl x.2 = 7 then none
      else s.bestFab cl ((s.fabCands cl).filter (fun y => s.maySend y.1 y.2))
  else none

/-- The next operation of a slot becomes a candidate. -/
def State.nextFab (s : State) (cl slot : Nat) : State :=
  match (s.fabCands cl).find? (fun x => x.1.slot == slot) with
  | some x => s.setRemote x.1.id { x.2 with since := s.pulse cl }
  | none => s

/-- The fabric interface starts an operation: it leaves the port queue and is transmitted. -/
def State.startFabric (s : State) (cl : Nat) : State :=
  match s.fabChosen cl with
  | none => s
  | some (a, r) =>
    let x := (s.hold cl .fabric 1).transmit a.id cl a.slot r
    (x.1.setRemote a.id x.2).nextFab cl a.slot

/-! ### Answers (12 R272, R273; 23 R426, R427) -/

/-- A path count rises by one, wrapping (R272). -/
def bumpPath (l : List Word) (path : Nat) : List Word :=
  let w := nth l (path / 4) 0
  let c := field w (16 * (path % 4)) 16
  l.set (path / 4) (w - BitVec.ofNat 64 (c * 2 ^ (16 * (path % 4))) + BitVec.ofNat 64 ((c + 1) % 65536 * 2 ^ (16 * (path % 4))))

/-- The path of an operation is counted for its thread, and for nobody once that thread has ended (R272). The paths that the
present pulse has counted are kept for a SYSW in it, which comes first. -/
def State.countPath (s : State) (a : Act) (r : Remote) : State :=
  s.modThread a.cl a.slot (fun t =>
    { t with fpcnt := bumpPath t.fpcnt r.path, fpAt := s.now, fpPaths := (if t.fpAt = s.now then t.fpPaths else []) ++ [r.path] })

/-- A count register as a SYSW of a value leaves it: the counts of the same pulse follow the write (R272). -/
def State.fpWrite (s : State) (t : Thread) (k : Nat) (v : Word) : List Word :=
  if t.fpAt = s.now then (t.fpPaths.filter (fun p => p / 4 == k)).foldl bumpPath (t.fpcnt.set k v) else t.fpcnt.set k v

/-- Operations of a stream that were answered RETRY are sent again with START once every earlier write is acknowledged
(R426). -/
def State.resendAll (s : State) : List Act → State
  | [] => s
  | a :: rest =>
    match a.job with
    | .remote r =>
      if r.resend && !s.earlierWrites a.id a.cl a.slot r then
        let x := s.transmit a.id a.cl a.slot r
        (x.1.setRemote a.id x.2).resendAll rest
      else s.resendAll rest
    | _ => s.resendAll rest

/-- The operation is over: its act goes, its path counts, and writes that waited for it are sent again. -/
def State.endRemote (s : State) (a : Act) (r : Remote) : State :=
  let s1 := (s.countPath a r).dropAct a.id
  s1.resendAll s1.acts

/-- A write that is given up was not acknowledged: an OF write behind it is never sent with START, and never performed (R426, R427). -/
def State.loseWrite (s : State) (a : Act) (r : Remote) : State :=
  if r.isWrite then s.setStream { s.stream r.rgn a.cl (a.slot % 512) r.target with lost := true } else s

/-- i1 of R273. -/
def Remote.i1 (r : Remote) : Word := BitVec.ofNat 64 (r.seq.toNat + r.path * 2 ^ 32 + r.opc * 2 ^ 40)

/-- A remote failure of kind k (R273): late for a load or atomic, a failed write for the others, an error completion of the
command for a piece (14 R317). -/
def State.remoteFailed (s : State) (a : Act) (r : Remote) (k : Nat) (detail : Word) : State :=
  let s1 := (if k = 7 then s.loseWrite a r else s).endRemote a r
  let tr : Trap := ⟨432 + k, r.addr, r.i1, r.bundle, detail⟩
  if r.dead then s1
  else match r.cmd with
  | some cid =>
    { s1 with acts := s1.acts.map (fun b =>
        match b.job with
        | .ending e =>
          if e.cid = cid then
            let e1 : Ending := { e with bytes := e.bytes - r.bytes.length }
            let here := some (416 + k, (BitVec.ofNat 64 (a.slot % 512 + r.bundle.toNat % 65536 * 2 ^ 16 + b.cl * 2 ^ 40) : Word), (0 : Word), r.addr, detail)
            let err := match e.err with
              | none => here
              | some x => if 416 ≤ x.1 ∧ x.1 < 424 ∧ r.addr.toNat < x.2.2.2.1.toNat then some (416 + k, x.2.1, 0, r.addr, detail) else some x
            { b with job := .ending { e1 with err := err } }
          else b
        | _ => b) }
  | none =>
    if r.opc = 1 ∨ r.opc = 2 then s1.failLate a r.d tr
    else
      let s2 := s1.report a.cl a.slot r.rgn r.knum tr
      (s2.modThread a.cl a.slot (fun t => { t with errFab := t.errFab.count tr.cause tr.i0 tr.i1 tr.i3 s2.seq })).bump

/-- An answer takes effect: kind 0 acknowledgement, 1 data, 2 rejection of kind `v` (its detail `w`). While the region is
suspended on the cluster, and from the moment its block is composed (19 R374), the answer is kept for the resumption (12 R270; 05
R118; log 12). -/
def State.answered (s : State) (a : Act) (r : Remote) (kind : Nat) (v w : Word) : State :=
  if s.absent a then
    let reads := r.opc == 1 || r.opc == 2
    if (kind == 0 && reads) || (kind == 1 && !reads) then s
    else
      let s1 := s.setRemote a.id { r with answered := some (kind, v, w) }
      s1.resendAll s1.acts
  else
    match kind with
    | 0 => if r.opc = 1 ∨ r.opc = 2 then s else s.endRemote a r
    | 1 =>
      if r.opc = 1 ∨ r.opc = 2 then
        let s1 := s.endRemote a r
        let x := leBytes r.sz v.toNat
        if goneTag a.slot then s1
        else { s1 with acts := s1.acts ++ [{ a with job := .result (.g r.d) (loadValue r.sext x) none }] }
      else s
    | _ => s.remoteFailed a r v.toNat w

/-- The answer to a packet that carried a CE mark lowers its stream's window (R422). -/
def State.heard (s : State) (a : Act) (r : Remote) : State :=
  if s.marked.contains r.psn then { s.cutWindow a r with marked := s.marked.erase r.psn } else s

/-- An operation that has been sent and not yet been answered. -/
def State.openRemote (s : State) (id : Nat) : Option (Act × Remote) :=
  match s.act? id with
  | some a =>
    match a.job with
    | .remote r => if r.sent && r.answered.isNone then some (a, r) else none
    | _ => none
  | none => none

/-- REMOTE_ACK (05 R116; R272). -/
def execRemoteAck (id : Nat) (s : State) : Host.Outcome State Fault Refusal :=
  match s.openRemote id with
  | some (a, r) => .next ((s.heard a r).answered a r 0 0 0)
  | none => .next s

/-- REMOTE_REJECT: a kind of R273, 1 to 6, with its i3. -/
def execRemoteReject (id : Nat) (kind : BitVec 3) (detail : Word) (s : State) : Host.Outcome State Fault Refusal :=
  match s.openRemote id with
  | some (a, r) =>
    if 1 ≤ kind.toNat ∧ kind.toNat ≤ 6 then .next ((s.heard a r).answered a r 2 (kind.setWidth 64) detail) else .next s
  | none => .next s

/-- REMOTE_RETURN: the data of an RLD or RATOM (R268). -/
def execRemoteReturn (id : Nat) (data : Word) (s : State) : Host.Outcome State Fault Refusal :=
  match s.openRemote id with
  | some (a, r) => .next ((s.heard a r).answered a r 1 data 0)
  | none => .next s

/-- A RETRY answer: an OF write waits until it may carry START, any other operation is sent again at once, each as a new packet
(R426, R429). -/
def State.retried (s : State) (a : Act) (r : Remote) : State :=
  let s1 := s.setRemote a.id { r with resend := true }
  if r.isWrite then s1.resendAll [{ a with job := .remote { r with resend := true } }]
  else
    let x := s1.transmit a.id a.cl a.slot r
    x.1.setRemote a.id x.2

/-- REMOTE_RETRY. -/
def execRemoteRetry (id : Nat) (s : State) : Host.Outcome State Fault Refusal :=
  match s.openRemote id with
  | some (a, r) => if r.resend then .next s else .next ((s.heard a r).retried a r)
  | none => .next s

/-- A packet is sent again as it was, after its stream's window was lowered (R421, R422, R423). -/
def State.nacked (s : State) (a : Act) (r : Remote) : State := (s.cutWindow a r).sendPacket (s.packetOf a.cl a.slot r)

/-- NACK: the packet is sent again as it was (R421, R423). -/
def execNack (id : Nat) (s : State) : Host.Outcome State Fault Refusal :=
  match s.openRemote id with
  | some (a, r) => if r.resend then .next s else .next (s.nacked a r)
  | none => .next s

/-- RETRANSMIT_TIMEOUT: the packet is sent again as it was (R421, R423). -/
def execRetransmitTimeout (id : Nat) (s : State) : Host.Outcome State Fault Refusal :=
  match s.openRemote id with
  | some (a, r) => if r.resend then .next s else .next (s.sendPacket (s.packetOf a.cl a.slot r))
  | none => .next s

/-- RETRY_BUDGET_EXPIRY: the operation fails with kind 7 (R427, R273). -/
def execRetryBudgetExpiry (id : Nat) (s : State) : Host.Outcome State Fault Refusal :=
  match s.openRemote id with
  | some (a, r) => .next (s.answered a r 2 7 0)
  | none => .next s

end Sys2Proof.Machine
end

