-- ==== Sys2Proof/Machine/Copy.lean ====
section
/-! DEFINITION. The copy commands, major 0x31: rows, start checks, the bytes a copy moves and the pieces of a remote copy
(14 R314 to R319). -/

namespace Sys2Proof.Machine

/-! ### Rows (R314, R315) -/

/-- One row in copy order: the index of its first byte, its source if it has one, its destinations and its length. -/
structure Row where
  n0 : Nat
  src : Option Word
  dst : List Word
  len : Nat
  deriving DecidableEq, Repr

/-- A signed 16-bit stride field in a unit of bytes. -/
def stride (v : Word) (lo unit : Nat) : Word := BitVec.ofInt 64 (sextNat 16 (field v lo 16) * unit)

def Cmd.xlen (c : Cmd) : Nat := field (c.reg 2) 0 24
def Cmd.ycnt (c : Cmd) : Nat := field (c.reg 2) 24 12 + 1
def Cmd.zcnt (c : Cmd) : Nat := field (c.reg 2) 36 12 + 1

/-- The rows of CPY and CPYF: x fastest, then y, then z. -/
def boxRows (c : Cmd) (fill : Bool) : List Row :=
  (List.range c.zcnt).flatMap (fun z => (List.range c.ycnt).map (fun y =>
    let at_ (base : Word) (ys zs : Nat) : Word :=
      base + BitVec.ofNat 64 z * stride (c.reg 3) zs 4096 + BitVec.ofNat 64 y * stride (c.reg 3) ys 16
    ⟨(z * c.ycnt + y) * c.xlen, if fill then none else some (at_ (c.reg 0) 0 16), [at_ (c.reg 1) 32 48], c.xlen⟩))

/-- The index list's offset. -/
def Cmd.listOff (c : Cmd) : Nat := field (c.reg 3) 0 22

/-- The n-th index of CPYX, read at the start. -/
def copyIndex (f : Frame) (c : Cmd) (n : Nat) : Nat := fromLE (memRead f.scr (c.listOff + 4 * n) 4)

/-- The rows of CPYX. -/
def gatherRows (f : Frame) (c : Cmd) : List Row :=
  let pitch := if field (c.reg 2) 36 12 = 0 then c.xlen else 16 * field (c.reg 2) 36 12
  (List.range c.ycnt).map (fun n =>
    ⟨n * c.xlen, some (c.reg 0 + BitVec.ofNat 64 (copyIndex f c n * field (c.reg 3) 32 32)),
      [c.reg 1 + BitVec.ofNat 64 (n * pitch)], c.xlen⟩)

/-- The clusters of CPYM's mask, on the issuing cluster's die. -/
def maskClusters (f : Frame) (c : Cmd) : List Nat :=
  ((List.range 64).filter (fun m => bitOf (c.reg 3) m)).map (fun m => 64 * dieOf f.cl + m)

/-- The row of CPYM: the peer windows of its clusters. -/
def castRows (f : Frame) (c : Cmd) : List Row :=
  [⟨0, some (c.reg 0),
    (maskClusters f c).map (fun k => BitVec.ofNat 64 (0x41 * 2 ^ 56 + k * 2 ^ 40 + field (c.reg 1) 0 22)), c.xlen⟩]

/-- The rows of a copy. -/
def copyRows (f : Frame) (c : Cmd) : List Row :=
  match c.instr with
  | .cpyx .. => gatherRows f c
  | .cpym .. => castRows f c
  | .cpyf .. => boxRows c true
  | _ => boxRows c false

/-! ### Start checks (R318) -/

/-- The bits that each group register may hold. -/
def copyAllow : Instr → List Word
  | .cpyx .. => [0xFFFFFFFFFFFFFFFF#64, 0xFFFFFFFFFFFFFFFF#64, 0x001FFFFFFFFFFFFF#64, 0xFFFFFFFF003FFFFF#64]
  | .cpym .. => [0xFFFFFFFFFFFFFFFF#64, 0x00000000003FFFFF#64, 0x000F000000FFFFFF#64, 0xFFFFFFFFFFFFFFFF#64]
  | .cpyf .. => [0xFFFFFFFFFFFFFFFF#64, 0xFFFFFFFFFFFFFFFF#64, 0x001CFFFFFFFFFFFF#64, 0xFFFFFFFF00000000#64]
  | _ => [0xFFFFFFFFFFFFFFFF#64, 0xFFFFFFFFFFFFFFFF#64, 0x001FFFFFFFFFFFFF#64, 0xFFFFFFFFFFFFFFFF#64]

/-- 5.4.0: the group registers in ascending index. -/
def copyFields (c : Cmd) : Option Trap :=
  let al := copyAllow c.instr
  let extra (k : Nat) : Option Nat :=
    if k = 2 then outside (decide (c.xlen = 0)) 0
    else if k = 3 then
      match c.instr with
      | .cpyx .. => if c.listOff % 4 = 0 then none else lowBit (BitVec.ofNat 64 (c.listOff % 4))
      | .cpym .. => outside (c.reg 3 == 0) 0
      | _ => none
    else none
  firstField ([0, 1, 2, 3].map (fun k => fieldTrap 352 k (c.reg k) [reservedBit (c.reg k) (nth al k 0), extra k]))

/-- A window is admitted on a side (R316). -/
def copyAdmits (f : Frame) (dst : Bool) (a : Word) : Bool :=
  match window a with
  | .localW | .peer | .global => true
  | .host => flagOk f .host
  | .fabric => dst && flagOk f .fabric
  | .none => false

/-- One side's checks over its row starts, in the order of 04 R70. -/
def copySide (f : Frame) (r : Region) (c : Cmd) (dst : Bool) (as_ : List (Word × Nat)) : Option Trap :=
  let ws := f.hdr.kscr * 4096
  match as_.find? (fun a => !copyAdmits f dst a.1) with
  | some a => some ⟨355, 0, if dst then 1 else 0, f.hdr.kflags.setWidth 64, BitVec.ofNat 64 (field a.1 56 8)⟩
  | none =>
    if as_.any (fun a => window a.1 == .fabric) && r.fkey == 0 then some ⟨416, 0, 0, c.reg 1, 0⟩
    else
      match lowest (fun k => !inSet f.set k) ((as_.filter (fun a => window a.1 == .peer)).map (fun a => winField a.1)) with
      | some k => some ⟨354, 0, BitVec.ofNat 64 k, 0, 0⟩
      | none =>
        let scr := as_.filter (fun a => window a.1 == .peer || window a.1 == .localW)
        match lowest (fun _ => true) ((scr.filter (fun a => decide (ws < field a.1 0 22 + a.2))).map (fun a => Nat.max ws (field a.1 0 22))) with
        | some o => some ⟨353, 0, BitVec.ofNat 64 o, BitVec.ofNat 64 ws, 0⟩
        | none => none

/-- The source addresses of rows. -/
def srcList (rows : List Row) : List (Word × Nat) := rows.filterMap (fun r => match r.src with | some a => some (a, r.len) | none => none)

/-- The destination addresses of rows. -/
def dstList (rows : List Row) : List (Word × Nat) := rows.flatMap (fun r => r.dst.map (fun a => (a, r.len)))

/-- CPYX checks SADDR and its list before any index is read. -/
def listCheck (f : Frame) (r : Region) (c : Cmd) : Option Trap :=
  match c.instr with
  | .cpyx .. =>
    orTrap (copySide f r c false [(c.reg 0, c.xlen)])
      (if f.hdr.kscr * 4096 < c.listOff + 4 * c.ycnt then
         some ⟨353, 0, BitVec.ofNat 64 (Nat.max c.listOff (f.hdr.kscr * 4096)), BitVec.ofNat 64 (f.hdr.kscr * 4096), 0⟩
       else none)
  | _ => none

/-- CPYX reads its list at the start: an error in one of its lines stops it before any byte is moved (R303, R318). -/
def State.indexBad (s : State) (f : Frame) (c : Cmd) : Option Trap :=
  match c.instr with
  | .cpyx .. =>
    (List.range c.ycnt).findSome? (fun n =>
      match s.badAt f.rgn f.knum (.scratch f.cl (c.listOff + 4 * n) false) with
      | some crc => some (engFault 7 4 (if crc then 1 else 0) 0 false 0 (BitVec.ofNat 64 (0x40 * 2 ^ 56 + c.listOff + 4 * n)) (if crc then 1 else 0))
      | none => none)
  | _ => none

/-- Every check of R318. -/
def State.copyCheck (s : State) (f : Frame) (r : Region) (c : Cmd) : Option Trap :=
  orTrap (copyFields c) (orTrap (listCheck f r c) (orTrap (s.indexBad f c)
    (orTrap (copySide f r c false (srcList (copyRows f c))) (copySide f r c true (dstList (copyRows f c))))))

/-! ### The bytes of a copy (R316, R318) -/

/-- The swizzle descriptor of a side. -/
def Cmd.sideSwz (c : Cmd) (dst : Bool) : Word := nth c.swz (field (c.reg 2) (if dst then 50 else 48) 2) 0

/-- The place of byte x of a row on one side, or the fault that stops the copy there. -/
def State.copyPlace (s : State) (f : Frame) (r : Region) (c : Cmd) (dst : Bool) (start : Word) (len n x : Nat) :
    Except Trap Place :=
  let ea := start + BitVec.ofNat 64 x
  let bad (k : Nat) (i3 : Word) : Trap := engFault 2 4 k (if dst then 1 else 0) dst n ea i3
  if window ea ≠ window start ∨ winField ea ≠ winField start then .error (bad 4 (start + BitVec.ofNat 64 (len - 1)))
  else
    match s.engPlace f r ea (if dst then 1 else 0) with
    | .error (k, i3) => .error (bad k i3)
    | .ok p => .ok (p.swz (c.sideSwz dst))

/-- The places of a byte in every destination of its row. -/
def State.copyDsts (s : State) (f : Frame) (r : Region) (c : Cmd) (len n x : Nat) : List Word → Except Trap (List Place)
  | [] => .ok []
  | d :: rest =>
    match s.copyPlace f r c true d len n x, s.copyDsts f r c len n x rest with
    | .error tr, _ => .error tr
    | _, .error tr => .error tr
    | .ok p, .ok ps => .ok (p :: ps)

/-- The value of source byte n: from memory as it stood before the command, or as the command has left it, whichever the
machine chooses for that byte (R316; log 3); or its read error (R303; 22 R403). `sh` is memory with the bytes written so far. -/
def State.copyByte (s sh : State) (f : Frame) (r : Region) (c : Cmd) (row : Row) (n x : Nat) : Except Trap Byte :=
  match row.src with
  | none => .ok (BitVec.ofNat 8 (field (c.reg 0) (8 * (n % 8)) 8))
  | some a =>
    match s.copyPlace f r c false a row.len n x with
    | .error tr => .error tr
    | .ok p =>
      match s.badAt f.rgn f.knum p with
      | some crc =>
        .error (engFault 7 4 (if crc then 1 else 0) 0 false n (a + BitVec.ofNat 64 x) (if crc then 1 else 0))
      | none =>
        if s.hostStatus p = 0 then
          .ok (if bitOf (Config.freeWord (s.free + n)) 0 then sh.readByte f.rgn f.knum p else s.readByte f.rgn f.knum p)
        else .error (engFault 2 4 7 0 false n (a + BitVec.ofNat 64 x) (BitVec.ofNat 64 (2 ^ 63 + (s.hostStatus p).toNat)))

/-- Bytes of a row from x on: the destinations and values of the bytes that are written, in copy order, the memory after
them and the fault that stopped the copy. -/
def State.copyRow (s : State) (f : Frame) (r : Region) (c : Cmd) (row : Row) :
    Nat → Nat → State → List (List Place × Byte) × State × Option Trap
  | 0, _, sh => ([], sh, none)
  | k + 1, x, sh =>
    let n := row.n0 + x
    match s.copyByte sh f r c row n x, s.copyDsts f r c row.len n x row.dst with
    | .error tr, _ => ([], sh, some tr)
    | _, .error tr => ([], sh, some tr)
    | .ok b, .ok ps =>
      let y := s.copyRow f r c row k (x + 1) (ps.foldl (fun sh p => sh.writeByte f.rgn f.knum p b) sh)
      ((ps, b) :: y.1, y.2)

def State.copyAll (s : State) (f : Frame) (r : Region) (c : Cmd) :
    List Row → State → List (List Place × Byte) × Option Trap
  | [], _ => ([], none)
  | row :: rest, sh =>
    let y := s.copyRow f r c row row.len 0 sh
    match y.2.2 with
    | some tr => (y.1, some tr)
    | none =>
      let z := s.copyAll f r c rest y.2.1
      (y.1 ++ z.1, z.2)

/-! ### Its writes -/

/-- A multicast line: one engine-class entry for every cluster of the mask, with the numbers of the copies it departs into
(R316). -/
def State.castLines (s : State) (cmd : Cmd) (more : List Nat) : List (Place × List (Nat × Byte)) → List Nat → State × List Nat
  | [], ids => (s, ids)
  | (l, bs) :: r, ids =>
    let e := { engineEntry l bs 0 0x10000 (cmd.word.setWidth 64) cmd.rgn cmd.knum with mcast := more }
    let s1 := s.engineEnter cmd.cl cmd.slot e
    ({ s1 with seq := s1.seq + more.length }).castLines cmd more r (ids ++ (List.range (1 + more.length)).map (fun k => s.seq + k))

/-- The pieces of a remote copy, one for each line of its destination (R317). -/
def pieces : List (Place × List (Nat × Byte)) → List (Word × List (Nat × Byte))
  | [] => []
  | (l, bs) :: r =>
    match l with
    | .fabric a => (a, bs) :: pieces r
    | _ => pieces r

/-- A piece takes the next SEQ of the thread's stream and waits for its turn to be sent (R317). -/
def State.sendPiece (s : State) (cmd : Cmd) (a : Word) (bs : List (Nat × Byte)) (last : Bool) : State :=
  let target := field a 48 15
  let st := s.stream cmd.rgn cmd.cl (cmd.slot % 512) target
  let r : Remote := { remoteOf 6 a 0 0 0 64 false 0 (last && bitOf (cmd.reg 2) 52) with
    seq := st.next, path := st.next.toNat % cmd.width, bundle := BitVec.ofNat 64 cmd.seq.toNat, rgn := cmd.rgn, knum := cmd.knum, bytes := bs,
    cmd := some cmd.id, fkey := (match s.region? cmd.rgn with | some g => g.fkey | none => 0) }
  (s.setStream { st with next := st.next + 1 }).addAct 1 cmd.cl cmd.slot [] (.remote r)

def State.sendPieces (s : State) (cmd : Cmd) : List (Word × List (Nat × Byte)) → List Nat → State × List Nat
  | [], ids => (s, ids)
  | (a, bs) :: r, ids => (s.sendPiece cmd a bs r.isEmpty).sendPieces cmd r (ids ++ [s.seq])

/-- The first destination of each byte. -/
def firstDst (l : List (List Place × Byte)) : List (Place × Byte) :=
  l.filterMap (fun x => match x.1 with | p :: _ => some (p, x.2) | [] => none)

/-- A copy's lines are sent: at the banks, by entries, by one entry for a multicast, or as pieces. -/
def State.copySend (s : State) (f : Frame) (cmd : Cmd) (l : List (List Place × Byte)) : State × List Nat :=
  let lines := groupLines (firstDst l) []
  match cmd.instr with
  | .cpym .. => s.castLines cmd ((maskClusters f cmd).drop 1) lines []
  | _ =>
    let local_ := lines.filter (fun x => match x.1 with | .fabric _ => false | _ => true)
    let x := s.sendLines cmd.cl cmd.slot cmd.rgn cmd.knum 0 0x10000 (cmd.word.setWidth 64) local_ []
    x.1.sendPieces cmd (pieces lines) x.2

/-- What a copy reads: its sources in pieces of a line, up to the byte at which it stops, and CPYX its list at the start (05 R105; R316,
R318). -/
def State.copyReads (s : State) (f : Frame) (r : Region) (cmd : Cmd) : List (Place × Nat) × List (Place × List Byte) :=
  match s.copyCheck f r cmd with
  | some _ => ([], [])
  | none =>
    let n := (s.copyAll f r cmd (copyRows f cmd) s).1.length
    let places := (copyRows f cmd).flatMap (fun row =>
      match row.src with
      | none => []
      | some a => (List.range (Nat.min row.len (n - row.n0))).filterMap (fun x =>
          match s.copyPlace f r cmd false a row.len (row.n0 + x) x with
          | .ok p => some p
          | .error _ => none))
    let list := match cmd.instr with
      | .cpyx .. => [(Place.scratch f.cl cmd.listOff false, memRead f.scr cmd.listOff (4 * cmd.ycnt))]
      | _ => []
    (pieceLines places [], list)

/-- A started copy; `v` is the state whose memory it reads. -/
def State.copyRun (s v : State) (f : Frame) (r : Region) (cmd : Cmd) : EngOut × List Nat :=
  match s.copyCheck f r cmd with
  | some tr => (EngOut.refuse s tr 16, [])
  | none =>
    let y := v.copyAll f r cmd (copyRows f cmd) v
    let x := ({ s with free := s.free + y.1.length }).copySend f cmd y.1
    ({ s := x.1, out := [], err := y.2, val := none, pulses := 16 + (y.1.length + 511) / 512 }, x.2)

/-- A copy waits while a cluster whose window it reads is not resident; lines bound for a cluster that is not resident wait by
themselves, and so do pieces that their stream or the bound of 12 R266 holds back (02 R45; R316, R317). -/
def State.copyBlocked (s : State) (f : Frame) (cmd : Cmd) : Bool :=
  (srcList (copyRows f cmd)).any (fun a =>
    window a.1 == .peer && !s.placeUp f.rgn f.knum (.scratch (winField a.1) 0 true))

/-! ### Issue -/

/-- CPY is issued. -/
def execCpy (b : BitVec 3) (e : BitVec 8) (i : BitVec 2) (s : State) : Host.Outcome State Fault Refusal :=
  issueI (.cpy b e i) s (engEff (.cpy b e i) .copy b [0, 1, 2, 3] false)

/-- CPYX is issued. -/
def execCpyx (b : BitVec 3) (e : BitVec 8) (i : BitVec 2) (s : State) : Host.Outcome State Fault Refusal :=
  issueI (.cpyx b e i) s (engEff (.cpyx b e i) .copy b [0, 1, 2, 3] false)

/-- CPYM is issued. -/
def execCpym (b : BitVec 3) (e : BitVec 8) (i : BitVec 2) (s : State) : Host.Outcome State Fault Refusal :=
  issueI (.cpym b e i) s (engEff (.cpym b e i) .copy b [0, 1, 2, 3] false)

/-- CPYF is issued. -/
def execCpyf (b : BitVec 3) (e : BitVec 8) (i : BitVec 2) (s : State) : Host.Outcome State Fault Refusal :=
  issueI (.cpyf b e i) s (engEff (.cpyf b e i) .copy b [0, 1, 2, 3] false)

end Sys2Proof.Machine
end

