-- ==== Sys2Proof/Machine/Matrix.lean ====
section
/-! DEFINITION. The matrix engine: tiles, steps, passes, compaction, drain, images and status, majors 0x30 (07 R148 to R164;
14 R304 to R313). -/

namespace Sys2Proof.Machine

/-! ### Rows (07 R148, R149) -/

/-- Element j of a row. -/
def TileRow.at (r : TileRow) (j : Nat) : TElem :=
  match r.elems.find? (fun x => x.1 == j) with
  | some x => x.2
  | none => { m := 0, sp := .finite }

/-- The row with exponent e and the elements that a function gives. -/
def mkRow (e : Int) (f : Nat → TElem) : TileRow :=
  { e := e, elems := (List.range 128).filterMap (fun j =>
      let x := f j
      if x.m = 0 ∧ x.sp = .finite then none else some (j, x)) }

/-- L of a row (R149). -/
def TileRow.len (r : TileRow) : Nat :=
  r.elems.foldl (fun n x => if x.2.m = 0 then n else Nat.max n (Nat.log2 x.2.m.natAbs + 1)) 0

/-- Every finite mantissa through a function, at another exponent. -/
def TileRow.mapM (r : TileRow) (e : Int) (f : Int → Int) : TileRow :=
  mkRow e (fun j => let x := r.at j; if x.sp = .finite then { x with m := f x.m } else x)

/-- RNE(m / 2^s). -/
def rneShift (s : Nat) (m : Int) : Int :=
  let r := (roundUnits .rne (decide (m < 0)) m.natAbs 0 s).1
  if m < 0 then -(r : Int) else (r : Int)

/-- Shift(i, s) (R152). E stays at most 32,767 (R155): a row that MLOAD has put near it shifts no further (DESIGN CHOICE, log
55). -/
def TileRow.shift (r : TileRow) (s : Nat) : TileRow :=
  let k := Nat.min s (32767 - r.e).toNat
  if k = 0 then r else r.mapM (r.e + k) (rneShift k)

/-- Row i of a tile. -/
def Tile.row (t : Tile) (i : Nat) : TileRow := nth t.rows i { e := 0, elems := [] }

/-- SPCNT (R148). -/
def Tile.spcnt (t : Tile) : Nat :=
  t.rows.foldl (fun n r => n + (r.elems.filter (fun x => x.2.sp != .finite)).length) 0

/-- EVCNT counts one event, saturating. -/
def Tile.event (t : Tile) (n : Nat) : Tile := { t with evcnt := Nat.min (t.evcnt + n) 0xFFFFFFFF }

/-- A log entry enters the ring (R158). -/
def Tile.pushLog (t : Tile) (e : LogEntry) : Tile :=
  if t.logn < 16 then { t with log := t.log.set ((t.loghead + t.logn) % 16) e, logn := t.logn + 1 }
  else { t with log := t.log.set t.loghead e, loghead := (t.loghead + 1) % 16, loglost := Nat.min (t.loglost + 1) 0xFFFFFFFF }

/-- The entry of rows with their shifts, in ascending row order (R158): SLOT holds the issuing slot. -/
def logOf (seq slot step : Nat) (ev : List (Nat × Nat)) : LogEntry :=
  { seq := seq, slot := slot % 512, step := step, firstRow := (match ev with | x :: _ => x.1 | [] => 0), nRows := ev.length - 1,
    sMax := ev.foldl (fun m x => Nat.max m x.2) 0,
    sMin := ev.foldl (fun m x => Nat.min m x.2) (match ev with | x :: _ => x.2 | [] => 0) }

/-! ### Operands (06 R145; 07 R151; 14 R306) -/

/-- Half-bytes per element and scale bytes per block of an operand type: e4m3, e5m2, fp4, fp4x, mxi8, bf16, fp16. -/
def opW2 (t : Nat) : Nat := if t = 2 ∨ t = 3 then 1 else if t < 5 then 2 else 4
def opSpb (t : Nat) : Nat := if t ≥ 5 then 0 else if t = 3 then 2 else 1

/-- The block format code of an operand type (10 R213). -/
def opBlock (t : Nat) : Nat := if t = 3 then 4 else if t = 4 then 3 else t

/-- The value of an element code under its block's scale value. -/
def opVal (t scale code : Nat) : Val :=
  if t = 5 then decodeF bf16 code else if t = 6 then decodeF fp16 code else blockVal (opBlock t) scale code

/-- One operand in memory order: element rows, scales, and where they lie. -/
structure Operand where
  t : Nat
  ksteps : Nat
  rowBytes : Nat → List Byte            -- the elements of a row
  scaleAt : Nat → Nat → Nat             -- the scale value of a row at a step

/-- Element k of step `step` of row r. -/
def Operand.elem (o : Operand) (r step k : Nat) : Val :=
  let x := 32 * step + k
  let bs := o.rowBytes r
  let code :=
    if opW2 o.t = 1 then (nth bs (x / 2) 0).toNat / 16 ^ (x % 2) % 16
    else if opW2 o.t = 2 then (nth bs x 0).toNat
    else (nth bs (2 * x) 0).toNat + 256 * (nth bs (2 * x + 1) 0).toNat
  opVal o.t (o.scaleAt r step) code

/-- xb (R151); none is minus infinity. -/
def xb : Val → Option Int
  | .fin _ m e => if m = 0 then none else some ((Nat.log2 m : Int) + e + 1)
  | _ => none

def maxOpt (a b : Option Int) : Option Int :=
  match a, b with
  | some x, some y => some (if x < y then y else x)
  | some x, none => some x
  | none, y => y

/-! ### A step (R152 to R154) -/

/-- What a row does in a step. -/
inductive RowClass where
  | none | seat (e : Int) | seatEv (e : Int) | lower (c : Nat) | event (s : Nat)
  deriving DecidableEq, Repr

def imax (a b : Int) : Int := if a < b then b else a

/-- Fits(l, t, e). -/
def fits (l t e : Int) : Bool := decide (imax l (t - e + 5) ≤ 46)

/-- Classify; `lam` is some in an integer step. -/
def classify (r : TileRow) (t : Option Int) (lam : Option Int) : RowClass :=
  match t with
  | .none => .none
  | some t =>
    let l : Int := r.len
    let e := r.e
    let plain : RowClass :=
      if fits l t e then .none
      else
        let s := imax 1 (imax (l - 46) (t - e - 41))
        if fits (r.shift s.toNat).len t (e + s) then .event s.toNat else .event (s.toNat + 1)
    if l = 0 then
      match lam with
      | .none => .seat (t - 41)
      | some lm => if fits 0 t lm then .seat lm else .seatEv (t - 41)
    else
      match lam with
      | some lm =>
        if lm < e then
          if fits (l + e - lm) t lm then .lower (e - lm).toNat
          else if fits l t e then .event 0
          else plain
        else plain
      | .none => plain

/-- The row after its class has taken effect. -/
def TileRow.reclass (r : TileRow) : RowClass → TileRow
  | .none => r
  | .seat e => { r with e := e }
  | .seatEv e => { r with e := e }
  | .lower c => r.mapM (r.e - c) (fun m => m * (2 ^ c : Nat))
  | .event s => r.shift s

/-- trunc(p / 2^e) of a finite product, toward zero. -/
def truncAt (neg : Bool) (m : Nat) (e : Int) : Int :=
  let v : Nat := if 0 ≤ e then m * 2 ^ e.toNat else m / 2 ^ (-e).toNat
  if neg then -(v : Int) else (v : Int)

/-- Combine of an element with the step's special products (R154). -/
def combineSp (sp : Special) (ps : List Val) : Special :=
  if sp = .nan ∨ ps.any Val.isNan then .nan
  else
    let pos := sp = .posInf ∨ ps.any (fun v => match v with | .inf n => !n | _ => false)
    let neg := sp = .negInf ∨ ps.any (fun v => match v with | .inf n => n | _ => false)
    if pos ∧ neg then .nan else if pos then .posInf else if neg then .negInf else sp

def isSpecial (v : Val) : Bool := match v with | .fin .. => false | _ => true

/-- The element after a step's 32 products at exponent e. -/
def addProducts (x : TElem) (e : Int) (ps : List Val) : TElem :=
  if x.sp ≠ .finite ∨ ps.any isSpecial then { m := 0, sp := combineSp x.sp ps }
  else { x with m := ps.foldl (fun a p => match p with | .fin n m q => a + truncAt n m (q - e) | _ => a) x.m }

/-- The rectangle of a command (14 R304). -/
structure Rect where
  row0 : Nat
  nrows : Nat
  col0 : Nat
  ncols : Nat
  tile : Nat
  deriving DecidableEq, Repr

def rectOf (w : Word) : Rect :=
  { row0 := field w 8 7, nrows := field w 16 7 + 1, col0 := field w 24 7, ncols := field w 32 7 + 1, tile := field w 0 3 }

/-- T of row r of A at a step, from eb (R151). -/
def rowT (a : Operand) (eb : Option Int) (r step : Nat) : Option Int :=
  let x := (List.range 32).foldl (fun m k => maxOpt m (xb (a.elem r step k))) none
  match x, eb with
  | some y, some z => some (y + z)
  | _, _ => none

def stepEb (b : Operand) (ncols step : Nat) : Option Int :=
  (List.range ncols).foldl (fun m j => (List.range 32).foldl (fun m k => maxOpt m (xb (b.elem j step k))) m) none

/-- lambda of a row in an integer step (R151). -/
def stepLam (a b : Operand) (ncols r step : Nat) : Option Int :=
  if a.t = 4 then
    let sb := (List.range ncols).foldl (fun m j => Nat.min m (b.scaleAt j step)) 255
    some (((a.scaleAt r step : Int) - 133) + ((sb : Int) - 133))
  else none

/-- The rows that an event shifts, with their s. -/
def eventRows (cs : List (Nat × RowClass)) : List (Nat × Nat) :=
  cs.filterMap (fun x => match x.2 with | .event s => some (x.1, s) | .seatEv _ => some (x.1, 0) | _ => none)

/-- The rows that stop a step in trap mode. -/
def trapRows (cs : List (Nat × RowClass)) : List (Nat × Nat) :=
  cs.filterMap (fun x => match x.2 with | .event (s + 1) => some (x.1, s + 1) | _ => none)

/-- A row of the rectangle after a step. -/
def stepRow (row : TileRow) (c : RowClass) (q : Rect) (a b : Operand) (r step : Nat) : TileRow :=
  let y := row.reclass c
  mkRow y.e (fun j =>
    if q.col0 ≤ j ∧ j < q.col0 + q.ncols then
      addProducts (y.at j) y.e ((List.range 32).map (fun k => (mulVal (a.elem r step k) (b.elem (j - q.col0) step k)).1))
    else y.at j)

/-- One step: the tile after it, or the rows that stop it (R152, R156). -/
def Tile.step (t : Tile) (q : Rect) (a b : Operand) (trap : Bool) (seq slot step : Nat) : Except (List (Nat × Nat)) Tile :=
  let eb := stepEb b q.ncols step
  let cs := (List.range q.nrows).map (fun r => (q.row0 + r,
    classify (t.row (q.row0 + r)) (rowT a eb r step) (stepLam a b q.ncols r step)))
  if trap ∧ trapRows cs ≠ [] then .error (trapRows cs)
  else
    let rows := (List.range 128).map (fun i =>
      match cs.find? (fun x => x.1 == i) with
      | some x => stepRow (t.row i) x.2 q a b (i - q.row0) step
      | none => t.row i)
    let ev := eventRows cs
    let t1 := { t with rows := rows, steps := t.steps + 1 }.event ev.length
    .ok (if ev.isEmpty then t1 else t1.pushLog (logOf seq slot step ev))

/-- Steps from `step` on; a trap answers the rows, the step and the tile with the earlier steps applied. -/
def Tile.runSteps (q : Rect) (a b : Operand) (trap : Bool) (seq slot : Nat) :
    Nat → Nat → Tile → Tile × Option (List (Nat × Nat) × Nat)
  | 0, _, t => (t, none)
  | n + 1, step, t =>
    match t.step q a b trap seq slot step with
    | .error rs => (t, some (rs, step))
    | .ok t1 => Tile.runSteps q a b trap seq slot n (step + 1) t1

/-! ### Parameter checks (14 R304 to R312) -/

/-- The bits of the rectangle word: all fields, or the tile alone. -/
def rectBits (w : Word) (uses : Bool) : List (Option Nat) :=
  [reservedBit w (if uses then 0x0000007F7F7F7F07#64 else 7#64),
   outside (uses && decide (127 < field w 8 7 + field w 16 7)) 16,
   outside (uses && decide (127 < field w 24 7 + field w 32 7)) 32]

/-- The lowest set bit below a power of two. -/
def misaligned (v : Word) (lo n : Nat) : Option Nat :=
  match lowBit (BitVec.ofNat 64 (field v lo n)) with
  | some k => some (lo + k)
  | none => none

def mat0 (c : Cmd) (uses : Bool) : Option Trap := fieldTrap 344 0 (c.reg 0) (rectBits (c.reg 0) uses)

/-- An address of MSAVE, MLOAD or MHDR: a multiple of 64 in an admitted window. -/
def imageAddr (c : Cmd) (global : Bool) : Option Trap :=
  let a := c.reg 1
  let ok := window a = .localW ∨ (global = true ∧ window a = .global)
  fieldTrap 344 1 a [misaligned a 0 6, outside (!decide ok) (windowBit a)]

/-- Field checks of a pass (R306). -/
def passFields (c : Cmd) (t : Nat) : Option Trap :=
  let plane (v : Word) : List (Option Nat) :=
    [reservedBit v 0x003FFFFF003FFFFF#64, misaligned v 0 4,
     if t ≥ 5 then misaligned v 32 22 else if t = 3 then misaligned v 32 1 else none]
  let k := field (c.reg 3) 32 16
  let least := 16 * k * opW2 t
  let pitch (lo : Nat) : List (Option Nat) :=
    [misaligned (c.reg 3) lo 4, outside (decide (field (c.reg 3) lo 16 < least)) lo]
  firstField [mat0 c true, fieldTrap 344 1 (c.reg 1) (plane (c.reg 1)), fieldTrap 344 2 (c.reg 2) (plane (c.reg 2)),
    fieldTrap 344 3 (c.reg 3) ([reservedBit (c.reg 3) 0x0000FFFFFFFFFFFF#64, outside (decide (k < 1 ∨ 2048 < k)) 32] ++
      pitch 0 ++ pitch 16)]

/-- The lowest byte of a list of ranges (start, length) at or above a limit. -/
def lowestBeyond (limit : Nat) (l : List (Nat × Nat)) : Option Nat :=
  lowest (fun _ => true) (l.filterMap (fun x => if x.2 ≠ 0 ∧ limit < x.1 + x.2 then some (Nat.max x.1 limit) else none))

/-- 5.3.1. -/
def beyondTrap (f : Frame) (l : List (Nat × Nat)) : Option Trap :=
  match lowestBeyond (f.hdr.kscr * 4096) l with
  | some o => some ⟨345, 0, BitVec.ofNat 64 o, BitVec.ofNat 64 (f.hdr.kscr * 4096), 0⟩
  | none => none

/-- The byte ranges of an operand: element rows, then scales. -/
def operandRanges (v : Word) (n pitch k t : Nat) : List (Nat × Nat) :=
  (List.range n).map (fun r => (field v 0 22 + r * pitch, 16 * k * opW2 t)) ++ [(field v 32 22, n * k * opSpb t)]

/-- The lowest byte of ranges of the own window whose data has an uncorrectable or CRC error. -/
def State.scrBad (s : State) (f : Frame) (l : List (Nat × Nat)) : Option (Nat × Bool) :=
  let hits := s.bad.filterMap (fun b =>
    if b.hbm = false ∧ b.cl = f.cl ∧ b.rgn = f.rgn ∧ b.knum = f.knum then
      match lowest (fun _ => true) (l.filterMap (fun x =>
          let lo := Nat.max x.1 (64 * b.line)
          if lo < Nat.min (x.1 + x.2) (64 * b.line + 64) then some lo else none)) with
      | some o => some (o, b.crc)
      | none => none
    else none)
  match lowest (fun _ => true) (hits.map (fun x => x.1)) with
  | some o => hits.find? (fun x => x.1 == o)
  | none => none

/-- The address of an offset of the local window (04 R69). -/
def localAddr (o : Nat) : Word := BitVec.ofNat 64 (0x40 * 2 ^ 56 + o)

/-- A machine fault in operand data (14 R303, R312). -/
def scrTrap (src : Nat) (x : Nat × Bool) : Trap :=
  engFault 7 src (if x.2 then 1 else 0) 0 false 0 (localAddr x.1) (if x.2 then 1 else 0)

/-! ### Passes (R307, R308) -/

/-- A frame's tile replaced. -/
def State.setTile (s : State) (cmd : Cmd) (k : Nat) (t : Tile) : State :=
  s.modFrame cmd.cl cmd.rgn cmd.knum (fun f => { f with tiles := f.tiles.set k t })

/-- An operand in the scratchpad window. -/
def scrOperand (f : Frame) (t k : Nat) (v : Word) (pitch : Nat) : Operand :=
  { t := t, ksteps := k,
    rowBytes := fun r => memRead f.scr (field v 0 22 + r * pitch) (16 * k * opW2 t),
    scaleAt := fun r step => fromLE (memRead f.scr (field v 32 22 + (r * k + step) * opSpb t) (opSpb t)) }

/-- The hold as read by a pass: element rows, then scales. -/
def holdBytes (f : Frame) (t k n : Nat) (v : Word) (pitch : Nat) : List Byte :=
  (List.range n).flatMap (fun r => memRead f.scr (field v 0 22 + r * pitch) (16 * k * opW2 t)) ++
    memRead f.scr (field v 32 22) (n * k * opSpb t)

/-- The B operand held in the buffer. -/
def holdOperand (h : List Byte) (t k n : Nat) : Operand :=
  let rb := 16 * k * opW2 t
  { t := t, ksteps := k, rowBytes := fun r => (h.drop (r * rb)).take rb,
    scaleAt := fun r step => fromLE ((h.drop (n * rb + (r * k + step) * opSpb t)).take (opSpb t)) }

/-- TRAPMODE (R152; 22 R407). -/
def trapMode (t : Tile) (r : Region) : Bool := t.trapm || field r.modes 8 2 == 2

/-- Bit set of rows from `lo` up. -/
def rowBits (rs : List (Nat × Nat)) (lo : Nat) : Word :=
  rs.foldl (fun w x => if lo ≤ x.1 ∧ x.1 < lo + 64 then setBit w (x.1 - lo) true else w) 0

/-- The record of a pass that trap mode stops (R156). The largest s has 8 bits: of one above 255 the low byte is given (DESIGN
CHOICE, log 56). -/
def passTrap (tile : Nat) (x : List (Nat × Nat) × Nat) : Trap :=
  let smax := x.1.foldl (fun m y => Nat.max m y.2) 0
  ⟨216, 0, BitVec.ofNat 64 (tile + smax % 256 * 2 ^ 24 + x.2 * 2 ^ 32), rowBits x.1 0, rowBits x.1 64⟩

/-- MPASS and MPASSH, started (R307). With a matching tag the pass uses the held values or, where a byte of those rows
has changed since they were read, the current ones: a free choice (R308; log 3). -/
def State.passRun (s : State) (f : Frame) (r : Region) (cmd : Cmd) (t : Nat) (reuse : Bool) : EngOut :=
  let q := rectOf (cmd.reg 0)
  let k := field (cmd.reg 3) 32 16
  let ap := field (cmd.reg 3) 0 16
  let bp := field (cmd.reg 3) 16 16
  let bsize := q.ncols * 16 * k * opW2 t
  let ra := operandRanges (cmd.reg 1) q.nrows ap k t
  let rb := operandRanges (cmd.reg 2) q.ncols bp k t
  let bad : Option Trap :=
    firstField [passFields cmd t,
      if 131072 < bsize then some ⟨347, 0, BitVec.ofNat 64 bsize, 131072, 0⟩ else none, beyondTrap f (ra ++ rb)]
  match bad with
  | some tr => EngOut.refuse s tr 20
  | none =>
    let tag := [f.rgn, f.knum, t, field (cmd.reg 2) 0 22, field (cmd.reg 2) 32 22, bp, k, q.ncols]
    let hit := reuse && (s.clu f.cl).holdTag == some tag
    let cur := holdBytes f t k q.ncols (cmd.reg 2) bp
    let held := (s.clu f.cl).hold
    let useHeld := hit && (cur == held || !bitOf s.freeVal 0)
    match s.scrBad f (if useHeld then ra else ra ++ rb) with
    | some x => EngOut.refuse s (scrTrap 3 x) 20
    | none =>
      let h := if useHeld then held else cur
      let s1 := if hit then s.useFree else s.modClu f.cl (fun c => { c with holdTag := some tag, hold := h })
      let tile := nth f.tiles q.tile Tile.clear
      let out := Tile.runSteps q (scrOperand f t k (cmd.reg 1) ap) (holdOperand h t k q.ncols) (trapMode tile r) cmd.seq.toNat
        cmd.slot k 0 tile
      let hb := q.ncols * (16 * k * opW2 t + k * opSpb t)
      { s := s1.setTile cmd q.tile out.1, out := [], val := none,
        err := (match out.2 with | some x => some (passTrap q.tile x) | none => none),
        pulses := 20 + k * (8 * opW2 t) + (if hit then 0 else (hb + 2047) / 2048) }

/-! ### Tile commands (07 R150, R159) -/

/-- MCLR: TRAPM stays. -/
def State.mclrRun (s : State) (f : Frame) (cmd : Cmd) : EngOut :=
  match mat0 cmd false with
  | some tr => EngOut.refuse s tr 4
  | none =>
    let k := field (cmd.reg 0) 0 3
    EngOut.done (s.setTile cmd k { Tile.clear with trapm := (nth f.tiles k Tile.clear).trapm }) 4

/-- MMODE. -/
def State.mmodeRun (s : State) (f : Frame) (cmd : Cmd) : EngOut :=
  match firstField [mat0 cmd false, fieldTrap 344 1 (cmd.reg 1) [reservedBit (cmd.reg 1) 1]] with
  | some tr => EngOut.refuse s tr 4
  | none =>
    let k := field (cmd.reg 0) 0 3
    EngOut.done (s.setTile cmd k { nth f.tiles k Tile.clear with trapm := bitOf (cmd.reg 1) 0 }) 4

/-- A row after compaction (R159). -/
def TileRow.compact (r : TileRow) (cmax : Nat) : TileRow :=
  let l : Int := r.len
  let c0 := if 46 - l < r.e + 32768 then 46 - l else r.e + 32768
  let c := if 0 < cmax ∧ (cmax : Int) < c0 then (cmax : Int) else c0
  if 1 ≤ l ∧ 0 < c then r.mapM (r.e - c) (fun m => m * (2 ^ c.toNat : Nat)) else r

/-- MRNM on a rectangle's rows (R159). -/
def Tile.renorm (t : Tile) (q : Rect) (shiftForm : Bool) (amt seq slot : Nat) : Tile :=
  let inRows (i : Nat) : Bool := decide (q.row0 ≤ i ∧ i < q.row0 + q.nrows)
  if shiftForm then
    let sOf (i : Nat) : Nat := Nat.min amt (32767 - (t.row i).e).toNat
    let rows := (List.range 128).map (fun i => if inRows i then (t.row i).shift (sOf i) else t.row i)
    ({ t with rows := rows }.event q.nrows).pushLog
      (logOf seq slot 0xFFFFFFFF ((List.range q.nrows).map (fun r => (q.row0 + r, sOf (q.row0 + r)))))
  else { t with rows := (List.range 128).map (fun i => if inRows i then (t.row i).compact amt else t.row i) }

/-- MRNM. -/
def State.mrnmRun (s : State) (f : Frame) (cmd : Cmd) : EngOut :=
  let q := rectOf (cmd.reg 0)
  let w := cmd.reg 1
  let amt := field w 8 6
  let sh := bitOf w 0
  match firstField [mat0 cmd true,
      fieldTrap 344 1 w [reservedBit w 0x3F01#64, outside (if sh then decide (amt < 1 ∨ 47 < amt) else decide (46 < amt)) 8]] with
  | some tr => EngOut.refuse s tr (4 + q.nrows)
  | none =>
    EngOut.done (s.setTile cmd q.tile ((nth f.tiles q.tile Tile.clear).renorm q sh amt cmd.seq.toNat cmd.slot)) (4 + q.nrows)

/-! ### The image (07 R162, R163; 14 R309) -/

def spCode : Special → Nat
  | .finite => 0
  | .posInf => 1
  | .negInf => 2
  | .nan => 3

def spOf : Nat → Special
  | 0 => .finite
  | 1 => .posInf
  | 2 => .negInf
  | _ => .nan

/-- SMAX and SMIN are one byte each: of a shift above 255 the low byte is recorded (DESIGN CHOICE, log 56). -/
def LogEntry.bytes (e : LogEntry) : List Byte :=
  leBytes 2 e.seq ++ leBytes 2 e.slot ++ leBytes 4 e.step ++ leBytes 1 e.firstRow ++ leBytes 1 e.nRows ++ leBytes 1 e.sMax ++
    leBytes 1 e.sMin ++ leBytes 4 0

/-- Bytes 0x000 to 0x33F. -/
def Tile.head (t : Tile) : List Byte :=
  leBytes 4 1 ++ leBytes 1 (if t.trapm then 1 else 0) ++ leBytes 1 t.logn ++ leBytes 1 t.loghead ++ leBytes 1 t.dflags.toNat ++
    leBytes 4 t.evcnt ++ leBytes 4 t.loglost ++ leBytes 8 t.steps.toNat ++ leBytes 2 t.spcnt ++ leBytes 38 0 ++
    t.log.flatMap LogEntry.bytes ++
    t.rows.flatMap (fun r => leBytes 4 ((r.e % 65536).toNat + (47 - r.len) * 65536))

/-- The special codes of a row, 32 bytes. -/
def TileRow.spBytes (r : TileRow) : List Byte :=
  leBytes 32 (r.elems.foldl (fun n x => n + spCode x.2.sp * 4 ^ x.1) 0)

def TileRow.mBytes (r : TileRow) : List Byte :=
  (List.range 128).flatMap (fun j => leBytes 6 ((r.at j).m % (2 ^ 48 : Int)).toNat)

/-- The whole image. -/
def Tile.image (t : Tile) : List Byte := t.head ++ t.rows.flatMap TileRow.spBytes ++ t.rows.flatMap TileRow.mBytes

/-- Number at an offset of an image. -/
def imgNum (b : List Byte) (off n : Nat) : Nat := fromLE ((b.drop off).take n)

/-- The first zero field of an image that is not zero, in ascending offset (R162, R163). -/
def imageZeros (b : List Byte) : Option Nat :=
  if imgNum b 4 1 / 2 ≠ 0 then some 4
  else
    if (List.range 38).any (fun k => imgNum b (0x1A + k) 1 ≠ 0) then some 0x1A
    else
      match (List.range 16).findSome? (fun k =>
          if imgNum b (0x42 + 16 * k) 2 / 512 ≠ 0 then some (0x42 + 16 * k)
          else if imgNum b (0x4C + 16 * k) 4 ≠ 0 then some (0x4C + 16 * k) else none) with
      | some o => some o
      | none =>
        match (List.range 128).find? (fun i => imgNum b (0x140 + 4 * i) 4 / 2 ^ 22 ≠ 0) with
        | some i => some (0x140 + 4 * i)
        | none => none

/-- The elements of row i of an image. -/
def imageRow (b : List Byte) (i : Nat) : List (Nat × TElem) :=
  let sp := imgNum b (0x340 + 32 * i) 32
  let ms := (b.drop (0x1340 + 768 * i)).take 768
  (List.range 128).map (fun j => (j, { m := sextNat 48 (fromLE ((ms.drop (6 * j)).take 6)), sp := spOf (sp / 4 ^ j % 4) }))

/-- The offset of the first failing field, in the order of R163. -/
def imageBad (b : List Byte) : Option Nat :=
  if imgNum b 0 4 ≠ 1 then some 0
  else match imageZeros b with
  | some o => some o
  | none =>
    if 16 < imgNum b 5 1 then some 5
    else if 15 < imgNum b 6 1 then some 6
    else
      let els := (List.range 128).map (fun i => (i, imageRow b i))
      let find (p : TElem → Bool) : Option Nat :=
        els.findSome? (fun x => x.2.findSome? (fun y => if p y.2 then some (0x1340 + 6 * (128 * x.1 + y.1)) else none))
      match find (fun x => decide (x.sp = .finite ∧ x.m = -(2 ^ 47 : Int))) with
      | some o => some o
      | none =>
        match find (fun x => decide (x.sp ≠ .finite ∧ x.m ≠ 0)) with
        | some o => some o
        | none =>
          let n := els.foldl (fun n x => n + (x.2.filter (fun y => y.2.sp != .finite)).length) 0
          if imgNum b 0x18 2 ≠ n then some 0x18 else none

/-- The tile that an image holds. The bits of DFLAGS that are always zero stay zero (R161; DESIGN CHOICE, log 57: R163 does not
refuse an image that sets them). -/
def tileOf (b : List Byte) : Tile :=
  { rows := (List.range 128).map (fun i =>
      let els := imageRow b i
      mkRow (sextNat 16 (imgNum b (0x140 + 4 * i) 2)) (fun j => (nth els j (j, { m := 0, sp := .finite })).2)),
    trapm := decide (imgNum b 4 1 % 2 = 1), evcnt := imgNum b 8 4,
    log := (List.range 16).map (fun k =>
      let o := 0x40 + 16 * k
      { seq := imgNum b o 2, slot := imgNum b (o + 2) 2, step := imgNum b (o + 4) 4, firstRow := imgNum b (o + 8) 1,
        nRows := imgNum b (o + 9) 1, sMax := imgNum b (o + 10) 1, sMin := imgNum b (o + 11) 1 }),
    logn := imgNum b 5 1, loghead := imgNum b 6 1, loglost := imgNum b 12 4, steps := BitVec.ofNat 64 (imgNum b 16 8),
    dflags := BitVec.ofNat 8 (imgNum b 7 1) &&& 0x5D#8 }

/-- Places of n bytes from an address up, one page check for each byte; the first failure ends them. -/
def State.engSpan (s : State) (f : Frame) (r : Region) (ea : Word) (kind : Nat) :
    Nat → Nat → List Place × Option (Nat × Nat × Word)
  | 0, _ => ([], none)
  | n + 1, k =>
    match s.engPlace f r (ea + BitVec.ofNat 64 k) kind with
    | .error (kd, i3) => ([], some (k, kd, i3))
    | .ok p =>
      let y := s.engSpan f r ea kind n (k + 1)
      (p :: y.1, y.2)

/-- The range of an image in the own window, if it lies there. -/
def imageRange (c : Cmd) (n : Nat) : List (Nat × Nat) := if window (c.reg 1) = .localW then [(field (c.reg 1) 0 22, n)] else []

/-- i3 of a 2.s.4: the address of the access's last byte (04 R70). -/
def spanI3 (ea : Word) (n kd : Nat) (i3 : Word) : Word := if kd = 4 then ea + BitVec.ofNat 64 (n - 1) else i3

/-- MSAVE: the image in ascending offset; a fault part-way leaves the bytes below it written (R309). -/
def State.msaveRun (s : State) (f : Frame) (r : Region) (cmd : Cmd) : EngOut :=
  match firstField [mat0 cmd false, imageAddr cmd true, beyondTrap f (imageRange cmd 103232)] with
  | some tr => EngOut.refuse s tr 59
  | none =>
    let ps := s.engSpan f r (cmd.reg 1) 1 103232 0
    let img := (nth f.tiles (field (cmd.reg 0) 0 3) Tile.clear).image
    { s := s, out := groupLines (ps.1.zip img) [], val := none, pulses := 59,
      err := (match ps.2 with
        | some (k, kd, i3) =>
          some (engFault 2 3 kd 1 true k (cmd.reg 1 + BitVec.ofNat 64 k) (spanI3 (cmd.reg 1) 103232 kd i3))
        | none => none) }

/-- The first place of a list with an uncorrectable or CRC error. -/
def State.firstBad (s : State) (f : Frame) : List Place → Nat → Option (Nat × Bool)
  | [], _ => none
  | p :: r, k =>
    match s.badAt f.rgn f.knum p with
    | some crc => some (k, crc)
    | none => s.firstBad f r (k + 1)

/-- What an MLOAD reads, in pieces of a line (05 R105). -/
def State.mloadReads (s : State) (f : Frame) (r : Region) (cmd : Cmd) : List (Place × Nat) :=
  match cmd.instr with
  | .mload .. =>
    if (firstField [mat0 cmd false, imageAddr cmd true, beyondTrap f (imageRange cmd 103232)]).isSome then []
    else pieceLines (s.engSpan f r (cmd.reg 1) 0 103232 0).1 []
  | _ => []

/-- MLOAD: the whole image is read, then checked; only then does the tile change (R309). `v` is the state whose memory it reads. -/
def State.mloadRun (s v : State) (f : Frame) (r : Region) (cmd : Cmd) : EngOut :=
  match firstField [mat0 cmd false, imageAddr cmd true, beyondTrap f (imageRange cmd 103232)] with
  | some tr => EngOut.refuse s tr 59
  | none =>
    let ps := s.engSpan f r (cmd.reg 1) 0 103232 0
    match s.firstBad f ps.1 0, ps.2 with
    | some (k, crc), _ =>
      EngOut.refuse s (engFault 7 3 (if crc then 1 else 0) 0 false 0 (cmd.reg 1 + BitVec.ofNat 64 k) (if crc then 1 else 0)) 59
    | none, some (k, kd, i3) =>
      EngOut.refuse s (engFault 2 3 kd 0 false 0 (cmd.reg 1 + BitVec.ofNat 64 k) (spanI3 (cmd.reg 1) 103232 kd i3)) 59
    | none, none =>
      let b := ps.1.map (fun p => v.readByte f.rgn f.knum p)
      match imageBad b with
      | some o => EngOut.refuse s ⟨346, 0, BitVec.ofNat 64 o, 0, 0⟩ 59
      | none => EngOut.done (s.setTile cmd (field (cmd.reg 0) 0 3) (tileOf b)) 59

/-- Bytes for the own window from an offset up, line by line. -/
def localLines (cl off : Nat) (bs : List Byte) : List (Place × List (Nat × Byte)) :=
  groupLines ((offBytes off bs).map (fun x => (.scratch cl x.1 false, x.2))) []

/-- MHDR: the first 832 bytes to the own window (R309). -/
def State.mhdrRun (s : State) (f : Frame) (cmd : Cmd) : EngOut :=
  match firstField [mat0 cmd false, imageAddr cmd false, beyondTrap f (imageRange cmd 832)] with
  | some tr => EngOut.refuse s tr 9
  | none =>
    { EngOut.done s 9 with
      out := localLines f.cl (field (cmd.reg 1) 0 22) (nth f.tiles (field (cmd.reg 0) 0 3) Tile.clear).head }

/-- MSTAT (R311). -/
def State.mstatRun (s : State) (f : Frame) (cmd : Cmd) : EngOut :=
  match mat0 cmd false with
  | some tr => EngOut.refuse s tr 2
  | none =>
    let t := nth f.tiles (field (cmd.reg 0) 0 3) Tile.clear
    { EngOut.done s 2 with
      val := some (BitVec.ofNat 64 (t.evcnt + t.spcnt * 2 ^ 32 + t.logn * 2 ^ 47 + (if t.trapm then 2 ^ 52 else 0) + t.dflags.toNat * 2 ^ 56)) }

/-! ### Drain (07 R160, R161; 14 R310) -/

/-- Destination format of a drain: FP32, BF16, FP16. -/
def drainFmt (k : Nat) : Fmt := if k = 0 then fp32 else if k = 1 then bf16 else fp16

/-- One element drained: its code and the flags of R161. Of what R161 leaves unsaid the model fixes two points (DESIGN CHOICE, log
58): an S32 saturation sets NV and not NX, and a drained infinity sets SP alone, also where SAT writes the largest value. -/
def drainElem (x : TElem) (e : Int) (fmt : Nat) (rm : Rm) (sat : Bool) : Nat × BitVec 8 :=
  let v : Val := match x.sp with
    | .posInf => .inf false
    | .negInf => .inf true
    | .nan => .nan false
    | .finite => .fin (decide (x.m < 0)) x.m.natAbs e
  let sp : BitVec 8 := if x.sp = .finite then 0 else 64
  if fmt = 3 then
    let r := toInt32 rm false v
    (r.1, r.2.setWidth 8 ||| sp)
  else
    let f := drainFmt fmt
    match v with
    | .nan _ => (canonNan f, sp)
    | .inf n => (if sat then maxCode f n else infCode f n, sp)
    | .fin n m q =>
      if m = 0 then (0, 0)
      else
        let r := roundTo f rm sat false n m q false
        (r.1, r.2.setWidth 8)

/-- MDRAIN: its destination changes piece by piece, a piece being an element (R310; 05 R105, R115; log 7). -/
def State.mdrainRun (s : State) (f : Frame) (cmd : Cmd) : EngOut :=
  let q := rectOf (cmd.reg 0)
  let fmt := field (cmd.reg 2) 0 2
  let wd := if fmt = 0 ∨ fmt = 3 then 4 else 2
  let off := field (cmd.reg 1) 0 22
  let pitch := field (cmd.reg 1) 32 16
  let pulses := 8 + (q.nrows * q.ncols * wd + 2047) / 2048
  let bad : Option Trap :=
    firstField [mat0 cmd true,
      fieldTrap 344 1 (cmd.reg 1) [reservedBit (cmd.reg 1) 0x0000FFFF003FFFFF#64, misaligned (cmd.reg 1) 0 4,
        misaligned (cmd.reg 1) 32 4, outside (decide (pitch < q.ncols * wd)) 32],
      fieldTrap 344 2 (cmd.reg 2) [reservedBit (cmd.reg 2) 0x133#64],
      beyondTrap f ((List.range q.nrows).map (fun r => (off + r * pitch, q.ncols * wd)))]
  match bad with
  | some tr => EngOut.refuse s tr pulses
  | none =>
    let t := nth f.tiles q.tile Tile.clear
    let xs := (List.range q.nrows).flatMap (fun r => (List.range q.ncols).map (fun c =>
      let row := t.row (q.row0 + r)
      (off + r * pitch + c * wd, drainElem (row.at (q.col0 + c)) row.e fmt (rmOf (field (cmd.reg 2) 4 2)) (bitOf (cmd.reg 2) 8))))
    let fl := xs.foldl (fun a x => a ||| x.2.2) 0
    { EngOut.done (s.setTile cmd q.tile { t with dflags := t.dflags ||| fl }) pulses with
      out := xs.flatMap (fun x => localLines f.cl x.1 (leBytes wd x.2.1)) }

/-- A started matrix command; `v` is the state whose memory it reads. -/
def State.matrixRun (s v : State) (f : Frame) (r : Region) (cmd : Cmd) : EngOut :=
  match cmd.instr with
  | .mclr .. => s.mclrRun f cmd
  | .mmode .. => s.mmodeRun f cmd
  | .mrnm .. => s.mrnmRun f cmd
  | .msave .. => s.msaveRun f r cmd
  | .mload .. => s.mloadRun v f r cmd
  | .mhdr .. => s.mhdrRun f cmd
  | .mstat .. => s.mstatRun f cmd
  | .mdrain .. => s.mdrainRun f cmd
  | .mpass _ _ _ t => s.passRun f r cmd t.toNat false
  | .mpassh _ _ _ t => s.passRun f r cmd t.toNat true
  | _ => EngOut.done s 1

/-! ### Issue (14 R302, R305) -/

/-- MCLR is issued. -/
def execMclr (b : BitVec 3) (e : BitVec 8) (i : BitVec 2) (s : State) : Host.Outcome State Fault Refusal :=
  issueI (.mclr b e i) s (engEff (.mclr b e i) .matrix b [0] false)

/-- MMODE is issued. -/
def execMmode (b : BitVec 3) (e : BitVec 8) (i : BitVec 2) (s : State) : Host.Outcome State Fault Refusal :=
  issueI (.mmode b e i) s (engEff (.mmode b e i) .matrix b [0, 1] false)

/-- MRNM is issued. -/
def execMrnm (b : BitVec 3) (e : BitVec 8) (i : BitVec 2) (s : State) : Host.Outcome State Fault Refusal :=
  issueI (.mrnm b e i) s (engEff (.mrnm b e i) .matrix b [0, 1] false)

/-- MSAVE is issued. -/
def execMsave (b : BitVec 3) (e : BitVec 8) (i : BitVec 2) (s : State) : Host.Outcome State Fault Refusal :=
  issueI (.msave b e i) s (engEff (.msave b e i) .matrix b [0, 1] false)

/-- MLOAD is issued. -/
def execMload (b : BitVec 3) (e : BitVec 8) (i : BitVec 2) (s : State) : Host.Outcome State Fault Refusal :=
  issueI (.mload b e i) s (engEff (.mload b e i) .matrix b [0, 1] false)

/-- MHDR is issued. -/
def execMhdr (b : BitVec 3) (e : BitVec 8) (i : BitVec 2) (s : State) : Host.Outcome State Fault Refusal :=
  issueI (.mhdr b e i) s (engEff (.mhdr b e i) .matrix b [0, 1] false)

/-- MSTAT is issued: its base register becomes pending. -/
def execMstat (b : BitVec 3) (s : State) : Host.Outcome State Fault Refusal :=
  issueI (.mstat b) s (engEff (.mstat b) .matrix b [0] true)

/-- MDRAIN is issued. -/
def execMdrain (b : BitVec 3) (e : BitVec 8) (i : BitVec 2) (s : State) : Host.Outcome State Fault Refusal :=
  issueI (.mdrain b e i) s (engEff (.mdrain b e i) .matrix b [0, 1, 2] false)

/-- MPASS is issued. -/
def execMpass (b : BitVec 3) (e : BitVec 8) (i : BitVec 2) (t : BitVec 3) (s : State) : Host.Outcome State Fault Refusal :=
  issueI (.mpass b e i t) s (engEff (.mpass b e i t) .matrix b [0, 1, 2, 3] false)

/-- MPASSH is issued. -/
def execMpassh (b : BitVec 3) (e : BitVec 8) (i : BitVec 2) (t : BitVec 3) (s : State) : Host.Outcome State Fault Refusal :=
  issueI (.mpassh b e i t) s (engEff (.mpassh b e i t) .matrix b [0, 1, 2, 3] false)

end Sys2Proof.Machine
end

