-- ==== Sys2Proof/Machine/Commands.lean ====
section
/-! DEFINITION. COMMAND_START: a port's arbiter starts the command that it chooses (03 R62, R63; 05 R113; 14 R302). -/

namespace Sys2Proof.Machine

/-- The chosen command of a port may start: its engine is free, the accesses that R113 orders before it have performed, and
no cluster that it must reach is away (02 R45). A chosen command that cannot start yet holds its port against the other candidates
(DESIGN CHOICE, log 52: R62 says which candidate is chosen and not whether another may pass it; the fabric port passes over a remote
operation that 12 R266 holds). -/
def State.startable (s : State) (cl : Nat) (p : Port) : Option Cmd :=
  match s.chosen cl p with
  | none => none
  | some c =>
    if !s.idle cl p || !s.doneAll c.waits then none
    else match p with
      | .vector => if s.vecBlocked c then none else some c
      | .copy =>
        match s.frame? cl c.rgn c.knum with
        | some f => if s.copyBlocked f c then none else some c
        | none => some c
      | _ => some c

/-- The effect of a command of the matrix, copy or batcher port; `v` is the state whose memory it reads. -/
def State.runEngine (s v : State) (f : Frame) (r : Region) (c : Cmd) : State :=
  match c.port with
  | .matrix => State.endEngine (s.matrixRun v f r c) c []
  | .copy => let x := s.copyRun v f r c; State.endEngine x.1 c x.2
  | _ => State.endEngine (s.batcherRun f c) c []

/-- What a command reads before its effect, in pieces, and at its start (05 R105; 14 R311, R316). -/
def State.engineReads (s : State) (f : Frame) (r : Region) (c : Cmd) : List (Place × Nat) × List (Place × List Byte) :=
  match c.port with
  | .matrix => (s.mloadReads f r c, [])
  | .copy => s.copyReads f r c
  | _ => ([], [])

/-- A started engine command of the matrix, copy or batcher port: one that reads memory has its effect once it has read. -/
def State.startEngine (s : State) (c : Cmd) : State :=
  match s.frame? c.cl c.rgn c.knum, s.region? c.rgn with
  | some f, some r =>
    let s1 := s.takeCmd c
    match s1.engineReads f r c with
    | ([], _) => s1.runEngine s1 f r c
    | (p :: ps, got) => s1.startReading c 1 (p :: ps) got
  | _, _ => s.takeCmd c

/-- The started command of a port goes on when every piece of its reads has performed (05 R105; 13 R283; log 7). -/
def State.goOnReading (s : State) (cl : Nat) (p : Port) : State :=
  match s.reading? cl p with
  | none => s
  | some (a, c, got) =>
    if !s.goneAll a.after then s
    else
      let s1 := s.dropAct a.id
      let v := s1.withRead c.rgn c.knum got
      let c1 : Cmd := { c with slot := a.slot }
      if p = .vector then s1.runVector v c1 0
      else match v.frame? cl c.rgn c.knum, s.region? c.rgn with
        | some f, some r => s1.runEngine v f r c1
        | _, _ => s1

/-- COMMAND_START: the port's arbiter starts the command that it chooses, or the port's started command goes on after its reads. -/
def execCommandStart (cl : Nat) (port : Port) (s : State) : Host.Outcome State Fault Refusal :=
  match port with
  | .fabric => .next (s.startFabric cl)
  | _ =>
    match s.startable cl port with
    | none => .next (s.goOnReading cl port)
    | some c => .next (if port = .vector then s.startVector c else s.startEngine c)

end Sys2Proof.Machine
end

