-- ==== Sys2Proof/Machine/FabricTarget.lean ====
section
/-! DEFINITION. The endpoint as a target: inbound packets, their checks and performance, the ordered flag, held packets and
answers; and the switch's forwarding (12 R268, R269; 23 R417 to R430; 04 R93). -/

namespace Sys2Proof.Machine

/-! ### Packets that are accepted (R417, R421, R424; log 25) -/

/-- The opcodes that count as writes (R266). -/
def pktWrite (p : Packet) : Bool := p.opc == 0 || p.opc == 2 || p.opc == 3 || p.opc == 6
def pktOf (p : Packet) : Bool := bitOf p.flags 0
def pktStart (p : Packet) : Bool := bitOf p.flags 1

/-- Bytes of an operation's operand. -/
def pktOpSize (p : Packet) : Nat := if p.opc = 2 then (if bitOf p.arg 4 then 8 else 4) else if p.opc = 6 then 64 else 2 ^ (p.arg.toNat % 4)

/-- Bytes of a packet's payload. -/
def pktPayloadSize (p : Packet) : Nat :=
  match p.opc.toNat with
  | 0 => pktOpSize p
  | 2 => if p.arg.toNat % 16 = 9 then 2 * pktOpSize p else pktOpSize p
  | 3 => 8
  | 4 => 41
  | 6 => 72
  | _ => 0

/-- The parts of a packet lie inside the tables of R424 and R421. -/
def pktInTable (p : Packet) : Bool :=
  p.mode == 0 && [0, 1, 2, 3, 4, 6].contains p.opc.toNat && field p.flags 2 6 == 0 && p.rsv == 0 && field p.stream 32 32 == 0 &&
  p.ncount.length == (if pktOf p then 16 else 0) && p.payload.length == (if p.trimmed then 0 else pktPayloadSize p) &&
  (p.opc == 3 || p.opc == 4 || field p.addr 48 16 == 0) &&
  (match p.opc.toNat with
   | 0 | 1 => decide (p.arg.toNat < 4)
   | 2 => decide (p.arg.toNat % 16 ≤ 9) && decide (p.arg.toNat < 32)
   | _ => p.arg == 0) &&
  (p.opc == 3 || p.opc == 4 || p.addr.toNat % pktOpSize p == 0)

/-- The package's IPv6 address: the fabric prefix, bits [63:15] of the interface ID and the package number (R417). -/
def State.ipv6 (s : State) : BitVec 128 := s.netId ++ s.iface ++ s.pkgid

/-- A packet's interface ID bits [63:15] are not the package's own (R417). -/
def State.foreign (s : State) (p : Packet) : Bool := p.iface != s.iface

/-- A packet that the endpoint takes up as addressed to the package. -/
def State.addressed (s : State) (p : Packet) : Bool := p.target == s.pkgid && !s.foreign p

/-! ### Answers (R268, R272, R421) -/

/-- The remote operation of this package that a packet of its own carries. -/
def State.ownRemote (s : State) (p : Packet) : Option (Act × Remote) :=
  (s.acts.filterMap (fun a => match a.job with | .remote r => some (a, r) | _ => none)).find? (fun x =>
    x.2.sent && x.2.answered.isNone && x.2.seq == p.seq && x.2.target == p.target.toNat && x.2.opc == p.opc.toNat && x.2.psn == p.psn &&
      x.1.cl == field p.stream 15 8 && x.1.slot % 512 == field p.stream 23 9 && x.2.fkey == p.fkey)

/-- An answer goes to the source, with the packet's CE mark: kind 0 acknowledgement, 1 data `v`, 2 rejection of kind `v` with i3
`w`, 3 RETRY, 4 NACK. A mark lowers the window of the source's stream (R422). -/
def State.respond (s : State) (p : Packet) (kind : Nat) (v w : Word) : State :=
  if field p.stream 0 15 = s.pkgid.toNat then
    match s.ownRemote p with
    | none => s
    | some (a, r) =>
      let s1 := if p.ce && kind != 4 then s.cutWindow a r else s
      if kind ≤ 2 then s1.answered a r kind v w
      else if kind = 3 then (if r.resend then s1 else s1.retried a r)
      else s1.nacked a r
  else { s with hostOut := s.hostOut ++ [.answer p.stream p.seq kind v w p.ce] }

/-- The source package and PDS number by which a packet is known (R421). -/
def pktSource (p : Packet) : BitVec 15 := BitVec.ofNat 15 (field p.stream 0 15)
def pktSame (p : Packet) (x : Seen) : Bool := x.src == pktSource p && x.psn == p.psn

/-- Die pulses after which no duplicate of a packet can come any more: the retry budget of 8 ms and a millisecond of transport; its PDS
number may stand for a new packet then (R421, R427; log 18). -/
def seenFor : Nat := 9900000

/-- What the endpoint has of a packet with this PDS number: taken up and not answered, or its answer. -/
def State.seenOf (s : State) (p : Packet) : Option (Option (Nat × Word × Word)) :=
  match s.seen.find? (fun x => pktSame p x && decide (s.now < x.at_ + seenFor)) with
  | some x => some x.ans
  | none => none

/-- A packet is taken up: a later one with its PDS number is a duplicate. -/
def State.note (s : State) (p : Packet) : State :=
  { s with seen := s.seen.filter (fun x => !pktSame p x && decide (s.now < x.at_ + seenFor)) ++ [⟨pktSource p, p.psn, s.now, none⟩] }

/-- The answer to a packet that was taken up, which a duplicate gets again (R421). -/
def State.answer (s : State) (p : Packet) (kind : Nat) (v w : Word) : State :=
  ({ s with seen := s.seen.map (fun x => if pktSame p x then { x with ans := some (kind, v, w) } else x) } : State).respond p kind v w

/-! ### Stream entries (R426) -/

def State.entry? (s : State) (p : Packet) : Option StreamEntry :=
  s.entries.find? (fun e => e.stream == p.stream && e.fkey == p.fkey)

/-- A START write creates or resets its stream's entry; with a full table it creates none. -/
def State.startEntry (s : State) (p : Packet) : State :=
  if (s.entry? p).isNone && decide (16384 ≤ s.entries.length) then s
  else
    { s with entries := s.entries.filter (fun e => !(e.stream == p.stream && e.fkey == p.fkey)) ++
        [{ fkey := p.fkey, stream := p.stream, counts := List.replicate 16 0 }] }

/-- A write that is performed or rejected counts on its path, EV[3:0] (R423, R426). -/
def State.countEntry (s : State) (p : Packet) : State :=
  if pktWrite p then
    { s with entries := s.entries.map (fun e =>
        if e.stream = p.stream ∧ e.fkey = p.fkey then
          { e with counts := e.counts.set (field p.ev 0 4) (nth e.counts (field p.ev 0 4) 0 + 1) }
        else e) }
  else s

/-- A write ends: it is counted and answered. -/
def State.finish (s : State) (p : Packet) (kind : Nat) (v w : Word) : State := (s.countEntry p).answer p kind v w

/-! ### Performing (R268, R269, R425, R428, R429; 04 R93) -/

/-- The receiving region: the lowest-numbered one that holds the key in its own RCB and is not being killed (R425). -/
def State.keyRegion (s : State) (fkey : Word) : Option Region :=
  if fkey = 0 then none
  else match lowest (fun _ => true) ((s.regions.filter (fun r => r.ownFkey == fkey && !r.killing)).map (fun r => r.num)) with
    | some n => s.region? n
    | none => none

/-- A region is resident on a cluster of its set (19 R374). -/
def State.resident (s : State) (r : Region) (cl : Nat) : Bool :=
  inSet r.clset cl && !s.fencedLog.contains cl && !s.frames.any (fun f => f.cl == cl && f.rgn == r.num && f.stopped)

/-- The next landing cluster of a region in rotation whose system class has room (R93). -/
def State.landingOf (s : State) (rgn : Nat) : Option Nat :=
  let ok (c : Nat) : Bool := s.sqFree c 2 && (match s.region? rgn with | some r => s.resident r c | none => !s.fencedLog.contains c)
  let next := getK s.landing rgn 0
  match lowest (fun c => decide (next ≤ c)) ((List.range 256).filter ok) with
  | some c => some c
  | none => (List.range 256).find? ok

/-- The bytes of a write packet with their offsets in its line. -/
def pktBytes (p : Packet) (off : Nat) : List (Nat × Byte) :=
  if p.opc = 6 then
    let m : BitVec 64 := BitVec.ofNat 64 (fromLE (p.payload.take 8))
    (offBytes 0 (p.payload.drop 8)).filter (fun b => m.getLsbD b.1)
  else offBytes off p.payload

/-- The store-queue entry of a checked inbound write: of the system class (R93). -/
def inboundEntry (rgn : Nat) (pl : Place) (p : Packet) : Entry :=
  let bs := pktBytes p pl.line.2
  let x := BitVec.ofNat 64 (fromLE (p.payload.take (pktOpSize p)))
  let y := BitVec.ofNat 64 (fromLE (p.payload.drop (pktOpSize p)))
  let base : Entry :=
    { cls := 2, line := pl.line.1, mask := maskOf bs, kind := .data bs, release := pktOf p, ea := p.addr, i1 := 0, words := 0, rgn := rgn,
      knum := 0, ack := some p, mcast := [], note := none, sealed := true, queued := true }
  if p.opc = 2 then
    { base with mask := maskOf (offBytes pl.line.2 (List.replicate (pktOpSize p) 0)),
                kind := .atomic pl.line.2 (pktOpSize p) (p.arg.toNat % 16) x y 0 }
  else base

/-- Bytes that a write takes in the buffer of 4 MiB (R428; log 25). -/
def State.inbufBytes (s : State) : Nat := s.inbuf.foldl (fun n x => n + packetSize x.2.2) 0

/-- The buffer is full: the endpoint trims each arriving write to global memory (R428). -/
def State.bufferFull (s : State) (p : Packet) : Bool :=
  pktWrite p && p.opc != 3 && decide (4194304 < s.inbufBytes + packetSize p)

/-- A checked write lands, or waits for a landing cluster (R428; 04 R93). -/
def State.land (s : State) (rgn : Nat) (pl : Place) (p : Packet) : State :=
  match s.landingOf rgn with
  | some c => { s.engineEnter c 512 (inboundEntry rgn pl p) with landing := setK s.landing rgn (c + 1) }
  | none => { s with inbuf := s.inbuf ++ [(rgn, pl, p)] }

/-- RST, RLD, RATOM and pieces: translation and checks in the receiving region, then the access (R268). -/
def State.remoteAccess (s : State) (r : Region) (p : Packet) : State :=
  let kind := if p.opc = 1 then 0 else if p.opc = 2 then 2 else 1
  match s.translate r p.addr.toNat kind false with
  | .error pf => (s.walkFor 256 r p.addr.toNat).finish p 2 3 (BitVec.ofNat 64 (136 + pf.kind))
  | .ok (loc, k, pa) =>
    if p.opc = 1 then
      match s.badAt r.num 0 (.global loc k pa) with
      | some crc =>
        let s1 := s.touchAt (256 + locDie loc) r.num (.global loc k pa)
        ((if crc then s1.countCrc (locDie loc) else s1.countEcc (locDie loc)) : State).finish p 2 6 (if crc then 457 else 456)
      | none => (s.touchAt (256 + locDie loc) r.num (.global loc k pa)).finish p 1 (BitVec.ofNat 64 (fromLE (s.hbmRead k loc (pktOpSize p)))) 0
    else (s.walkedAt (256 + locDie loc) r.num (.global loc k pa)).land r.num (.global loc k pa) p

/-- RSIG to a region that its key check gave; of several refused fields the lowest code (R269, R425, R428; log 44). -/
def State.remoteSignal (s : State) (rgn : Nat) (p : Packet) : State :=
  let knum := field p.addr 32 6
  let cl := field p.addr 16 8
  let k := field p.addr 0 8
  match s.anyFrameOf rgn knum with
  | none => s.finish p 2 5 1
  | some f =>
    if !inSet f.set cl then s.finish p 2 5 2
    else if f.hdr.ksems ≤ k then s.finish p 2 5 3
    else match s.frame? cl rgn knum with
      | none => s.finish p 2 5 2
      | some g =>
        if g.stopped then { s with heldSig := s.heldSig ++ [(rgn, p)] }
        else (s.signal cl rgn knum k (fromLE p.payload)).finish p 0 0 0

/-- The refused field of an RSPAWN, 0 for none, the lowest of several: 1 kernel, 2 entry, 3 target, 4 join
(R269, R273; log 44). -/
def spawnRefusal (f : Frame) (desc : Word) : Nat :=
  if nth f.hdr.entries (field desc 9 3) 0xFFFFFFFF = 0xFFFFFFFF then 2
  else if !bitOf desc 8 && !inSet f.set (field desc 0 8) then 3
  else if bitOf desc 15 && !inSet f.set (field desc 24 8) then 4
  else 0

/-- The request of an RSPAWN for a target cluster (R269; log 25). -/
def rspawnReq (rgn target : Nat) (p : Packet) : SpawnReq :=
  let d := p.addr
  let b := p.payload
  { rgn := rgn, knum := field d 32 6, target := target, entry := field d 9 3,
    args := (List.range 4).map (fun k => BitVec.ofNat 64 (fromLE ((b.drop (8 * k)).take 8))),
    join := if bitOf d 15 then some (field d 24 8, field d 16 8) else none,
    bpri := BitVec.ofNat 3 (fromLE ((b.drop 32).take 1)), swlim := BitVec.ofNat 32 (fromLE ((b.drop 33).take 4)),
    spwlim := BitVec.ofNat 32 (fromLE ((b.drop 37).take 4)), origin := 1 }

/-- The target queue takes a request and its region is resident there (R429; 02 R45). -/
def State.spawnFits (s : State) (q : SpawnReq) : Bool :=
  match s.frame? q.target q.rgn q.knum with
  | some g => !g.stopped && s.queueTakes q
  | none => false

/-- RSPAWN: checked, resolved, and accepted or held (R429). -/
def State.remoteSpawn (s : State) (r : Region) (p : Packet) : State :=
  match s.anyFrameOf r.num (field p.addr 32 6) with
  | none => s.finish p 2 4 1
  | some f =>
    if spawnRefusal f p.addr ≠ 0 then s.finish p 2 4 (BitVec.ofNat 64 (spawnRefusal f p.addr))
    else
      let t := if bitOf p.addr 8 then s.resolveAny r.num f.knum f.set else field p.addr 0 8
      let q := rspawnReq r.num t p
      if s.spawnFits q then (s.enqueueSpawn q).finish p 0 0 0
      else if 256 ≤ s.heldSpawn.length then s.answer p 3 0 0
      else { s with heldSpawn := s.heldSpawn ++ [(q, p)] }

/-- An operation whose turn it is: the key check, then its effect (R268, R425). -/
def State.performOp (s : State) (p : Packet) : State :=
  match s.keyRegion p.fkey with
  | none => s.finish p 2 2 0
  | some r =>
    if p.opc = 3 then s.remoteSignal r.num p
    else if p.opc = 4 then s.remoteSpawn r p
    else s.remoteAccess r p

/-- A write with OF: performed at once with START, held until its stream's counts are its own, or answered RETRY (R426,
R427). -/
def State.orderedWrite (s : State) (p : Packet) : State :=
  match s.entry? p with
  | none => s.answer p 3 0 0
  | some e =>
    if e.counts = p.ncount then s.performOp p
    else if 1024 ≤ s.heldOf.length then s.answer p 3 0 0
    else { s with heldOf := s.heldOf ++ [p] }

/-- The endpoint takes up a packet of an opcode: one that arrives trimmed, or that the full buffer trims, is asked for again, and
neither creates nor resets anything (R422, R428). A duplicate is never performed: it gets the answer of the packet that it repeats,
once that has one (R421; 05 R116). -/
def State.takeUp (s : State) (p : Packet) : State :=
  if !s.addressed p || p.crcBad || !(pktInTable p) then s
  else if p.trimmed then s.respond p 4 0 0
  else match s.seenOf p with
    | some (some (k, v, w)) => s.respond p k v w
    | some none => s
    | none =>
      if s.bufferFull p then s.respond p 4 0 0
      else
        let s1 := s.note p
        if pktWrite p then
          if pktStart p then (s1.startEntry p).performOp p
          else if pktOf p then s1.orderedWrite p
          else s1.performOp p
        else s1.performOp p

/-- A packet of one opcode arrives. -/
def inbound (opc : Nat) (p : Packet) (s : State) : Host.Outcome State Fault Refusal :=
  .next (if p.opc.toNat = opc then s.takeUp p else s)

/-- INBOUND_RST (R268). -/
def execInboundRst (pkt : Packet) (s : State) : Host.Outcome State Fault Refusal := inbound 0 pkt s
/-- INBOUND_RLD (R268). -/
def execInboundRld (pkt : Packet) (s : State) : Host.Outcome State Fault Refusal := inbound 1 pkt s
/-- INBOUND_RATOM (R268). -/
def execInboundRatom (pkt : Packet) (s : State) : Host.Outcome State Fault Refusal := inbound 2 pkt s
/-- INBOUND_RSIG (R269). -/
def execInboundRsig (pkt : Packet) (s : State) : Host.Outcome State Fault Refusal := inbound 3 pkt s
/-- INBOUND_RSPAWN (R429). -/
def execInboundRspawn (pkt : Packet) (s : State) : Host.Outcome State Fault Refusal := inbound 4 pkt s
/-- INBOUND_COPY_PIECE (14 R317). -/
def execInboundCopyPiece (pkt : Packet) (s : State) : Host.Outcome State Fault Refusal := inbound 6 pkt s

/-- INBOUND_DROPPED_PACKET: a packet that fails its CRC, or lies outside the tables, is dropped and counted (R424, R430). -/
def execInboundDroppedPacket (port : Nat) (pkt : Packet) (s : State) : Host.Outcome State Fault Refusal :=
  .next (if pkt.crcBad then s.modEport port (fun e => { e with crc := satInc e.crc })
    else if s.addressed pkt && !(pktInTable pkt) then s.countDrop port
    else s)

/-! ### Held packets (R427 to R429) -/

/-- OF_HOLD_EXPIRY: a held OF write is discarded without a response (R427). -/
def execOfHoldExpiry (k : Nat) (s : State) : Host.Outcome State Fault Refusal := .next { s with heldOf := s.heldOf.eraseIdx k }

/-- RSPAWN_HOLD_EXPIRY (R427, R429). -/
def execRspawnHoldExpiry (k : Nat) (s : State) : Host.Outcome State Fault Refusal :=
  .next { s with heldSpawn := s.heldSpawn.eraseIdx k }

/-- RSIG_HOLD_EXPIRY (R427, R428). -/
def execRsigHoldExpiry (k : Nat) (s : State) : Host.Outcome State Fault Refusal := .next { s with heldSig := s.heldSig.eraseIdx k }

/-- STREAM_ENTRY_DISCARD: an entry without a held OF write goes (R426). -/
def execStreamEntryDiscard (k : Nat) (s : State) : Host.Outcome State Fault Refusal :=
  match s.entries[k]? with
  | none => .next s
  | some e =>
    if s.heldOf.any (fun p => p.stream == e.stream && p.fkey == e.fkey) then .next s
    else .next { s with entries := s.entries.eraseIdx k }

/-- A held RSIG's semaphore is reachable now, or no longer exists. -/
def State.sigFree (s : State) (x : Nat × Packet) : Bool :=
  match s.frame? (field x.2.addr 16 8) x.1 (field x.2.addr 32 6) with
  | some g => !g.stopped
  | none => true

/-- A held RSPAWN can be answered now. -/
def State.spawnFree (s : State) (x : SpawnReq × Packet) : Bool :=
  match s.frame? x.1.target x.1.rgn x.1.knum with
  | none => true
  | some _ => s.spawnFits x.1

/-- A held RSPAWN is offered again to the queue that was chosen for it, in the region of its key check (R425, R429). -/
def State.offerSpawn (s : State) (x : SpawnReq × Packet) : State :=
  let s1 : State := { s with heldSpawn := s.heldSpawn.erase x }
  if s1.spawnFits x.1 then (s1.enqueueSpawn x.1).finish x.2 0 0 0 else s1.finish x.2 2 4 1

/-- The next thing the endpoint does of itself: it takes up a packet of the package to itself, answers a performed write,
performs an OF write whose counts are complete, lands a waiting write, or offers a held packet again. -/
def State.endpointTurn (s : State) : Option State :=
  match s.settled with
  | (p, cause, old) :: r =>
    let s1 : State := { s with settled := r }
    some (if cause ≠ 0 then s1.finish p 2 6 (BitVec.ofNat 64 cause)
      else if p.opc = 2 then s1.finish p 1 (BitVec.ofNat 64 old) 0 else s1.finish p 0 0 0)
  | [] =>
    match s.loop.find? (fun x => decide (x.1 ≤ s.now)) with
    | some x => some (({ s with loop := s.loop.erase x } : State).takeUp x.2)
    | none =>
      match s.heldOf.find? (fun p => match s.entry? p with | some e => e.counts == p.ncount | none => false) with
      | some p => some (({ s with heldOf := s.heldOf.erase p } : State).performOp p)
      | none =>
        match s.inbuf.find? (fun x => (s.landingOf x.1).isSome) with
        | some x => some (({ s with inbuf := s.inbuf.erase x } : State).land x.1 x.2.1 x.2.2)
        | none =>
          match s.heldSig.find? s.sigFree with
          | some x => some (({ s with heldSig := s.heldSig.erase x } : State).remoteSignal x.1 x.2)
          | none =>
            match s.heldSpawn.find? s.spawnFree with
            | some x => some (s.offerSpawn x)
            | none => none

/-! ### The switch (R417 to R420) -/

/-- LINK_CHANGE (R418). -/
def execLinkChange (port : Nat) (up : Bool) (s : State) : Host.Outcome State Fault Refusal :=
  .next (if port < 16 ∧ (s.eport port).up ≠ up then s.modEport port (fun e => { e with up := up, changes := satInc e.changes }) else s)

/-- TRANSIT_PACKET: a packet that is not accepted as the package's own is forwarded, or dropped and counted (R417, R419,
R420). -/
def execTransitPacket (port : Nat) (pkt : Packet) (s : State) : Host.Outcome State Fault Refusal :=
  if s.addressed pkt then .next s
  else if pkt.crcBad then .next (s.modEport port (fun e => { e with crc := satInc e.crc }))
  else if s.foreign pkt ∧ 12 ≤ port then .next (s.countDrop port)
  else match s.forward pkt with
    | some s1 => .next s1
    | none => .next (s.useFree.countDrop port)

end Sys2Proof.Machine
end

