-- ==== Sys2Proof/Machine/Power.lean ====
section
/-! DEFINITION. Power, current and clocks: the clock pattern, the pair balancer, performance states, thermal caps and
emergencies (24 R431 to R443). How long a switch window lasts is the model's choice within R439 (log 48). -/

namespace Sys2Proof.Machine

/-! ### The clock pattern (R433, R434) -/

/-- One bits of a 32-bit pattern. -/
def popcount32 (v : BitVec 32) : Nat := ((List.range 32).filter (fun k => v.getLsbD k)).length

/-- Spread(n). -/
def spread (n : Nat) : BitVec 32 :=
  (List.range 32).foldl (fun v j => if j * n / 32 < (j + 1) * n / 32 then setBit v j true else v) 0

/-- EFF of a pattern and a duty. -/
def effOf (pat : BitVec 32) (duty : Nat) : BitVec 32 :=
  if duty = 32 then pat else spread (Nat.max 1 (popcount32 pat * duty / 32))

/-- PAT as it reads: the pattern last written. -/
def Phys.patRead (p : Phys) : BitVec 32 := match p.patNext with | some v => v | none => p.pat

/-- A physical cluster waits for its next rotation boundary: PAT or the duty has changed. -/
def Phys.pending (p : Phys) : Bool := p.patNext.isSome || effOf p.pat p.duty != p.eff

/-- A change that waits for the rotation boundary: where none waited before, the edges are counted from the rotation in progress,
32 edges to a rotation. -/
def State.toBoundary (s : State) (ph : Nat) (f : Phys → Phys) : State :=
  if (s.phy ph).pending || !(f (s.phy ph)).pending then s.modPhy ph f
  else ((s.rebase ph).modPhy ph (fun p => { p with edge := p.edge % 704 })).modPhy ph f

/-- The rotation of a physical cluster in which a change waits has ended. -/
def State.boundaryDue (s : State) (ph : Nat) : Bool := (s.phy ph).pending && 704 ≤ (s.phy ph).edgesAt (s.rateOf ph) s.now

/-- A write of PAT: with fewer than 4 one bits it is ignored; else it waits for the rotation boundary. -/
def State.writeIpat (s : State) (cl : Nat) (v : Word) : State :=
  if popcount32 (v.setWidth 32) < 4 then s else
    s.toBoundary (s.physOf cl) (fun p => { p with patNext := some (v.setWidth 32) })

/-- IPAT_WRITE by the firmware of a logical cluster. -/
def execIpatWrite (cl : Nat) (v : Word) (s : State) : Host.Outcome State Fault Refusal := .next (s.writeIpat cl v)

/-- ROTATION_BOUNDARY of a physical cluster: PAT and D enter the effective pattern together, and the rotation starts at bit 0
again (R433, R434). -/
def execRotationBoundary (cl : Nat) (s : State) : Host.Outcome State Fault Refusal :=
  .next (if s.boundaryDue cl then
    (s.rebase cl).modPhy cl (fun p => { p with pat := p.patRead, patNext := none, eff := effOf p.patRead p.duty, edge := p.edge - 704 })
  else s)

/-! ### Performance states (R432, R438 to R440) -/

/-- Voltage of a state per cluster, in units of 5 mV. -/
def voltOf (p : Nat) : Nat := if p = 0 then 150 else if p = 1 then 140 else if p = 2 then 130 else 116

/-- V now, in 550ths of 5 mV: 10 mV per microsecond is one of them a die pulse. -/
def Pair.voltNow (p : Pair) (now : Nat) : Nat :=
  let k := now - p.voltAt
  if p.volt ≤ p.goal then Nat.min p.goal (p.volt + k) else Nat.max p.goal (p.volt - k)

/-- Die pulses that V still takes to reach its goal. -/
def Pair.rampPulses (p : Pair) (now : Nat) : Nat := (p.goal - p.voltNow now) + (p.voltNow now - p.goal)

/-- Die pulses of a switch window: as many as hold at most 64 pulses of the old clock, which is the most that R439 allows (log 48). -/
def windowPulses (cur : Nat) : Nat := 64 * 22 / clockRate cur

/-- The steps of R439 after a change of T, at the end of a ramp or of a switch window: a slower clock at once, a faster one when V
suffices, each within a switch window in which V holds; else V goes on its way from where it is to volt(T). -/
def Pair.settle (p : Pair) (now : Nat) : Pair :=
  let t := Nat.max p.req p.cap
  let v := p.voltNow now
  let q : Pair := { p with tgt := t, volt := v, voltAt := now }
  if p.window.isSome then q
  else if t ≠ p.cur ∧ (p.cur < t ∨ 550 * voltOf t ≤ v) then { q with goal := v, window := some (t, now + windowPulses p.cur) }
  else { q with goal := 550 * voltOf t }

/-- A change of a pair; the pulses of its clusters are counted up to now by the clock that it may end. -/
def State.setPair (s : State) (pair : Nat) (f : Pair → Pair) : State := ((s.rebase (2 * pair)).rebase (2 * pair + 1)).modPair pair f

/-- A pair after a change of its request or cap; the end of its ramp is an event of its own. -/
def State.settlePair (s : State) (pair : Nat) (f : Pair → Pair) : State := s.setPair pair (fun p => (f p).settle s.now)

/-- The first pair whose switch window has ended. -/
def State.windowDone (s : State) : Option Nat :=
  match s.pairs.find? (fun x => match x.2.window with | some w => w.2 ≤ s.now | none => false) with
  | some x => some x.1
  | none => none

/-- The end of a pair's switch window: the clock is that of the state switched to, what R439 does next begins, and the traps that
were raised in the window are delivered (R440). -/
def State.endWindow (s : State) (pair : Nat) : State :=
  (s.setPair pair (fun p =>
    match p.window with
    | some w => ({ p with cur := w.1, window := none } : Pair).settle s.now
    | none => p)).deliverDeferred pair

/-- A pair's ramp has reached its goal, and its event is to come. -/
def Pair.arrived (p : Pair) (now : Nat) : Bool := p.volt != p.goal && p.voltNow now == p.goal

/-- The first pair whose ramp has reached its goal. -/
def State.rampDone (s : State) : Option Nat :=
  match s.pairs.find? (fun x => x.2.arrived s.now) with
  | some x => some x.1
  | none => none

/-- A write of PSREQ: a new request of the cluster's pair. -/
def State.writePsreq (s : State) (cl : Nat) (v : Word) : State :=
  s.settlePair (s.pairOf cl) (fun p => { p with req := field v 0 2 })

/-- PSREQ_WRITE. -/
def execPsreqWrite (cl : Nat) (v : Word) (s : State) : Host.Outcome State Fault Refusal := .next (s.writePsreq cl v)

/-- VOLTAGE_REACHED: the ramp has reached its goal, and the switch window of a faster clock begins (R439). -/
def execVoltageReached (pair : Nat) (s : State) : Host.Outcome State Fault Refusal :=
  .next (if (s.pair pair).arrived s.now then s.settlePair pair (fun p => p) else s)

/-! ### The balancer (R435 to R437) -/

/-- The logical cluster on a physical cluster. -/
def State.logicalOn (s : State) (phys : Nat) : Option Nat := (List.range 256).find? (fun c => s.physOf c == phys)

/-- Every region activated on either cluster of a pair, of which there is one, selects host-assisted balancing. -/
def State.balanceHost (s : State) (pair : Nat) : Bool :=
  let cls := (List.range 256).filter (fun c => s.pairOf c == pair)
  let rs := s.regions.filter (fun r => cls.any (fun c => inSet r.clset c))
  !rs.isEmpty && rs.all (fun r => field r.modes 10 2 == 2)

/-- The imbalance m in whole percent. -/
def imbalance (ia ib : Nat) : Nat :=
  let hi := Nat.max ia ib
  if hi = 0 then 0 else (hi - Nat.min ia ib) * 100 / hi

/-- The even member is the heavier one. A spare is the lighter member whenever its partner runs (R431). -/
def State.evenHeavy (s : State) (pair ia ib : Nat) : Bool :=
  match s.logicalOn (2 * pair), s.logicalOn (2 * pair + 1) with
  | none, some _ => false
  | some _, none => true
  | _, _ => decide (ib ≤ ia)

/-- D falls by one and THRCNT counts it. -/
def Phys.throttle (p : Phys) : Phys := { p with duty := p.duty - 1, thrcnt := Nat.min (p.thrcnt + 1) 0xFFFF }

/-- A change of a physical cluster's D, by one action of the balancer, at the next rotation boundary. -/
def State.setDuty (s : State) (ph : Nat) (f : Phys → Phys) : State := s.toBoundary ph f

/-- The one action of a sample (R436). -/
def State.balance (s : State) (pair ia ib : Nat) : State :=
  let m := imbalance ia ib
  let a := 2 * pair
  let even := s.evenHeavy pair ia ib
  let h := if even then a else a + 1
  let l := if even then a + 1 else a
  let pa := s.phy a
  let pb := s.phy (a + 1)
  if 10 < m then
    if 0 < (s.phy h).ballast then s.modPhy h (fun p => { p with ballast := p.ballast - 1 })
    else if (s.phy l).ballast < 12 then s.modPhy l (fun p => { p with ballast := p.ballast + 1 })
    else if 8 < (s.phy h).duty && !s.balanceHost pair then s.setDuty h Phys.throttle
    else s.modDie (pair / 36) (fun d => { d with satSamples := satInc d.satSamples })
  else if m ≤ 5 then
    if pa.duty < 32 ∨ pb.duty < 32 then
      s.setDuty (if pa.duty ≤ pb.duty then a else a + 1) (fun p => { p with duty := p.duty + 1 })
    else if 0 < pa.ballast ∨ 0 < pb.ballast then
      s.modPhy (if pb.ballast ≤ pa.ballast then a else a + 1) (fun p => { p with ballast := p.ballast - 1 })
    else s
  else s

/-! ### Limits and emergencies (R441, R442) -/

/-- The logical clusters of a pair that hold a frame of a region, and the regions that have one. -/
def State.pairRegions (s : State) (pair : Nat) : List (Nat × Nat) :=
  s.regions.filterMap (fun r =>
    match lowest (fun _ => true) ((s.frames.filter (fun f => f.rgn == r.num && s.pairOf f.cl == pair)).map (fun f => f.cl)) with
    | some c => some (r.num, c)
    | none => none)

/-- A record 7.7.4 for each region with frames on the pair (19 R362). -/
def State.powerRecords (s : State) (pair sensor : Nat) : List (Nat × Nat) → State
  | [] => s
  | (rgn, c) :: rest =>
    (s.raise { cause := 508, parked := false, nothread := true, pstate := s.pstate c, rgn := rgn, lcl := c, slot := 0, knum := 0xFF,
               pc := 0, i0 := BitVec.ofNat 64 c, i1 := BitVec.ofNat 64 (s.pair pair).cur, i2 := BitVec.ofNat 64 (s.pair pair).tgt,
               i3 := BitVec.ofNat 64 sensor }).powerRecords pair sensor rest

/-- D falls to 8; a decrease counts in THRCNT (R436, R442). -/
def Phys.toEight (p : Phys) : Phys := if 8 < p.duty then { p.throttle with duty := 8 } else p

/-- The pair goes at once to P3 in one switch window, which takes the place of one in progress, with D := 8 on both clusters. -/
def State.emergency (s : State) (pair sensor : Nat) : State :=
  let s1 := s.settlePair pair (fun p =>
    { p with cap := 3, emergency := true, window := (match p.window with | some w => some (3, w.2) | none => none) })
  let s2 := (s1.setDuty (2 * pair) Phys.toEight).setDuty (2 * pair + 1) Phys.toEight
  (s2.modDie (pair / 36) (fun d => { d with emergencies := satInc d.emergencies })).powerRecords pair sensor (s2.pairRegions pair)

/-- The pair is the hottest of those whose cap can still be lowered (R441). -/
def State.hottest (s : State) (pair temp : Nat) : Bool :=
  (List.range 144).all (fun q => q == pair || (s.pair q).cap == 3 || decide ((s.pair q).temp ≤ temp))

/-- The cap of a pair after the SMC's step: lowered at 100 °C or more, and for the device's power, of more than 2,400 W, of the hottest pair;
raised below 90 °C (R441). -/
def State.capStep (s : State) (pair temp power : Nat) : Nat :=
  let p := s.pair pair
  if p.emergency then 3
  else if 100 ≤ temp ∨ (2400 < power ∧ s.hottest pair temp) then Nat.min 3 (p.cap + 1)
  else if temp < 90 then p.cap - 1 else p.cap

/-- A condition of a power emergency holds: 110 °C or more, more than 60 A, a mid rail that is off, or an imbalance above 20 (R442). -/
def Pair.unwell (p : Pair) : Bool := decide (110 ≤ p.temp) || decide (60000 < p.amps) || p.railOff || decide (20 < p.imb)

/-- A reading of a pair's sensors takes the place of the one before; the time from which every condition is clear is noted. -/
def Pair.reading (p q : Pair) (now : Nat) : Pair := if p.unwell && !q.unwell then { q with clearAt := now } else q

/-- The mid rail, in mV, deviates by more than 10% from half the pair rail. -/
def Pair.midOff (p : Pair) (now mid : Nat) : Bool :=
  let v := p.voltNow now
  decide (v < 10 * ((220 * mid - v) + (v - 220 * mid)))

/-- THERMAL_CAP_UPDATE: the SMC's 1 ms step of a pair's cap, by its hottest sensor and the device's power; from 110 °C up it is a power
emergency (R441, R442). -/
def execThermalCapUpdate (pair temp power : Nat) (s : State) : Host.Outcome State Fault Refusal :=
  .next (if 144 ≤ pair then s
    else if 110 ≤ temp ∧ !(s.pair pair).emergency then (s.modPair pair (fun p => { p with temp := temp })).emergency pair 1
    else s.settlePair pair (fun p => p.reading { p with temp := temp, cap := s.capStep pair temp power } s.now))

/-- The readings of a pair that a POWER_EMERGENCY event brings: in bits 2 to 0 the sensor code 1 temperature, 2 pair current or 3 mid rail,
above them the reading in °C, mA or mV (log 18). -/
def Pair.sensed (p : Pair) (now sensor : Nat) : Pair :=
  if sensor % 8 = 1 then { p with temp := sensor / 8 }
  else if sensor % 8 = 2 then { p with amps := sensor / 8 }
  else if sensor % 8 = 3 then { p with railOff := p.midOff now (sensor / 8) }
  else p

/-- The condition of a sensor code holds. -/
def Pair.condition (p : Pair) (code : Nat) : Bool :=
  (code == 1 && decide (110 ≤ p.temp)) || (code == 2 && decide (60000 < p.amps)) || (code == 3 && p.railOff)

/-- POWER_EMERGENCY: a reading of a sensor; 110 °C or more, more than 60 A, or a mid rail that deviates by more than 10% is a power emergency,
unless the pair is in one (R442; log 18). The sustained imbalance of code 4 is BALANCER_SAMPLE's. -/
def execPowerEmergency (pair sensor : Nat) (s : State) : Host.Outcome State Fault Refusal :=
  .next (if 144 ≤ pair then s
    else
      let q := (s.pair pair).sensed s.now sensor
      let s1 := s.modPair pair (fun p => p.reading q s.now)
      if q.condition (sensor % 8) ∧ !q.emergency then s1.emergency pair (sensor % 8) else s1)

/-- EMERGENCY_CLEAR: the conditions have been clear for 10 ms, 11,000,000 die pulses, and the cap may rise (R441, R442). -/
def execEmergencyClear (pair : Nat) (s : State) : Host.Outcome State Fault Refusal :=
  let p := s.pair pair
  .next (if p.emergency ∧ !p.unwell ∧ p.clearAt + 11000000 ≤ s.now then s.modPair pair (fun p => { p with emergency := false }) else s)

/-- BALANCER_SAMPLE: the currents of the even and the odd member; 1,024 samples in a row above 20 are an emergency. -/
def execBalancerSample (pair ia ib : Nat) (s : State) : Host.Outcome State Fault Refusal :=
  if 144 ≤ pair then .next s
  else
    let m := imbalance ia ib
    let s1 := (s.balance pair ia ib).modPair pair (fun p =>
      p.reading { p with ia := ia, ib := ib, imb := Nat.min m 255, above := if 20 < m then (p.above + 1) % 1024 else 0 } s.now)
    .next (if 20 < m ∧ (s.pair pair).above = 1023 then s1.emergency pair 4 else s1)

/-! ### PSSTAT (R443) -/

/-- PSSTAT as a cluster of the pair reads it. -/
def State.psstat (s : State) (cl : Nat) : Word :=
  let p := s.pair (s.pairOf cl)
  let c := s.phy (s.physOf cl)
  BitVec.ofNat 64 (p.cur + 4 * p.tgt + (if p.voltNow s.now = p.goal then 0 else 16) +
    (if p.window.isSome then 32 else 0) + 2 ^ 8 * (p.voltNow s.now / 550) + 2 ^ 16 * (p.temp % 256) +
    2 ^ 24 * p.imb + 2 ^ 32 * c.ballast + 2 ^ 40 * c.duty + 2 ^ 48 * c.thrcnt)

end Sys2Proof.Machine
end

