-- ==== Sys2Proof/Machine/Records.lean ====
section
/-! DEFINITION. The fault queues: a record's bytes, and the arbiter that writes them (19 R363 to R367, R369). -/

namespace Sys2Proof.Machine

/-- The 64 bytes of a record (R363). -/
def Record.bytes (r : Record) (rseq : Nat) : List Byte :=
  leBytes 2 (r.cause % 512 + 2 ^ 15) ++ leBytes 1 ((if r.parked then 1 else 0) + (if r.nothread then 2 else 0)) ++
  leBytes 1 r.pstate.toNat ++ leBytes 1 r.rgn ++ leBytes 1 r.lcl ++ leBytes 2 r.slot ++ leBytes 1 r.knum ++ leBytes 7 0 ++
  leBytes 8 r.pc.toNat ++ leBytes 8 rseq ++ leBytes 8 r.i0.toNat ++ leBytes 8 r.i1.toNat ++ leBytes 8 r.i2.toNat ++ leBytes 8 r.i3.toNat

/-- The region whose values a record follows: the one that raised it, or the queue's owner once that region is gone (02 R17). -/
def State.raiser (s : State) (r : Region) (rec : Record) : Region := (s.region? rec.rgn).getD r

/-- The slot of the next record, in the queue that the raising region's effective values name (R365 item 2; 02 R17). -/
def slotVa (g r : Region) : Nat := (g.fqbase + 64 * (r.rseq % 2 ^ g.fqnlog)) % 2 ^ 48

/-- What the arbiter finds at its slot. -/
inductive SlotState where
  | fails
  | inUse
  | free (pl : Place)
  deriving DecidableEq, Repr

/-- The slot is translated for a read and a write, and its VALID bit is read (R365, R366). -/
def State.slotState (s : State) (r : Region) (rec : Record) : SlotState :=
  match s.translate r (slotVa (s.raiser r rec) r) 2 false with
  | .error _ => .fails
  | .ok (loc, k, pa) =>
    if (s.badAt r.num 0 (.global loc k pa)).isSome then .fails
    else if fromLE (s.hbmRead k loc 8) / 2 ^ 15 % 2 = 1 then .inUse
    else .free (.global loc k pa)

/-- The arbiter's look at its slot: a read, in the die of the cluster that raised the record (21 R390, R396). -/
def State.lookAtSlot (s : State) (r : Region) (rec : Record) : State :=
  s.touchLines (some rec.lcl) (s.raiser r rec) (slotVa (s.raiser r rec) r) 1

/-- FAULT_QUEUE_RETRY of a queue comes 1,024 die pulses on (R365 item 3, R366). -/
def State.retryRecord (s : State) (n : Nat) (rec : Record) : State := s.addActDie 1024 rec.lcl rec.slot [] (.tick (.faultQueueRetry n))

/-- A cause of a page that is not present or not writable, 2.s.0 or 2.s.1 (22 R407). -/
def pageFault (cause : Nat) : Bool := cause / 64 == 2 && cause % 8 ≤ 1

/-- What follows the write of a record, by the values of the region that raised it (02 R17; 22 R407). -/
def recordNote (g : Region) (owner : Nat) (rec : Record) : RecordNote :=
  { owner := owner, host := field g.modes 0 2 == 2, page := pageFault rec.cause && field g.modes 2 2 == 2, msiv := g.msiv,
    fsemCl := g.fsemCl, fsemK := g.fsemK, fsemS := g.fsemS }

/-- The system-class entry that writes a record. -/
def recordEntry (rec : Record) (rseq : Nat) (pl : Place) (n : RecordNote) : Entry :=
  { cls := 2, line := pl, mask := BitVec.allOnes 64, kind := .data (offBytes 0 (rec.bytes rseq)), release := true, ea := 0, i1 := 0,
    words := 0, rgn := rec.rgn, knum := 0xFF, ack := none, mcast := [], note := some n, sealed := true, queued := true }

/-- The arbiter of a region's queue tries its oldest record (R365 to R367). -/
def State.tryRecord (s : State) (r : Region) : State :=
  match r.kept with
  | [] => s.modRegion r.num (fun r => { r with full := false, failing := false })
  | rec :: rest =>
    match s.slotState r rec with
    | .fails =>
      let s1 := if r.failing then s else s.msix r.msiv
      (s1.modRegion r.num (fun r => { r with full := false, failing := true })).retryRecord r.num rec
    | .inUse =>
      (s.modRegion r.num (fun r => { r with full := true, failing := false })).retryRecord r.num rec
    | .free pl =>
      let s1 := s.modRegion r.num (fun r => { r with full := false, failing := false, kept := rest, rseq := r.rseq + 1 })
      let s2 := s1.engineEnter rec.lcl 512 (recordEntry rec r.rseq pl (recordNote (s.raiser r rec) r.num rec))
      if rest.isEmpty then s2 else s2.tick 1 rec.lcl rec.slot (.faultRecord r.num)

/-- The arbiter's next try, with its look at the slot. -/
def State.nextRecord (s : State) (r : Region) : State :=
  match r.kept with
  | [] => s.tryRecord r
  | rec :: _ => (s.lookAtSlot r rec).tryRecord r

/-- FAULT_RECORD: the arbiter takes its next record, unless one is kept (R365). -/
def execFaultRecord (rgn : Nat) (s : State) : Host.Outcome State Fault Refusal :=
  match s.region? rgn with
  | none => .next s
  | some r => .next (if r.full ∨ r.failing then s else s.nextRecord r)

/-- FAULT_QUEUE_RETRY: a kept record is tried again (R365 item 3, R366). -/
def execFaultQueueRetry (rgn : Nat) (s : State) : Host.Outcome State Fault Refusal :=
  match s.region? rgn with
  | none => .next s
  | some r => .next (if r.full ∨ r.failing then s.nextRecord r else s)

/-- FQSTALL: a kept record raised on a cluster fails its write (R366, R373). -/
def State.fqStall (s : State) (cl : Nat) : Bool :=
  s.regions.any (fun r => r.failing && (match r.kept with | k :: _ => k.lcl == cl | [] => false))

/-- FSEMHOLD (R373). -/
def State.fsemHold (s : State) (cl : Nat) : Bool := s.regions.any (fun r => r.held != 0 && inSet r.heldCls cl)

end Sys2Proof.Machine
end

