-- ==== Sys2Proof/Machine/Context.lean ====
section
/-! DEFINITION. Contexts of parked threads: the image, the end of a thread, TRESUME, TCTXR, TCTXW and TKILL, and what they
share with the host's context-command window (14 R327 to R330; 19 R370; 13 R284). -/

namespace Sys2Proof.Machine

/-! ### The end of a thread (02 R32; 14 R329) -/

/-- The join of a request or a thread that ends without running is poisoned; at a suspended cluster once the frame is resident (02 R45). -/
def State.poisonJoin (s : State) (cl slot jc rgn knum js : Nat) : State :=
  match s.frame? jc rgn knum with
  | some f => if f.stopped then s.addAct 1 cl slot [] (.poison jc rgn knum js) else s.poisonSem jc rgn knum js
  | none => s

/-- The join of a thread that is ended: signalled as by QUIT, or poisoned (R329). -/
def State.endJoin (s : State) (t : Thread) (sig : Bool) : State :=
  match t.join with
  | none => s
  | some (jc, js) =>
    if sig then
      s.addAct (signalDelay t.cl jc) t.cl t.slot (s.scopeSet t.cl t.slot (semScope t.cl jc)) (.signal jc t.rgn t.knum js 1 false)
    else s.poisonJoin t.cl t.slot jc t.rgn t.knum js

/-- TKILL's effect. -/
def State.killThread (s : State) (t : Thread) (sig : Bool) : State := (s.endJoin t sig).endThread t

/-! ### The context image (19 R370) -/

/-- VSTATE (13 R277). -/
def vstate (ty : BitVec 4) (grp : BitVec 2) (vl : Nat) : Word := BitVec.ofNat 64 (4 * grp.toNat + 16 * ty.toNat + 2 ^ 16 * vl)

/-- MISC. -/
def Thread.misc (t : Thread) (lvl : Level) : Word :=
  BitVec.ofNat 64 (t.prio.toNat + 16 * (t.allot / 8 - 1) + 64 * lvl.num + 2 ^ 8 * t.p.toNat + 2 ^ 16 * t.pendP.toNat +
    (if t.bsarr then 2 ^ 24 else 0))

/-- WERR (12 R261). -/
def Thread.werr (t : Thread) : Word :=
  BitVec.ofNat 64 (t.errMem.cause.toNat + 2 ^ 16 * t.errMem.n.toNat + 2 ^ 32 * t.errFab.cause.toNat + 2 ^ 48 * t.errFab.n.toNat)

/-- Doubleword k of a replay-queue entry. -/
def Captured.dword (c : Captured) (k : Nat) : Word :=
  match k with
  | 0 => BitVec.ofNat 64 (c.word.toNat + 2 ^ 32 * c.offset.toNat)
  | 1 => (vstate c.vtype c.grp c.vl &&& 0xFFFFFFFF#64) ||| (c.vfcsr <<< 32)
  | 2 => c.swz
  | 3 => c.ga
  | 4 => c.gb
  | _ => 0

/-- Bytes of the image of a thread of a frame. -/
def imageSize (f : Frame) : Nat := if f.hdr.kvregs = 0 then 0x480 else 0x5C80 + 4096 * f.hdr.kvregs

/-- The doubleword at an offset of the image. -/
def Thread.dword (t : Thread) (lvl : Level) (off : Nat) : Word :=
  if off < 0x80 then
    match off / 8 with
    | 0 => t.pc
    | 1 => t.misc lvl
    | 2 => t.pendG.setWidth 64
    | 3 => t.vfcsr
    | 4 => vstate t.vtype t.grp t.vl
    | 5 => t.swlim.setWidth 64
    | 6 => t.spwlim.setWidth 64
    | 7 => t.wcode.setWidth 64
    | 8 => nth t.fpcnt 0 0
    | 9 => nth t.fpcnt 1 0
    | 10 => nth t.fpcnt 2 0
    | 11 => nth t.fpcnt 3 0
    | 12 => t.werr
    | 13 => BitVec.ofNat 64 t.replay.length
    | 14 => t.barph.setWidth 64
    | _ => 0
  else if off < 0x180 then (if (off - 0x80) / 8 < t.allot then t.getG ((off - 0x80) / 8) else 0)
  else if off < 0x480 then
    match t.replay[(off - 0x180) / 48]? with
    | some c => c.dword ((off - 0x180) % 48 / 8)
    | none => 0
  else if off < 0x1480 then t.key.extractLsb' (8 * (off - 0x480)) 64
  else if off < 0x2480 then t.ctr.extractLsb' (8 * (off - 0x1480)) 64
  else if off < 0x5C80 then (t.getM ((off - 0x2480) / 2048 + 1)).extractLsb' (8 * ((off - 0x2480) % 2048)) 64
  else (nth t.v ((off - 0x5C80) / 4096) 0).extractLsb' (8 * ((off - 0x5C80) % 4096)) 64

/-- n doublewords of the image as bytes. -/
def Thread.imageBytes (t : Thread) (lvl : Level) (off : Nat) : Nat → List Byte
  | 0 => []
  | n + 1 => leBytes 8 (t.dword lvl off).toNat ++ t.imageBytes lvl (off + 8) n

/-- Replaces a doubleword of a long vector at a byte offset. -/
def putDword {w : Nat} (v : BitVec w) (byte : Nat) (x : Word) : BitVec w :=
  (v &&& ~~~((0xFFFFFFFFFFFFFFFF#64).setWidth w <<< (8 * byte))) ||| (x.setWidth w <<< (8 * byte))

/-- A TCTXW of one half of WERR (12 R261). -/
def ErrHalf.write (h : ErrHalf) (n : BitVec 16) (cause : BitVec 9) (ord : Nat) : ErrHalf :=
  if n = 0 then ErrHalf.none
  else if h.n = 0 then { n := n, cause := cause, i0 := 0, i1 := 0, i3 := 0, ord := ord }
  else { h with n := n, cause := cause }

/-- Predicates written but for those whose result is pending. -/
def Thread.writePreds (t : Thread) (v : BitVec 8) : Thread := { t with p := (t.p &&& t.pendP) ||| (v &&& ~~~t.pendP) }

/-- DROP: the replay queue's head leaves, and the pending bit it set clears (13 R284). -/
def Thread.dropHead (t : Thread) : Thread :=
  match t.replay with
  | [] => t
  | c :: r =>
    let t1 : Thread := { t with replay := r }
    match c.pendReg with
    | some d => t1.unpend (.g d)
    | none => t1

/-- A field map's writable bits of VFCSR, SWLIM and SPWLIM. -/
def vfcsrMask : Word := 0x00000000003F3F07#64

/-- TCTXW of the doubleword at an offset of the image. -/
def Thread.putImage (t : Thread) (off : Nat) (x : Word) (ord : Nat) : Thread :=
  if off < 0x80 then
    match off / 8 with
    | 0 => { t with pc := x, soloC := t.soloC && x == t.pc }
    | 1 => { t.writePreds (BitVec.ofNat 8 (field x 8 8)) with prio := x.setWidth 3, bsarr := bitOf x 24 }
    | 3 => { t with vfcsr := x &&& vfcsrMask }
    | 5 => { t with swlim := x.setWidth 32 }
    | 6 => { t with spwlim := x.setWidth 32 }
    | 8 => { t with fpcnt := t.fpcnt.set 0 x }
    | 9 => { t with fpcnt := t.fpcnt.set 1 x }
    | 10 => { t with fpcnt := t.fpcnt.set 2 x }
    | 11 => { t with fpcnt := t.fpcnt.set 3 x }
    | 12 =>
      { t with errMem := t.errMem.write (BitVec.ofNat 16 (field x 16 16)) (x.setWidth 9) ord,
               errFab := t.errFab.write (BitVec.ofNat 16 (field x 48 16)) (BitVec.ofNat 9 (field x 32 9)) ord }
    | 13 => if bitOf x 8 then t.dropHead else t
    | _ => t
  else if off < 0x180 then
    let r := (off - 0x80) / 8
    if r < t.allot ∧ ¬t.pendG.getLsbD r then t.setG r x else t
  else if off < 0x480 then t
  else if off < 0x1480 then { t with key := putDword t.key (off - 0x480) x }
  else if off < 0x2480 then { t with ctr := putDword t.ctr (off - 0x1480) x }
  else if off < 0x5C80 then
    let k := (off - 0x2480) / 2048 + 1
    t.setM k (putDword (t.getM k) ((off - 0x2480) % 2048) x)
  else
    let v := (off - 0x5C80) / 4096
    { t with v := t.v.set v (putDword (nth t.v v 0) ((off - 0x5C80) % 4096) x) }

/-- TCTXW of n doublewords. -/
def Thread.putBytes (t : Thread) (off : Nat) (bs : List Byte) (ord : Nat) : Nat → Thread
  | 0 => t
  | n + 1 => (t.putImage off (BitVec.ofNat 64 (fromLE (bs.take 8))) ord).putBytes (off + 8) (bs.drop 8) ord n

/-! ### The operations on a context (14 R328, R329) -/

/-- The four operations. -/
inductive CtxOp where
  | resume | read | write | kill
  deriving DecidableEq, Repr

/-- Whether a region is another or one of its descendants. -/
def State.within (s : State) (top : Nat) : Nat → Nat → Bool
  | 0, _ => false
  | n + 1, r =>
    if r = top then true
    else match s.region? r with
      | some x => (match x.parent with | some p => s.within top n p | none => false)
      | none => false

/-- A caller may name a region (R327). -/
def State.mayName (s : State) (lvl : Level) (own r : Nat) : Bool := lvl == .m || (lvl == .s && s.within own 4 r)

/-- A region is suspended on a cluster (19 R374). -/
def State.suspendedOn (s : State) (rgn cl : Nat) : Bool := s.frames.any (fun f => f.cl == cl && f.rgn == rgn && f.stopped)

/-- A field of a descriptor. -/
def dfield (d : List Byte) (off n : Nat) : Nat := fromLE ((d.drop off).take n)

/-- A reserved field of the 32-byte descriptor is not zero. -/
def ctxReserved (op : CtxOp) (d : List Byte) : Bool :=
  dfield d 0x14 4 != 0 ||
  (if op = .kill then dfield d 8 4 / 4 != 0 else dfield d 8 4 != 0) ||
  (if op = .read ∨ op = .write then false else dfield d 0x0C 4 != 0 || dfield d 0x10 4 != 0 || dfield d 0x18 8 != 0)

/-- The target thread of a descriptor. -/
def State.ctxThread (s : State) (d : List Byte) : Option Thread :=
  match s.thread? (dfield d 5 1) (dfield d 6 2) with
  | some t => if t.rgn = dfield d 4 1 then some t else none
  | none => none

/-- The first status code that applies, of 7, 1, 5, 2, 3, 4, 6; 0 for none. Code 8 is the caller's. -/
def State.ctxStatus (s : State) (op : CtxOp) (lvl : Level) (own : Nat) (d : List Byte) : Nat :=
  let rgn := dfield d 4 1
  if ctxReserved op d then 7
  else if !s.mayName lvl own rgn then 1
  else if s.suspendedOn rgn (dfield d 5 1) then 5
  else match s.ctxThread d with
    | none => 2
    | some t =>
      if t.wait ≠ .parked ∧ ¬(op = .kill ∧ bitOf (BitVec.ofNat 8 (dfield d 8 1)) 1) then 3
      else match s.frame? t.cl t.rgn t.knum with
        | none => 2
        | some f =>
          if (op = .read ∨ op = .write) ∧
              (dfield d 0x10 4 % 8 ≠ 0 ∨ dfield d 0x0C 4 % 8 ≠ 0 ∨ imageSize f < dfield d 0x10 4 + dfield d 0x0C 4) then 4
          else if op = .resume ∧ (t.pc.toNat % 4 ≠ 0 ∨ ¬f.inCode t.pc) then 6
          else 0

/-- The vector port takes the head of a thread's replay queue: the thread goes on after a TRESUME, and the port has an entry
for it (03 R60; 13 R284). -/
def State.replayNow (s : State) (t : Thread) : Bool :=
  t.wait == .none && !t.vstop && !t.replay.isEmpty && t.late.isEmpty && s.portCount t.cl .vector < 64 && s.threadPortCount t.cl t.slot .vector < 16

/-- The head of a replay queue enters the vector port with the values captured at the first issue and with its own number: the
queue holds the thread's latest commands to that port (03 R61; 13 R284). -/
def State.replayOne (s : State) (t : Thread) (c : Captured) (rest : List Captured) : State :=
  let cmd : Cmd :=
    ⟨s.seq, .vector, t.cl, t.slot, t.rgn, t.knum, nth t.seqs 4 0 - BitVec.ofNat 16 (rest.length + 1), t.prio, s.pulse t.cl, s.seq,
      c.instr, c.word, [], [], 2 ^ t.wcode.toNat, some c, s.scratchSet t.cl t.slot ++ s.openAcq t⟩
  { s.modThread t.cl t.slot (fun u => { u with replay := rest }) with cmds := s.cmds ++ [cmd], seq := s.seq + 1 }

/-- A thread's replay queue enters the vector port, in order, as far as the port has room (13 R284; 01 R13; 03 R60). -/
def State.replayIn (s : State) (cl slot : Nat) : Nat → State
  | 0 => s
  | n + 1 =>
    match s.thread? cl slot with
    | none => s
    | some t =>
      match t.replay with
      | c :: rest => if s.replayNow t then (s.replayOne t c rest).replayIn cl slot n else s
      | [] => s

/-- A vector trap of a thread is on its way to it (13 R284; log 41). -/
def State.trapComing (s : State) (t : Thread) : Bool :=
  s.acts.any (fun a => a.cl == t.cl && a.slot == t.slot && (match a.job with | .vtrap _ => true | _ => false))

/-- TRESUME's effect (R329; 13 R284): a failure that is still to be told comes first; else the replay queue enters the
vector port, before the thread issues again, and the thread is ready. -/
def State.resumeThread (s : State) (t : Thread) : State :=
  let ceil := match s.region? t.rgn with | some r => r.ceil | none => 7
  let s1 := s.resume t.cl t.slot ceil
  if t.late.isEmpty && !s.trapComing t then
    (s1.modThread t.cl t.slot (fun u => { u with vstop := false })).replayIn t.cl t.slot 16
  else s1.deliverLate t.cl t.slot

/-- TRESUME and TKILL on a descriptor that no status refuses. -/
def State.ctxAct (s : State) (op : CtxOp) (d : List Byte) : State :=
  match s.ctxThread d with
  | none => s
  | some t =>
    match op with
    | .resume => s.resumeThread t
    | .kill => s.killThread t (bitOf (BitVec.ofNat 8 (dfield d 8 1)) 0)
    | _ => s

/-- TCTXR's bytes. -/
def State.ctxRead (s : State) (d : List Byte) : List Byte :=
  match s.ctxThread d with
  | none => []
  | some t =>
    match s.frame? t.cl t.rgn t.knum with
    | some f => t.imageBytes f.level (dfield d 0x10 4) (dfield d 0x0C 4 / 8)
    | none => []

/-- TCTXW of bytes. -/
def State.ctxWrite (s : State) (d bs : List Byte) : State :=
  match s.ctxThread d with
  | none => s
  | some t => s.bump.modThread t.cl t.slot (fun u => u.putBytes (dfield d 0x10 4) bs s.seq (dfield d 0x0C 4 / 8))

/-! ### Descriptor instructions (14 R327) -/

/-- The scalar access of one piece of a descriptor or buffer. -/
def descAcc (ea : Word) (n kind : Nat) : Acc :=
  { ea := ea, size := n, kind := kind, src := 1, align := n, wins := [.localW, .global], ldc := false }

/-- The places of n doublewords from an address, each checked as a scalar access. -/
def State.descPlaces (s : State) (c : Ctx) (ea : Word) (kind : Nat) : Nat → Except Trap (List Place)
  | 0 => .ok []
  | n + 1 =>
    match s.checkAccess c.t.cl c.f c.r s.cur.words (descAcc ea 8 kind) with
    | .error tr => .error tr
    | .ok p =>
      match s.descPlaces c (ea + 8) kind n with
      | .error tr => .error tr
      | .ok ps => .ok (p :: ps)

/-- The bytes at checked places, with the thread's own queued stores. -/
def State.descBytes (s : State) (c : Ctx) (ps : List Place) : List Byte :=
  ps.flatMap (fun p =>
    match s.loadBytes c.t.rgn c.t.knum c.t.cl c.t.slot s.seq p 8 with
    | some bs => bs
    | none => s.readAt c.t.rgn c.t.knum p 8)

/-- The first piece of a descriptor or buffer whose read meets an error fails as a scalar load's: with 7.1.0 or 7.1.1, and the PC
of the next bundle (12 R259; 04 R100). -/
def State.descBad (s : State) (c : Ctx) (ea : Word) : List Place → Option State
  | [] => none
  | p :: r =>
    match s.badAt c.t.rgn c.t.knum p with
    | some crc =>
      let k := if crc then 457 else 456
      some ((s.countLate c.t.cl k p).trapNext c.t.cl c.t.slot (lateTrap k 0 ea (descAcc ea 8 0).i1 s.cur.words))
    | none => s.descBad c (ea + 8) r

/-- What follows the reads of a descriptor instruction, unless one of them meets an error. Each read is an access of its line
(21 R390, R396). -/
def State.descRead (s : State) (c : Ctx) (ea : Word) (ps : List Place) (go : List Byte → State) : State :=
  ps.foldl (fun s p => s.touchAt c.t.cl c.t.rgn p)
    (match s.descBad c ea ps with
    | some s1 => s1
    | none => go (s.descBytes c ps))

/-- A descriptor instruction is a release at P scope: it waits for the thread's earlier accesses and then issues again, a
pair as a whole (10 R199). -/
def State.descHold (s : State) (c : Ctx) (after : List Nat) : State :=
  s.modThread c.t.cl c.t.slot (fun t => { t with wait := .release after, pc := t.ipc, soloC := t.isolo, marker := false })

/-- Bytes with their places. -/
def placeBytes (p : Place) : List Byte → List (Place × Byte)
  | [] => []
  | b :: r => (p, b) :: placeBytes (p.plus 1) r

/-- Lines of a descriptor instruction's writes from an address up: local ones at the bank, the others as thread-class entries,
granted in order. -/
def State.descLines (s : State) (t : Thread) (ea words : Word) : List (Place × List (Nat × Byte)) → List Nat → State × List Nat
  | [], ids => (s, ids)
  | (l, bs) :: r, ids =>
    if l.isLocal then
      (bs.foldl (fun s b => s.writeByte t.rgn t.knum (l.plus b.1) b.2) s).descLines t (ea + BitVec.ofNat 64 bs.length) words r ids
    else
      let e : Entry :=
        { cls := 0, line := l, mask := maskOf bs, kind := .data bs, release := true, ea := ea, i1 := 0x10000, words := words,
          rgn := t.rgn, knum := t.knum, ack := none, mcast := [], note := none, sealed := true, queued := true }
      (s.engineEnter t.cl t.slot e).descLines t (ea + BitVec.ofNat 64 bs.length) words r (ids ++ [s.seq])

/-- Pieces of writes, each with the address it starts at. -/
def State.descPieces (s : State) (t : Thread) (words : Word) : List (Word × List (Place × Byte)) → List Nat → State × List Nat
  | [], ids => (s, ids)
  | (ea, l) :: r, ids =>
    let x := s.descLines t ea words (groupLines l []) ids
    x.1.descPieces t words r x.2

/-- The writes of a descriptor instruction: the thread is not ready until they have performed. -/
def State.descWrites (s : State) (t : Thread) (lim : Nat) (words : Word) (l : List (Word × List (Place × Byte))) : State :=
  let x := (s.fixLocal t.cl t.slot).descPieces t words l []
  if x.2.isEmpty then x.1
  else
    x.1.bump.startWait t.cl t.slot (.desc x.2 (limitAt (s.pulse t.cl) lim) x.1.seq)

/-- STATUS of a descriptor: its code, and zeros. -/
def statusBytes (code : Nat) : List Byte := leBytes 4 code

/-- The effect of TRESUME, TCTXR, TCTXW or TKILL on the descriptor in G[a]. -/
def ctxEff (op : CtxOp) (a : BitVec 5) (c : Ctx) (s : State) : State :=
  let after := s.scopeSet c.t.cl c.t.slot 3 ++ s.openAcq c.t
  let ea := c.t.getG a.toNat
  if !after.isEmpty then s.descHold c after
  else match s.descPlaces c ea 0 4, s.checkAccess c.t.cl c.f c.r s.cur.words (descAcc ea 4 1) with
  | .error tr, _ => s.accessTrap c tr
  | _, .error tr => s.accessTrap c tr
  | .ok ps, .ok st => s.descRead c ea ps (fun d =>
    let code := s.ctxStatus op c.f.level c.t.rgn d
    let report (s : State) (more : List (Word × List (Place × Byte))) : State :=
      s.descWrites c.t (c.t.limit c.t.swlim) s.cur.words (more ++ [(ea, placeBytes st (statusBytes code))])
    if code ≠ 0 then report s []
    else
      let buf := BitVec.ofNat 64 (dfield d 0x18 8)
      let n := dfield d 0x0C 4 / 8
      match op with
      | .read =>
        match s.descPlaces c buf 1 n with
        | .error tr => s.accessTrap c tr
        | .ok bp => report s [(buf, (bp.flatMap (fun p => (List.range 8).map p.plus)).zip (s.ctxRead d))]
      | .write =>
        match s.descPlaces c buf 0 n with
        | .error tr => s.accessTrap c tr
        | .ok bp => s.descRead c buf bp (fun bs => report (s.ctxWrite d bs) [])
      | _ => report (s.ctxAct op d) [])

/-- TRESUME (R329). -/
def execTresume (a : BitVec 5) (s : State) : Host.Outcome State Fault Refusal := issueI (.tresume a) s (ctxEff .resume a)

/-- TCTXR (R329). -/
def execTctxr (a : BitVec 5) (s : State) : Host.Outcome State Fault Refusal := issueI (.tctxr a) s (ctxEff .read a)

/-- TCTXW (R329). -/
def execTctxw (a : BitVec 5) (s : State) : Host.Outcome State Fault Refusal := issueI (.tctxw a) s (ctxEff .write a)

/-- TKILL (R329). -/
def execTkill (a : BitVec 5) (s : State) : Host.Outcome State Fault Refusal := issueI (.tkill a) s (ctxEff .kill a)

end Sys2Proof.Machine
end

