-- ==== Sys2Proof/Machine/Bind.lean ====
section
/-! DEFINITION. Binding kernels: KBIND, KUNBIND and the teardown of a frame, for the instructions and the host's bind window
(02 R19 to R22; 14 R331 to R333; 19 R366). -/

namespace Sys2Proof.Machine

/-! ### Kernel headers (02 R19, R20) -/

/-- The lowest offset of a header's field that fails its check. -/
def headerBad (h : List Byte) : Option Nat :=
  let f := dfield h
  let code := f 0x14 4
  let entry (i : Nat) : Bool :=
    let e := f (0x18 + 4 * i) 4
    (e != 0xFFFFFFFF && (e % 4 != 0 || decide (code ≤ e))) || (i == 0 && e == 0xFFFFFFFF)
  let checks : List (Nat × Bool) :=
    [(0x00, f 0 4 != 0x4B474F4A), (0x04, f 4 2 != 1), (0x06, !([8, 16, 24, 32].contains (f 6 1))), (0x07, decide (32 < f 7 1)),
     (0x08, decide (256 < f 8 2)), (0x0A, decide (16 < f 0xA 1)), (0x0B, decide (8 < f 0xB 1)), (0x0C, decide (1024 < f 0xC 2)),
     (0x0E, f 0xE 2 == 0 || decide (512 < f 0xE 2)), (0x10, f 0x10 4 / 8 != 0),
     (0x14, code == 0 || code % 4 != 0 || decide (0xFFFFC0 < code))] ++
    (List.range 8).map (fun i => (0x18 + 4 * i, entry i)) ++ [(0x38, f 0x38 8 != 0)]
  match checks.find? (fun x => x.2) with
  | some x => some x.1
  | none => none

/-- The fields of a header. -/
def headerOf (h : List Byte) : Header :=
  { kregs := dfield h 6 1, kvregs := dfield h 7 1, ksems := dfield h 8 2, kbars := dfield h 0xA 1, ktiles := dfield h 0xB 1,
    kscr := dfield h 0xC 2, kmaxt := dfield h 0xE 2, kflags := BitVec.ofNat 3 (dfield h 0x10 4), kcode := dfield h 0x14 4,
    entries := (List.range 8).map (fun i => BitVec.ofNat 32 (dfield h (0x18 + 4 * i) 4)) }

/-- Bytes read in a region's global window, 64 at most from an aligned address; none where translation fails or the line is in
error. -/
def State.regionRead (s : State) (r : Region) (va n : Nat) : Option (List Byte) :=
  match s.translate r (va % 2 ^ 48) 0 false with
  | .ok (loc, k, pa) => if (s.badAt r.num 0 (.global loc k pa)).isSome then none else some (s.hbmRead k loc n)
  | .error _ => none

/-- Every code page of a frame is executable. -/
def State.codePages (s : State) (r : Region) (code n : Nat) : Bool :=
  (List.range ((code + n - 1) / 65536 + 1 - code / 65536)).all (fun k =>
    match s.translate r (((code / 65536 + k) * 65536) % 2 ^ 48) 3 false with
    | .ok _ => true
    | .error _ => false)

/-! ### Reservations (R21) -/

/-- A sum of a resource over the frames that hold resources on a cluster. -/
def State.held (s : State) (cl : Nat) (f : Header → Nat) : Nat := (s.boundOn cl).foldl (fun n x => n + f x.hdr) 0

/-- A cluster can supply a frame's whole reservation (log 28). -/
def State.canSupply (s : State) (cl : Nat) (h : Header) : Bool :=
  let le (f : Header → Nat) (cap : Nat) : Bool := decide (s.held cl f + f h ≤ cap)
  le (fun h => h.kregs * h.kmaxt) 8192 && le (fun h => h.kvregs * h.kmaxt) 128 && le (fun h => h.kmaxt) 512 &&
  le (fun h => h.ksems) 2048 && le (fun h => h.kbars) 32 && le (fun h => h.ktiles) 8 && le (fun h => h.kscr) 1024 &&
  decide ((s.threads.filter (fun t => t.cl == cl)).length + (s.boundOn cl).foldl (fun n f => n + s.reserve f) 0 + h.kmaxt ≤ 512)

/-! ### KBIND (14 R331, R332) -/

/-- The first of codes 8, 5, 6 and 4 on a list of clusters, with its cluster. A fenced cluster, which refuses every message, can supply
nothing until its remap (25 R444; log 68). -/
def State.clusterRefuses (s : State) (rgn : Nat) (h : Header) : List Nat → Option (Nat × Nat)
  | [] => none
  | c :: r =>
    if s.suspendedOn rgn c then some (8, c)
    else if 16 ≤ (s.boundOn c).length then some (5, c)
    else if h.kflags.getLsbD 0 && (s.boundOn c).any (fun f => f.cb.isSome) then some (6, c)
    else if s.fencedLog.contains c || !s.canSupply c h then some (4, c)
    else s.clusterRefuses rgn h r

/-- SET of a descriptor. -/
def descSet (d : List Byte) : ClSet := BitVec.ofNat 256 (dfield d 0x20 32)

/-- The status of a KBIND: code, cluster and header offset; code 0 with the header that is bound. -/
def State.bindStatus (s : State) (lvl : Level) (own : Nat) (d : List Byte) : Nat × Nat × Nat × List Byte :=
  let rgn := dfield d 5 1
  let flags := dfield d 6 2
  let hdr := dfield d 8 8
  let set := descSet d
  if flags / 4 ≠ 0 ∨ dfield d 0x10 16 ≠ 0 then (9, 0, 0, [])
  else if (flags / 2 % 2 = 1 ∧ lvl ≠ .m) ∨ flags % 4 = 3 then (11, 0, 0, [])
  else if !s.mayName lvl own rgn then (1, 0, 0, [])
  else match s.region? rgn with
    | none => (1, 0, 0, [])
    | some r =>
      let used := (List.range 64).filter (fun k => (s.anyFrameOf rgn k).isSome)
      if 64 ≤ used.length then (7, 0, 0, [])
      else if hdr % 64 ≠ 0 ∨ window (BitVec.ofNat 64 hdr) ≠ .global then (10, 0, 0, [])
      else match s.regionRead r hdr 64 with
        | none => (10, 0, 0, [])
        | some h =>
          if headerBad h ≠ some 0x14 && !s.codePages r (hdr + 64) (Nat.max 4 (Nat.min 0xFFFFC0 (dfield h 0x14 4))) then (10, 0, 0, [])
          else match headerBad h with
            | some o => (2, 0, o, [])
            | none =>
              if set = 0 then (3, 0, 0, [])
              else match lowest (fun c => !inSet r.clset c) (setList set) with
                | some c => (3, c, 0, [])
                | none =>
                  match s.clusterRefuses rgn (headerOf h) (setList set) with
                  | some (k, c) => (k, c, 0, [])
                  | none => (0, 0, 0, h)

/-- A new frame on a cluster (02 R22). -/
def newFrame (cl rgn knum : Nat) (h : Header) (hdr : Word) (lvl : Level) (set : ClSet) : Frame :=
  { cl := cl, rgn := rgn, knum := knum, hdr := h, hdrVa := hdr, level := lvl, set := set,
    sems := List.replicate h.ksems { count := 0, poison := false },
    bars := List.replicate h.kbars { init := false, n := 0, counter := 0, phase := false },
    tiles := List.replicate h.ktiles Tile.clear, scr := [], swz := [0, 0, 0, 0],
    cb := if h.kflags.getLsbD 0 then some Batcher.fresh else none, stopped := false, suspended := false, tearing := false }

/-- The lines that hold a frame's present entry points. -/
def Frame.entryLines (f : Frame) : List Nat :=
  (f.hdr.entries.filter (fun e => e != 0xFFFFFFFF#32)).map (fun e => (f.code + e.toNat) / 64 * 64)

/-- A line is pinned, with its bytes where it could be read: after a CRC mismatch it is fetched again before a bundle issues from it
(03 R67; 04 R100). -/
def State.pinI (s : State) (cl rgn line : Nat) (v : Option (BitVec 512)) : State :=
  match v with
  | some b => s.fillI cl rgn line true b
  | none => s.modClu cl (fun c => { c with icache := c.icache.filter (fun e => !(e.1 == rgn && e.2.1 == line)) ++ [(rgn, line, true, none)] })

/-- The lines of a frame's present entry points are loaded and pinned (03 R67). -/
def State.pinLines (s : State) (f : Frame) (r : Region) : State :=
  f.entryLines.foldl (fun s line =>
    match s.translate r (line % 2 ^ 48) 3 false with
    | .ok (loc, k, pa) =>
      let s1 := s.touchAt f.cl f.rgn (.global loc k pa)
      (match s.badAt f.rgn f.knum (.global loc k pa) with
       | some true => (s1.countCrc (dieOf f.cl)).pinI f.cl f.rgn line none
       | some false => (s1.countEcc (locDie loc)).pinI f.cl f.rgn line (some (BitVec.ofNat 512 (fromLE (s.hbmRead k loc 64))))
       | none => s1.pinI f.cl f.rgn line (some (BitVec.ofNat 512 (fromLE (s.hbmRead k loc 64)))))
    | .error _ => s.walkFor f.cl r (line % 2 ^ 48)) s

/-- HOLDTAG of a cluster is cleared, as by every bind, removal, suspension and resumption there (14 R308; 19 R376). -/
def State.dropTag (s : State) (cl : Nat) : State := s.modClu cl (fun c => { c with holdTag := none })

/-- HOLDTAG and the constant cache of a cluster are cleared (14 R308; 04 R81). -/
def State.clearHold (s : State) (cl : Nat) : State := (s.dropTag cl).modClu cl (fun c => { c with ccache := [] })

/-- Held fault-semaphore signals that a new frame can take (19 R366). -/
def State.deliverHeld (s : State) (f : Frame) : State :=
  match s.region? f.rgn with
  | none => s
  | some r =>
    if r.fqOwner = f.rgn ∧ r.held ≠ 0 ∧ r.fsemCl = f.cl ∧ r.fsemK = f.knum ∧ r.fsemS < f.hdr.ksems then
      (s.modRegion f.rgn (fun r => { r with held := 0, heldCls := 0 })).signal f.cl f.rgn f.knum r.fsemS r.held
    else s

/-- The frames of a kernel are created on the clusters of its set. -/
def State.bindOn (s : State) (r : Region) (mk : Nat → Frame) : List Nat → State
  | [] => s
  | c :: rest =>
    let s1 := (({ s with frames := s.frames ++ [mk c] } : State).pinLines (mk c) r).clearHold c
    (s1.deliverHeld (mk c)).bindOn r mk rest

/-- The kernel number that a KBIND gives: one of the free ones, which of them the spec leaves open (log 13). -/
def State.freeKnum (s : State) (rgn : Nat) : Nat :=
  let l := (List.range 64).filter (fun k => (s.anyFrameOf rgn k).isNone)
  nth l (s.freeVal.toNat % l.length) 0

/-- KBIND takes effect: its STATUS and KNUM, and the state after it. -/
def State.bind (s : State) (lvl : Level) (own : Nat) (d : List Byte) : Nat × Option Nat × State :=
  let x := s.bindStatus lvl own d
  let status := x.1 + 2 ^ 8 * x.2.1 + 2 ^ 16 * x.2.2.1
  match s.region? (dfield d 5 1) with
  | some r =>
    if x.1 = 0 then
      let k := s.freeKnum r.num
      let l : Level := if dfield d 6 2 / 2 % 2 = 1 then .m else if dfield d 6 2 % 2 = 1 then .s else .u
      (0, some k, s.useFree.bindOn r (fun c => newFrame c r.num k (headerOf x.2.2.2) (BitVec.ofNat 64 (dfield d 8 8)) l (descSet d)) (setList (descSet d)))
    else (status, none, s)
  | none => (status, none, s)

/-- The reads of a KBIND: its header's line, in the region that it names (14 R332; 21 R396). -/
def State.bindReads (s : State) (d : List Byte) : State :=
  match s.region? (dfield d 5 1) with
  | some r => if dfield d 8 8 % 64 = 0 ∧ window (BitVec.ofNat 64 (dfield d 8 8)) = .global then s.touchLines none r (dfield d 8 8) 1 else s
  | none => s

/-- The numbers of the teardowns in progress, which the bind arbiter ends first (R332). -/
def State.bindBusy (s : State) : List Nat := s.teardowns.map (fun t => t.id)

/-- KBIND on the descriptor in G[a]. -/
def bindEff (a : BitVec 5) (c : Ctx) (s : State) : State :=
  let after := s.scopeSet c.t.cl c.t.slot 3 ++ s.openAcq c.t ++ s.bindBusy
  let ea := c.t.getG a.toNat
  if !after.isEmpty then s.descHold c after
  else match s.checkAccess c.t.cl c.f c.r s.cur.words { descAcc ea 8 0 with align := 64 }, s.descPlaces c ea 0 8,
      s.descPlaces c ea 1 1 with
  | .error tr, _, _ => s.accessTrap c tr
  | _, .error tr, _ => s.accessTrap c tr
  | _, _, .error tr => s.accessTrap c tr
  | .ok st, .ok ps, .ok _ => s.descRead c ea ps (fun d =>
    let x := s.bind c.f.level c.t.rgn d
    let bs := statusBytes x.1 ++ (match x.2.1 with | some k => [BitVec.ofNat 8 k] | none => [])
    (x.2.2.bindReads d).descWrites c.t (c.t.limit c.t.swlim) s.cur.words [(ea, placeBytes st bs)])

/-- KBIND. -/
def execKbind (a : BitVec 5) (s : State) : Host.Outcome State Fault Refusal := issueI (.kbind a) s (bindEff a)

/-! ### KUNBIND (14 R333) -/

/-- The frames of a kernel on every cluster. -/
def State.kernelFrames (s : State) (rgn knum : Nat) : List Frame := s.frames.filter (fun f => f.rgn == rgn && f.knum == knum)

/-- The live threads of a kernel on every cluster. -/
def State.kernelThreads (s : State) (rgn knum : Nat) : List Thread := s.threads.filter (fun t => t.rgn == rgn && t.knum == knum)

/-- The first status code that applies, of 7, 1, 2, 4, 5, 3; 0 for none. -/
def State.unbindStatus (s : State) (lvl : Level) (own : Nat) (caller : Option Nat) (d : List Byte) : Nat :=
  let rgn := dfield d 5 1
  let knum := dfield d 4 1
  let fs := s.kernelFrames rgn knum
  if dfield d 6 2 / 2 ≠ 0 ∨ dfield d 0x0C 4 ≠ 0 then 7
  else if !s.mayName lvl own rgn then 1
  else if fs.isEmpty then 2
  else if own = rgn ∧ caller = some knum then 4
  else if fs.any (fun f => f.stopped) then 5
  else if !(s.kernelThreads rgn knum).isEmpty && dfield d 6 2 % 2 = 0 then 3
  else 0

/-- The commands of a kernel that have not started, those to the fabric interface port among them, are discarded, and a running
one stops at its next 64-byte line: the lines that it has not brought into the store queue, to its own window or onto the
fabric are not written, and it ends without a signal. -/
def stopsAct (rgn knum : Nat) (a : Act) : Bool :=
  match a.job with
  | .ending e => e.rgn == rgn && e.knum == knum
  | .entry e => e.rgn == rgn && e.knum == knum && e.cls == 1 && e.ack.isNone && !e.queued
  | .flight e => e.rgn == rgn && e.knum == knum && e.cls == 1 && e.ack.isNone && e.own
  | .remote r => r.rgn == rgn && r.knum == knum && !r.sent
  | .vsig r k _ _ | .piece _ r k _ _ => r == rgn && k == knum
  | .reading c _ _ => c.rgn == rgn && c.knum == knum
  | _ => false

def State.stopCommands (s : State) (rgn knum : Nat) : State :=
  { s with cmds := s.cmds.filter (fun c => !(c.rgn == rgn && c.knum == knum)), acts := s.acts.filter (fun a => !stopsAct rgn knum a) }

/-- A KUNBIND that proceeds: with FORCE its threads end; then its teardown is to come. -/
def State.unbindStart (s : State) (d : List Byte) (window : Bool) (cl slot : Nat) (ea : Word) (descPl : List Place) : State :=
  let rgn := dfield d 5 1
  let knum := dfield d 4 1
  let ts := s.kernelThreads rgn knum
  let s1 : State := { s with frames := s.frames.map (fun f => if f.rgn = rgn ∧ f.knum = knum then { f with tearing := true } else f) }
  let s2 := ts.foldl (fun s t => s.killThread t false) s1
  let s3 := if dfield d 6 2 % 2 = 1 then s2.stopCommands rgn knum else s2
  let s4 : State := { s3 with teardowns := s3.teardowns ++ [⟨s3.seq, rgn, knum, ts.length, window, cl, slot, ea, s3.cur.words, descPl⟩] }
  s4.addAct 1 cl slot [] (.kunbind rgn knum none)

/-- STATUS at the descriptor's address and LIVE 8 bytes on. -/
def unbindWrites (ea : Word) (ws : List Place) (code live : Nat) : List (Word × List (Place × Byte)) :=
  (ws.zip [(ea, statusBytes code), (ea + 8, leBytes 4 live)]).map (fun x => (x.2.1, placeBytes x.1 x.2.2))

/-- KUNBIND on the descriptor in G[a]: the thread is not ready until STATUS and LIVE are written. -/
def unbindEff (a : BitVec 5) (c : Ctx) (s : State) : State :=
  let after := s.scopeSet c.t.cl c.t.slot 3 ++ s.openAcq c.t ++ s.bindBusy
  let ea := c.t.getG a.toNat
  if !after.isEmpty then s.descHold c after
  else match s.descPlaces c ea 0 2, s.descPlaces c ea 1 2 with
  | .error tr, _ => s.accessTrap c tr
  | _, .error tr => s.accessTrap c tr
  | .ok ps, .ok ws => s.descRead c ea ps (fun d =>
    let code := s.unbindStatus c.f.level c.t.rgn (some c.t.knum) d
    if code ≠ 0 then
      let live := if code = 3 then (s.kernelThreads (dfield d 5 1) (dfield d 4 1)).length else 0
      s.descWrites c.t (c.t.limit c.t.swlim) s.cur.words (unbindWrites ea ws code live)
    else
      let s1 := s.unbindStart d false c.t.cl c.t.slot ea ws
      s1.startWait c.t.cl c.t.slot (.desc [s1.seq - 1] 0 0))

/-- KUNBIND. -/
def execKunbind (a : BitVec 5) (s : State) : Host.Outcome State Fault Refusal := issueI (.kunbind a) s (unbindEff a)

/-- The kernel's port entries have completed, its vector instructions have retired, and its queued stores have departed (R333 step 1). -/
def State.drained (s : State) (rgn knum : Nat) : Bool :=
  !s.cmds.any (fun c => c.rgn == rgn && c.knum == knum) &&
  !s.acts.any (fun a =>
    match a.job with
    | .ending e => e.rgn == rgn && e.knum == knum
    | .entry e => e.rgn == rgn && e.knum == knum && e.ack.isNone
    | .flight e => e.rgn == rgn && e.knum == knum && e.ack.isNone && e.own
    | .remote r => r.rgn == rgn && r.knum == knum && !r.sent
    | .vretire r k _ | .vsig r k _ _ => r == rgn && k == knum
    | .reading c _ _ => c.rgn == rgn && c.knum == knum
    | _ => false)

/-- The joins of a list of requests are poisoned. -/
def State.poisonJoins (s : State) : List SpawnReq → State
  | [] => s
  | r :: rest =>
    (match r.join with
     | some (jc, js) => s.poisonJoin r.target 512 jc r.rgn r.knum js
     | none => s).poisonJoins rest

/-- The requests of a kernel that no queue has admitted are dropped, on one cluster's queue or on the way (R333 step 2). -/
def State.dropSpawns (s : State) (rgn knum : Nat) : State :=
  let way := s.acts.filterMap (fun a => match a.job with | .spawn r _ => if r.rgn = rgn ∧ r.knum = knum then some r else none | _ => none)
  let queued := s.clus.flatMap (fun x => x.2.spawnq.filter (fun r => r.rgn == rgn && r.knum == knum))
  ({ s with
     acts := s.acts.filter (fun a => match a.job with | .spawn r _ => !(r.rgn == rgn && r.knum == knum) | _ => true),
     clus := s.clus.map (fun x => (x.1, { x.2 with spawnq := x.2.spawnq.filter (fun r => !(r.rgn == rgn && r.knum == knum)) })) } : State).poisonJoins
    (queued ++ way)

/-- The lines that a frame pins are released, but for those that another of its region's frames on the cluster pins; a line that
is not held any more leaves no trace (03 R67). -/
def State.unpin (s : State) (f : Frame) : State :=
  let others := s.frames.filter (fun g => g.cl == f.cl && g.rgn == f.rgn && g.knum != f.knum && !g.suspended)
  let freed (e : Nat × Nat × Bool × Option (BitVec 512)) : Bool :=
    e.1 == f.rgn && f.entryLines.contains e.2.1 && !others.any (fun g => g.entryLines.contains e.2.1)
  let rest (l : List (Nat × Nat × Bool × Option (BitVec 512))) : List (Nat × Nat × Bool × Option (BitVec 512)) :=
    (l.map (fun e => if freed e then (e.1, e.2.1, false, e.2.2.2) else e)).filter (fun e => e.2.2.1 || e.2.2.2.isSome)
  s.modClu f.cl (fun c => { c with icache := rest c.icache })

/-- Steps 2 to 5 of R333: the kernel is removed from every cluster. -/
def State.removeKernel (s : State) (rgn knum : Nat) : State :=
  let s1 := s.dropSpawns rgn knum
  let s2 := (s1.kernelFrames rgn knum).foldl (fun s f => (s.unpin f).clearHold f.cl) s1
  { s2 with frames := s2.frames.filter (fun f => !(f.rgn == rgn && f.knum == knum)) }

/-- KUNBIND_TEARDOWN (R333): the kernel is removed, and then LIVE and STATUS are written, for which the thread goes on waiting (R327);
a late failure of it parks it after that. -/
def execKunbindTeardown (id : Nat) (s : State) : Host.Outcome State Fault Refusal :=
  match s.teardowns.find? (fun t => t.id == id) with
  | none => .next s
  | some t =>
    if !s.drained t.rgn t.knum then .next s
    else
      let s1 := (({ s with teardowns := s.teardowns.filter (fun x => x.id != id) } : State).dropAct id).removeKernel t.rgn t.knum
      if t.window then
        .next { s1 with bcmd := 0, bcmdDesc := (s1.bcmdDesc &&& ~~~(0xFFFFFFFF00000000FFFFFFFF#512)) ||| BitVec.ofNat 512 (t.live * 2 ^ 64) }
      else match s1.thread? t.cl t.slot with
        | none => .next s1
        | some u =>
          if u.wait = .desc [id] 0 0 then
            .next (s1.descWrites u (u.limit u.swlim) t.words (unbindWrites t.ea t.descPl 0 t.live))
          else .next s1

end Sys2Proof.Machine
end

