-- ==== Sys2Proof/Machine/SaveBlock.lean ====
section
/-! DEFINITION. The save block of a region on a cluster: its layout, its checks and what it restores (19 R370, R375, R376,
R452, R453; 08 R181; 07 R162). -/

namespace Sys2Proof.Machine

/-! ### CRC-32C (04 R99) -/

def crcBit (c : BitVec 32) : BitVec 32 := if c.getLsbD 0 then (c >>> 1) ^^^ 0x82F63B78#32 else c >>> 1

def crcByte (c : BitVec 32) (b : Byte) : BitVec 32 := crcBit (crcBit (crcBit (crcBit (crcBit (crcBit (crcBit (crcBit (c ^^^ b.setWidth 32))))))))

/-- CRC-32C of bytes. -/
def crc32c (bs : List Byte) : BitVec 32 := ~~~(bs.foldl crcByte (BitVec.allOnes 32))

/-! ### Writing -/

/-- Zeros up to a multiple of 64 bytes. -/
def pad64 (b : List Byte) : List Byte := b ++ leBytes ((64 - b.length % 64) % 64) 0

/-- A pending spawn request (R452). -/
def SpawnReq.bytes (r : SpawnReq) : List Byte :=
  leBytes 1 r.knum ++ leBytes 1 r.entry ++
  leBytes 1 ((if r.join.isSome then 1 else 0) + (if r.origin = 1 then 2 else if r.origin = 2 then 4 else 0)) ++ leBytes 1 r.bpri.toNat ++
  leBytes 1 (match r.join with | some j => j.1 | none => 0) ++ leBytes 1 (match r.join with | some j => j.2 | none => 0) ++ leBytes 2 0 ++
  (List.range 4).flatMap (fun k => leBytes 8 (nth r.args k 0).toNat) ++ leBytes 4 r.swlim.toNat ++ leBytes 4 r.spwlim.toNat ++ leBytes 16 0

/-- STATE, TARGET, N, LIMIT and SLEEP of a thread's wait (R375, R453); its limits count what is left. -/
def waitFields : Wait → Nat × Nat × Nat × Nat × Nat
  | .none => (0, 0, 0, 0, 0)
  | .parked => (1, 0, 0, 0, 0)
  | .sem k n _ u _ => (2, k, n, u, 0)
  | .ring _ k n _ u _ => (3, k, n, u, 0)
  | .bar b _ _ u _ => (4, b, 0, u, 0)
  | .sleep u => (5, 0, 0, 0, u)
  | .store _ _ u _ => (6, 0, 0, u, 0)
  | .spawn _ u => (6, 1, 0, u, 0)
  | .vwait => (0, 0, 0, 0, 0)
  | .fence _ _ _ => (7, 0, 0, 0, 0)
  | .release _ => (7, 0, 0, 0, 0)
  | .desc _ u _ => (6, 0, 0, u, 0)
  | .quit => (0, 0, 0, 0, 0)

/-- The place of a wait in the order of its waiters. -/
def waitOrd : Wait → Option Nat
  | .sem _ _ _ _ o | .ring _ _ _ _ _ o | .bar _ _ _ _ o | .store _ _ _ o => some o
  | _ => none

/-- Two waits stand in one waiter list. -/
def Wait.meets : Wait → Wait → Bool
  | .sem a .., .sem b .. => a == b
  | .sem a .., .ring _ b .. => a == b || a == b + 1
  | .ring _ a .., .sem b .. => b == a || b == a + 1
  | .ring _ a .., .ring _ b .. => a == b
  | .bar a .., .bar b .. => a == b
  | _, _ => false

/-- The blocked store requests of a cluster, each with its place in the order of 04 R90: blocked threads, and descriptor instructions
with a write that has found no entry (14 R327). -/
def State.blockedRequests (s : State) (cl : Nat) : List Nat :=
  s.threads.filterMap (fun u =>
    if u.cl = cl then
      match u.wait with
      | .store _ _ _ o => some o
      | .desc after _ _ => lowest (fun i => (s.sqEntries cl).any (fun x => x.1.id == i && !x.2.queued)) after
      | _ => none
    else none)

/-- ORDER: waiters of the same semaphore or barrier that come before, or the cluster's blocked store requests, of whatever
region (R453). -/
def State.waitOrder (s : State) (t : Thread) : Nat :=
  match t.wait, waitOrd t.wait with
  | .store .., some o => ((s.blockedRequests t.cl).filter (fun p => decide (p < o))).length
  | _, some o =>
    (s.threads.filter (fun u => u.cl == t.cl && u.rgn == t.rgn && u.knum == t.knum &&
      u.wait.meets t.wait && (match (waitOrd u.wait) with | some p => decide (p < o) | none => false))).length
  | _, none => 0

/-- A thread before its last bundle: of a pair whose A-class word has written its results, with what stood there before, so that the
whole pair issues again and each word reads what it read (10 R199; log 20). -/
def Thread.undo (t : Thread) : Thread :=
  match t.pre with
  | some b =>
    { b.p.foldl (fun u x => u.setP x.1 x.2) (b.g.foldl (fun u x => u.setG x.1 x.2) t) with pc := t.ipc - 4, soloC := false, pre := none }
  | none => { t with pc := t.ipc, soloC := t.isolo }

/-- A thread whose bundle is issued again after the resumption: blocked, in a fence, or in the last wait of its QUIT (R376;
log 20). -/
def Thread.rewind (t : Thread) : Thread :=
  match t.wait with
  | .store .. | .spawn .. | .fence .. | .release _ | .desc .. | .vwait | .quit => t.undo
  | _ => t

/-- A thread record (R375, R453). -/
def State.threadRecord (s : State) (f : Frame) (t : Thread) : List Byte :=
  let w := waitFields t.wait
  leBytes 2 t.slot ++ leBytes 1 w.1 ++ leBytes 1 0 ++ leBytes 4 w.2.1 ++ leBytes 8 w.2.2.1 ++ leBytes 8 w.2.2.2.1 ++ leBytes 4 (s.waitOrder t) ++
  leBytes 4 0 ++ leBytes 8 w.2.2.2.2 ++ leBytes 24 0 ++ t.rewind.imageBytes f.level 0 (imageSize f / 8)

/-- A record of four words as bytes. -/
def constraintBytes (c : Constraint) : List Byte := leBytes 16 c.toNat

/-- HEAD (08 R181). -/
def Batcher.head (b : Batcher) : Nat := match b.stream with | x :: _ => x.1 | [] => b.nextIndex

/-- The batcher image (08 R181); FLIGHT and COUNT of a slot without a flight are 0, and so are FMAX, the list base and the flight
semaphore of a batcher that is not configured (log 72). -/
def Batcher.image (b : Batcher) : List Byte :=
  let fl (k : Nat) : Option Flight := b.flights.find? (fun f => f.slot == k)
  let span := b.nextIndex - b.head
  leBytes 2 b.fmax ++ leBytes 1 ((if b.cfg then 1 else 0) + (if b.closed then 2 else 0) + (if b.endsig then 4 else 0)) ++ leBytes 1 (b.out + 16 * b.pub) ++
  leBytes 4 b.base ++ leBytes 1 b.fsem ++ leBytes 3 0 ++ leBytes 4 b.nextIndex ++ leBytes 4 b.head ++ leBytes 4 b.formed.toNat ++
  (List.range 4).flatMap (fun k => leBytes 4 (match fl k with | some f => f.number.toNat | none => 0)) ++
  (List.range 4).flatMap (fun k => leBytes 2 (match fl k with | some f => f.members.length | none => 0)) ++ leBytes 16 0 ++
  (List.range 4096).flatMap (fun e =>
    if span ≤ e then leBytes 16 0
    else match b.stream.find? (fun x => x.1 == b.head + e) with
      | some x => constraintBytes x.2
      | none => constraintBytes (BitVec.allOnes 128)) ++
  (List.range 4).flatMap (fun k =>
    let m := match fl k with | some f => f.members | none => []
    (m.flatMap (fun x => constraintBytes x.2)) ++ leBytes (16 * (1024 - m.length)) 0)

/-- The parts of a frame record of fixed size (R375): the header's address, SWZ0 to SWZ3, semaphores and barriers. -/
def Frame.saveHead (f : Frame) : List Byte :=
  pad64 (leBytes 1 f.knum ++ leBytes 7 0 ++ leBytes 8 f.hdrVa.toNat) ++ pad64 (f.swz.flatMap (fun w => leBytes 8 w.toNat)) ++
  pad64 (f.sems.flatMap (fun v => leBytes 4 (v.count.toNat + (if v.poison then 65536 else 0)))) ++
  pad64 (f.bars.flatMap (fun b => leBytes 8 (b.n + 65536 * b.counter + (if b.phase then 2 ^ 32 else 0))))

/-- A frame record (R375). -/
def Frame.record (f : Frame) (reqs : List SpawnReq) : List Byte :=
  f.saveHead ++ pad64 (leBytes 4 reqs.length) ++ reqs.flatMap SpawnReq.bytes ++ f.tiles.flatMap Tile.image ++
  (match f.cb with | some b => b.image | none => []) ++ memRead f.scr 0 (f.hdr.kscr * 4096)

/-- The frames of a region on a cluster. -/
def State.framesOn (s : State) (cl rgn : Nat) : List Frame := s.frames.filter (fun f => f.cl == cl && f.rgn == rgn)

/-- The threads of a region on a cluster. -/
def State.threadsOn (s : State) (cl rgn : Nat) : List Thread := s.threads.filter (fun t => t.cl == cl && t.rgn == rgn)

/-- The record of a frame and those of its threads. -/
def State.frameSave (s : State) (f : Frame) : List Byte :=
  f.record ((s.clu f.cl).spawnq.filter (fun r => r.rgn == f.rgn && r.knum == f.knum)) ++ (s.live f).flatMap (s.threadRecord f)

/-- The frame directory's entries, and the parts after it; `at_` is the offset of the next part. -/
def State.saveParts (s : State) : List Frame → Nat → List Byte × List Byte
  | [], _ => ([], [])
  | f :: r, at_ =>
    let b := s.frameSave f
    let x := s.saveParts r (at_ + b.length)
    (leBytes 1 f.knum ++ leBytes 3 0 ++ leBytes 4 (s.live f).length ++ leBytes 8 at_ ++ x.1, b ++ x.2)

/-- The save block of a region on a cluster (R375). -/
def State.saveBlock (s : State) (cl rgn saveseq : Nat) : List Byte :=
  let fs := s.framesOn cl rgn
  let x := s.saveParts fs 0x140
  let body := x.1 ++ leBytes (256 - x.1.length) 0 ++ x.2
  leBytes 4 0x4B425653 ++ leBytes 2 1 ++ leBytes 1 cl ++ leBytes 1 rgn ++ leBytes 8 saveseq ++ leBytes 8 (64 + body.length) ++
    leBytes 4 fs.length ++ leBytes 4 (crc32c body).toNat ++ leBytes 32 0 ++ body

/-- The address of a region's save block of a cluster, or its offset in the host aperture, by the save-area base in force when
its last suspend was accepted (R375; 22 R407, R409). -/
def State.blockVa (s : State) (r : Region) (cl : Nat) : Nat := getK (s.clu cl).savebases r.num r.savebase + cl * 0x1000000

/-- The place of a line of a region's save area; none where an access of the kind fails. -/
def State.saveLine (s : State) (r : Region) (va kind : Nat) : Option Place :=
  if field r.modes 12 2 = 2 then (if va + 64 ≤ r.apsize then some (.host (r.apbase + va)) else none)
  else match s.translate r (va % 2 ^ 48) kind false with
    | .ok (loc, k, pa) => if kind = 0 ∧ (s.badAt r.num 0 (.global loc k pa)).isSome then none else some (.global loc k pa)
    | .error _ => none

/-- The places of n lines from an address up. -/
def State.saveLines (s : State) (r : Region) (va kind : Nat) : Nat → Option (List Place)
  | 0 => some []
  | n + 1 =>
    match s.saveLine r va kind with
    | none => none
    | some p =>
      match s.saveLines r (va + 64) kind n with
      | none => none
      | some ps => some (p :: ps)

/-- The system-class entry of one line of a save block (04 R83, R96). -/
def saveEntry (rgn : Nat) (p : Place) (bs : List Byte) : Entry :=
  { cls := 2, line := p, mask := maskOf (offBytes 0 bs), kind := .data (offBytes 0 bs), release := false, ea := 0, i1 := 0, words := 0,
    rgn := rgn, knum := 0xFF, ack := none, mcast := [], note := none, sealed := true, queued := true }

/-- The lines of a block go to the store queue of the cluster, each behind some work, as entries or as requests for one. -/
def State.saveLinesOut (s : State) (rgn cl : Nat) (after : List Nat) : List Place → List Byte → State
  | [], _ => s
  | p :: r, bs =>
    ((s.walkedAt cl rgn p).pushEntry cl 512 after { saveEntry rgn p (bs.take 64) with queued := s.sqFree cl 2 }).saveLinesOut rgn cl after r (bs.drop 64)

/-- The writes of a block's parts are on their way, the header's behind every other; none where a line fails the checks of its
access (R374, R375; 04 R96). -/
def State.writeBlock (s : State) (r : Region) (cl : Nat) (bs : List Byte) : Option State :=
  match s.saveLines r (s.blockVa r cl) 1 ((bs.length + 63) / 64) with
  | some (h :: ps) =>
    let s1 := s.saveLinesOut r.num cl [] ps (bs.drop 64)
    let body := (List.range ps.length).map (fun k => s.seq + k)
    let s2 := s1.saveLinesOut r.num cl body [h] (bs.take 64)
    some (s2.modClu cl (fun c => { c with saving := body ++ [s1.seq], saveBad := false, phase := 3 }))
  | _ => none

/-! ### Reading -/

/-- A block that passes the checks of R376: MAGIC, FORMAT, LCL, REGION, LENGTH and CRC. -/
def State.readBlock (s : State) (r : Region) (cl : Nat) : Option (List Byte) :=
  match s.saveLines r (s.blockVa r cl) 0 1 with
  | none => none
  | some ps =>
    let h := ps.flatMap (fun p => s.readAt r.num 0 p 64)
    let len := dfield h 0x10 8
    if dfield h 0 4 ≠ 0x4B425653 ∨ dfield h 4 2 ≠ 1 ∨ dfield h 6 1 ≠ cl ∨ dfield h 7 1 ≠ r.num ∨ len < 0x140 ∨ 0x1000000 < len then none
    else match s.saveLines r (s.blockVa r cl) 0 ((len + 63) / 64) with
      | none => none
      | some qs =>
        let b := (qs.flatMap (fun p => s.readAt r.num 0 p 64)).take len
        if (crc32c (b.drop 64)).toNat = dfield b 0x1C 4 then some b else none

/-- The lines that the checks of a block read: its header, and the rest where the header passes (19 R376). -/
def State.blockLines (s : State) (r : Region) (cl : Nat) : Nat :=
  match s.saveLines r (s.blockVa r cl) 0 1 with
  | none => 1
  | some ps =>
    let h := ps.flatMap (fun p => s.readAt r.num 0 p 64)
    let len := dfield h 0x10 8
    if dfield h 0 4 ≠ 0x4B425653 ∨ dfield h 4 2 ≠ 1 ∨ dfield h 6 1 ≠ cl ∨ dfield h 7 1 ≠ r.num ∨ len < 0x140 ∨ 0x1000000 < len then 1
    else (len + 63) / 64

/-- The reads of a save block in global memory, by the cluster or by the SMC: translated, with their rows activated and their errors
counted (04 R100; 21 R390, R396; 25 R447). -/
def State.touchBlock (s : State) (who : Option Nat) (r : Region) (cl : Nat) : State :=
  if field r.modes 12 2 = 2 then s else s.touchLines who r (s.blockVa r cl) (s.blockLines r cl)

/-- A saved thread: its slot, the fields of its head and its image. -/
structure SavedThread where
  slot : Nat
  state : Nat
  target : Nat
  n : Nat
  limit : Nat
  order : Nat
  sleep : Nat
  image : List Byte
  deriving DecidableEq, Repr

/-- A saved frame: its contents, its pending spawns and its threads. -/
structure SavedFrame where
  f : Frame
  reqs : List SpawnReq
  ts : List SavedThread
  deriving DecidableEq, Repr

/-- A pending spawn request of a block (R452). -/
def spawnOf (rgn cl : Nat) (b : List Byte) : SpawnReq :=
  { rgn := rgn, knum := dfield b 0 1, target := cl, entry := dfield b 1 1, args := (List.range 4).map (fun k => BitVec.ofNat 64 (dfield b (8 + 8 * k) 8)),
    join := if dfield b 2 1 % 2 = 1 then some (dfield b 4 1, dfield b 5 1) else none, bpri := BitVec.ofNat 3 (dfield b 3 1),
    swlim := BitVec.ofNat 32 (dfield b 0x28 4), spwlim := BitVec.ofNat 32 (dfield b 0x2C 4),
    origin := if dfield b 2 1 / 2 % 2 = 1 then 1 else if dfield b 2 1 / 4 % 2 = 1 then 2 else 0 }

/-- Inserts a flight into a list from the oldest to the newest; numbers count up and wrap (08 R173). -/
def insertFlight (formed : BitVec 32) (x : Flight) : List Flight → List Flight
  | [] => [x]
  | y :: r => if (formed - y.number).toNat < (formed - x.number).toNat then x :: y :: r else y :: insertFlight formed x r

/-- The batcher of an image (08 R181): the claimed set follows from the body copies, and the flights stand in the order of their
numbers, whatever slots they hold. FMAX and the limits of flights are taken as they stand (log 81). -/
def batcherOf (b : List Byte) : Batcher :=
  let fl := dfield b 2 1
  let head := dfield b 0x10 4
  let next := dfield b 0x0C 4
  let entry (k : Nat) : Constraint := BitVec.ofNat 128 (dfield b (0x40 + 16 * k) 16)
  { cfg := decide (fl % 2 = 1), closed := decide (fl / 2 % 2 = 1), endsig := decide (fl / 4 % 2 = 1), fmax := dfield b 0 2, base := dfield b 4 4,
    fsem := dfield b 8 1, nextIndex := next, formed := BitVec.ofNat 32 (dfield b 0x14 4),
    stream := (List.range (next - head)).filterMap (fun k => if entry k = BitVec.allOnes 128 then none else some (head + k, entry k)),
    flights := ((List.range 4).filterMap (fun k =>
      if dfield b 3 1 / 2 ^ k % 2 = 1 then
        some { slot := k, number := BitVec.ofNat 32 (dfield b (0x18 + 4 * k) 4),
               members := (List.range (dfield b (0x28 + 2 * k) 2)).map (fun e => (e, BitVec.ofNat 128 (dfield b (0x10040 + 16384 * k + 16 * e) 16))),
               published := true, taken := decide (dfield b 3 1 / 2 ^ (4 + k) % 2 = 0), writes := [] }
      else none)).foldr (insertFlight (BitVec.ofNat 32 (dfield b 0x14 4))) [],
    forming := false }

/-- Cells of a window from its bytes: the bytes that are not zero. -/
def cellsOf : List Byte → Nat → List Host.Cell
  | [], _ => []
  | b :: r, a => if b = 0 then cellsOf r (a + 1) else (a, b) :: cellsOf r (a + 1)

/-- Rounds up to a multiple of 64. -/
def up64 (n : Nat) : Nat := (n + 63) / 64 * 64

/-- A frame from its record, by the layout of R375, with the number of bytes the record takes. -/
def Frame.restore (f : Frame) (b : List Byte) : Frame × List SpawnReq × Nat :=
  let oSem := 128
  let oBar := oSem + up64 (4 * f.hdr.ksems)
  let oReq := oBar + up64 (8 * f.hdr.kbars)
  let nReq := dfield b oReq 4
  let oTile := oReq + 64 + 64 * nReq
  let oCb := oTile + 103232 * f.hdr.ktiles
  let oScr := oCb + (if f.cb.isSome then 131136 else 0)
  let g : Frame := { f with
    swz := (List.range 4).map (fun k => BitVec.ofNat 64 (dfield b (64 + 8 * k) 8)),
    sems := (List.range f.hdr.ksems).map (fun k =>
      let v := dfield b (oSem + 4 * k) 4
      { count := BitVec.ofNat 16 v, poison := decide (v / 65536 % 2 = 1) }),
    bars := (List.range f.hdr.kbars).map (fun k =>
      let v := dfield b (oBar + 8 * k) 8
      { init := decide (v % 1024 ≠ 0), n := v % 1024, counter := v / 65536 % 1024, phase := decide (v / 2 ^ 32 % 2 = 1) }),
    tiles := (List.range f.hdr.ktiles).map (fun k => tileOf ((b.drop (oTile + 103232 * k)).take 103232)),
    cb := if f.cb.isSome then some (batcherOf ((b.drop oCb).take 131136)) else none,
    scr := cellsOf ((b.drop oScr).take (f.hdr.kscr * 4096)) 0, stopped := false, suspended := false }
  (g, (List.range nReq).map (fun k => spawnOf f.rgn f.cl ((b.drop (oReq + 64 + 64 * k)).take 64)), oScr + f.hdr.kscr * 4096)

/-- n thread records, with the slots that they name and however many the block counts (log 81). -/
def savedThreads (f : Frame) (b : List Byte) : Nat → List SavedThread
  | 0 => []
  | n + 1 =>
    ⟨dfield b 0 2, dfield b 2 1, dfield b 4 4, dfield b 8 8, dfield b 0x10 8, dfield b 0x18 4, dfield b 0x20 8, (b.drop 64).take (imageSize f)⟩ ::
      savedThreads f (b.drop (64 + imageSize f)) n

/-- Directory entry k of a block, restored into the frame that is bound. -/
def State.savedFrame (s : State) (cl rgn : Nat) (b : List Byte) (k : Nat) : Option SavedFrame :=
  let e := (b.drop (64 + 16 * k)).take 16
  match s.frame? cl rgn (dfield e 0 1) with
  | none => none
  | some f =>
    let p := b.drop (dfield e 8 8)
    let x := f.restore p
    if dfield p 0 1 ≠ f.knum ∨ dfield p 8 8 ≠ f.hdrVa.toNat then none
    else some ⟨x.1, x.2.1, savedThreads f (p.drop x.2.2) (dfield e 4 4)⟩

/-- The frames of a block, one for each frame that is bound; none where they differ. -/
def State.savedFrames (s : State) (cl rgn : Nat) (b : List Byte) : Option (List SavedFrame) :=
  let n := dfield b 0x18 4
  let l := (List.range n).filterMap (s.savedFrame cl rgn b)
  if l.length = n ∧ n = (s.framesOn cl rgn).length ∧ (s.framesOn cl rgn).all (fun f => l.any (fun x => x.f.knum == f.knum)) then some l else none

/-- A wait limit of what is left, from now on; 0 is no limit. -/
def leftFrom (now n : Nat) : Nat := if n = 0 then 0 else now + n

/-- Entry k of the replay queue of a context image (19 R370). The bundle's words and its pending register have no place in
it: they are those of the entry that the device keeps, if it is the same one, else they follow from the word (log 27). -/
def replayOf (b : List Byte) (kept : List Captured) (k : Nat) : Option Captured :=
  let o := 0x180 + 48 * k
  let w := BitVec.ofNat 32 (dfield b o 4)
  let off := BitVec.ofNat 32 (dfield b (o + 4) 4)
  let st := BitVec.ofNat 64 (dfield b (o + 8) 4)
  match decodeWord w with
  | .error _ => none
  | .ok i =>
    let old := kept[k]?
    some { instr := i, word := w,
           words := (match old with
             | some x => if x.word = w ∧ x.offset = off then x.words else w.setWidth 64
             | none => w.setWidth 64),
           offset := off, vtype := BitVec.ofNat 4 (field st 4 4), grp := BitVec.ofNat 2 (field st 2 2), vl := field st 16 15,
           vfcsr := BitVec.ofNat 64 (dfield b (o + 12) 4), swz := BitVec.ofNat 64 (dfield b (o + 16) 8),
           ga := BitVec.ofNat 64 (dfield b (o + 24) 8), gb := BitVec.ofNat 64 (dfield b (o + 32) 8), pendReg := vecDst i }

/-- The pending bits that the entries of a replay queue set. -/
def replayPend (l : List Captured) : BitVec 32 :=
  l.foldl (fun m c => match c.pendReg with | some d => if d = 0 then m else setBit m d.toNat true | none => m) 0

/-- A whole context image taken into a thread, its read-only fields too (R376; R370). A pending bit stays where its result
can still come: from the replay queue, or from work that the device keeps for the thread (log 27). -/
def Thread.loadImage (u : Thread) (b : List Byte) (seq n : Nat) : Thread :=
  let misc := BitVec.ofNat 64 (dfield b 8 8)
  let st := BitVec.ofNat 64 (dfield b 0x20 8)
  let q := (List.range (Nat.min 16 (dfield b 0x68 1 % 32))).filterMap (replayOf b u.replay)
  let t := ({ u with allot := 8 * (field misc 4 2 + 1), pendG := 0, pendP := 0, replay := [] } : Thread).putBytes 0 b seq n
  { t with
    pendG := BitVec.ofNat 32 (dfield b 0x10 4) &&& (u.pendG ||| replayPend q)
    pendP := BitVec.ofNat 8 (field misc 16 8) &&& u.pendP
    vtype := BitVec.ofNat 4 (field st 4 4), grp := BitVec.ofNat 2 (field st 2 2), vl := field st 16 15
    wcode := BitVec.ofNat 3 (dfield b 0x38 1), barph := BitVec.ofNat 16 (dfield b 0x70 2)
    replay := q, vstop := u.vstop || !q.isEmpty }

/-- A saved thread restored over what its block has no place for (R376, R453; log 27): a thread in state 6 or 7 issues its blocked
bundle again; its next issue comes no sooner after its last one than
without the suspension (03 R51). -/
def SavedThread.restore (x : SavedThread) (f : Frame) (u : Thread) (now seq : Nat) : Thread :=
  let t0 := u.rewind.loadImage x.image seq (imageSize f / 8)
  let t : Thread :=
    if t0.pc = u.rewind.pc then { t0 with left := if x.state = 6 then x.limit else 0 } else { t0 with soloC := false }
  let u_ := leftFrom now x.limit
  let o := match (waitOrd t.wait) with | some o => o | none => seq + x.order
  let w : Wait :=
    match x.state with
    | 1 => .parked
    | 2 => .sem x.target x.n (match t.wait with | .sem _ _ lim _ _ => lim | _ => BitVec.ofNat 64 x.limit) u_ o
    | 3 =>
      (match t.wait with
       | .ring p _ _ lim _ _ => .ring p x.target x.n lim u_ o
       | _ => .ring 0 x.target x.n (BitVec.ofNat 64 x.limit) u_ o)
    | 4 =>
      (match t.wait with
       | .bar _ sy lim _ _ => .bar x.target sy lim u_ o
       | _ => .bar x.target false (BitVec.ofNat 64 x.limit) u_ o)
    | 5 => .sleep (now + x.sleep)
    | _ => .none
  { t with wait := w, w := 0, nextIssue := now + Nat.min 8 u.nextIssue, vstop := t.vstop && x.state != 0 }

/-! ### Limits that stand still (02 R46; 19 R376) -/

/-- A wait's limits and sleep at another pulse. -/
def Wait.retime (g : Nat → Nat) : Wait → Wait
  | .sem k n lim u o => .sem k n lim (if u = 0 then 0 else g u) o
  | .ring p k n lim u o => .ring p k n lim (if u = 0 then 0 else g u) o
  | .bar b sy lim u o => .bar b sy lim (if u = 0 then 0 else g u) o
  | .sleep u => .sleep (g u)
  | .store e d u o => .store e d (if u = 0 then 0 else g u) o
  | .spawn id u => .spawn id (if u = 0 then 0 else g u)
  | .desc a u o => .desc a (if u = 0 then 0 else g u) o
  | w => w

/-- The pulse at which a wait ends of itself, and the event of it. -/
def waitExpiry (cl slot : Nat) : Wait → Option (Nat × Instr)
  | .sem _ _ _ u _ | .ring _ _ _ _ u _ | .bar _ _ _ u _ => if u = 0 then none else some (u, .waitLimitExpiry cl slot)
  | .sleep u => some (u, .sleepExpiry cl slot)
  | .store _ _ u _ | .desc _ u _ => if u = 0 then none else some (u, .swlimExpiry cl slot)
  | .spawn _ u => if u = 0 then none else some (u, .spwlimExpiry cl slot)
  | _ => none

/-! ### Restoring -/

/-- Reservations for frames, one after the other (R376; 02 R21). -/
def State.canReserve (s : State) (cl : Nat) : List Frame → Bool
  | [] => true
  | f :: r =>
    (s.boundOn cl).length < 16 && s.canSupply cl f.hdr && !(f.cb.isSome && (s.boundOn cl).any (fun g => g.cb.isSome)) &&
      State.canReserve (s.modFrame cl f.rgn f.knum (fun g => { g with suspended := false })) cl r

/-- What the device keeps of a saved thread. -/
def State.awayOf (s : State) (f : Frame) (slot : Nat) : Thread :=
  match s.away.find? (fun t => t.cl == f.cl && t.slot == slot && t.rgn == f.rgn && t.knum == f.knum) with
  | some t => t
  | none => Thread.start f.cl slot f.rgn f.knum f.hdr.kregs f.hdr.kvregs 0

/-- One frame is restored: its contents, its requests and its threads; entry lines are pinned and HOLDTAG is cleared. What R376 does not
check is restored as it stands: a slot above 511 or named twice, more threads than KMAXT, an FMAX above 1,024 (log 81). -/
def State.restoreFrame (s : State) (r : Region) (x : SavedFrame) : State :=
  let ts := x.ts.map (fun y => y.restore x.f (s.awayOf x.f y.slot) (s.pulse x.f.cl) s.seq)
  let s1 : State := { s with seq := s.seq + 1024, threads := s.threads ++ ts }
  let s2 := s1.modFrame x.f.cl x.f.rgn x.f.knum (fun _ => x.f)
  (((s2.modClu x.f.cl (fun c => { c with spawnq := c.spawnq ++ x.reqs })).pinLines x.f r).dropTag x.f.cl).tick Config.admission x.f.cl 0
    (.spawnAdmission x.f.cl)

def State.restoreFrames (s : State) (r : Region) : List SavedFrame → State
  | [] => s
  | x :: l => (s.restoreFrame r x).restoreFrames r l

end Sys2Proof.Machine
end

