-- ==== Sys2Proof/Machine/Preempt.lean ====
section
/-! DEFINITION. RGNCTL and RGNSTAT, suspension, resumption and kill (19 R372 to R379; 05 R120; 02 R45). -/

namespace Sys2Proof.Machine

/-! ### The registers (R372, R373) -/

/-- CMD of RGNCTL: 4 to 7 count as 0. -/
def rgnCmd (v : Word) : Nat := if field v 0 3 ≤ 3 then field v 0 3 else 0

/-- The fields of RGNCTL that hold a value: REGION, SIGEN and SEM. -/
def rgnctlMask : Word := 0x0000FF0080FF0000#64

/-- RGNSTAT. -/
def State.rgnstat (s : State) (cl : Nat) : Word :=
  let k := s.clu cl
  BitVec.ofNat 64 ((if k.rej then 2 ^ 56 else 0) + 2 ^ 48 * k.statRegion + 2 ^ 40 * k.result + 2 ^ 32 * k.phase + 2 ^ 16 * k.fqlost +
    (if s.fsemHold cl then 2 else 0) + (if s.fqStall cl then 1 else 0))

/-- A command of a cluster is in progress. -/
def State.rgnBusy (s : State) (cl : Nat) : Bool := field (s.clu cl).rgnctl 0 3 != 0

/-- A command ends with a result; with SIGEN and a valid SEM the writer's frame is signalled (R372). -/
def State.endRgn (s : State) (cl result : Nat) : State :=
  let k := s.clu cl
  let s1 := s.modClu cl (fun k => { k with rgnctl := k.rgnctl &&& rgnctlMask, result := result, phase := 0, writer := none })
  match k.writer with
  | some (rgn, knum) =>
    match s.frame? cl rgn knum with
    | some f =>
      if bitOf k.rgnctl 31 ∧ field k.rgnctl 16 8 < f.hdr.ksems then
        s1.addAct Config.signalLocal cl 512 [] (.signal cl rgn knum (field k.rgnctl 16 8) 1 false)
      else s1
    | none => s1
  | none => s1

/-- The region and its descendants (02 R15). -/
def State.family (s : State) (rgn : Nat) : List Nat := (s.regions.filter (fun r => s.within rgn 4 r.num)).map (fun r => r.num)

/-- The result that refuses a command, 0 for none: 6, 2, 3, 4, 5 (R373, R379). -/
def State.rgnRefusal (s : State) (c : Ctx) (v : Word) (cmd : Nat) : Nat :=
  let rgn := field v 40 8
  let fs := s.framesOn c.t.cl rgn
  if rgn = c.t.rgn then 6
  else match s.region? rgn with
    | none => 2
    | some r =>
      if (c.f.level ≠ .m ∧ ¬s.within c.t.rgn 4 rgn) ∨ (bitOf v 31 ∧ c.f.hdr.ksems ≤ field v 16 8) then 2
      else if cmd = 3 then 0
      else if fs.isEmpty ∨ r.killing then 3
      else if (cmd = 1 ∧ fs.any (fun f => f.suspended)) ∨ (cmd = 2 ∧ ¬fs.any (fun f => f.stopped)) then 4
      else if r.savebase = 0 then 5
      else 0

/-- The region is no longer resident on the cluster: its threads issue nothing more, their limits and issue intervals stand still
as what is left of them, and HOLDTAG is cleared (R374 item 1; 02 R46; 03 R51; 14 R308). -/
def State.stopRegion (s : State) (cl rgn : Nat) : State :=
  let n := s.pulse cl
  ({ s with
    frames := s.frames.map (fun f => if f.cl = cl ∧ f.rgn = rgn then { f with stopped := true } else f),
    threads := s.threads.map (fun t =>
      if t.cl = cl ∧ t.rgn = rgn ∧ ¬s.frozen t then
        { t with wait := t.wait.retime (fun u => Nat.max 1 (u - n)), nextIssue := t.nextIssue - n }
      else t) } : State).dropTag cl

/-- The save-area base of a suspend: the region's at its acceptance (22 R409). -/
def State.noteBase (s : State) (cl rgn : Nat) : State :=
  match s.region? rgn with
  | some r => s.modClu cl (fun k => { k with savebases := setK k.savebases rgn r.savebase })
  | none => s

/-- A region and its descendants are being killed: no suspend or resume of them is taken any more (R379). -/
def State.markKilling (s : State) (rgn : Nat) : State :=
  let fam := s.family rgn
  { s with regions := s.regions.map (fun r => if fam.contains r.num then { r with killing := true } else r) }

/-- An accepted command starts. -/
def State.startRgn (s : State) (cl cmd rgn : Nat) : State :=
  let ph (n : Nat) : State := s.modClu cl (fun k => { k with phase := n })
  if cmd = 1 then (((ph 1).stopRegion cl rgn).noteBase cl rgn).tick 1 cl 512 (.rgnctlSuspend cl)
  else if cmd = 2 then (ph 3).tick 1 cl 512 (.rgnctlResume cl)
  else ((ph 4).markKilling rgn).tick 1 cl 512 (.rgnctlKill cl)

/-- A write of RGNCTL (R372). -/
def State.writeRgnctl (s : State) (c : Ctx) (v : Word) : State :=
  let cl := c.t.cl
  let cmd := rgnCmd v
  if s.rgnBusy cl then (if cmd = 0 then s else s.modClu cl (fun k => { k with rej := true }))
  else
    let s1 := s.modClu cl (fun k => { k with rgnctl := (v &&& rgnctlMask) ||| BitVec.ofNat 64 cmd, rej := false, writer := some (c.t.rgn, c.t.knum) })
    if cmd = 0 then s1
    else
      let s2 := s1.modClu cl (fun k => { k with statRegion := field v 40 8, result := 1, phase := 0 })
      if s.rgnRefusal c v cmd = 0 then s2.startRgn cl cmd (field v 40 8) else s2.endRgn cl (s.rgnRefusal c v cmd)

/-! ### Suspension (R374, R375) -/

/-- A command of a kind in progress on a cluster, with its region. -/
def State.rgnRuns (s : State) (cl cmd : Nat) : Option Nat :=
  if field (s.clu cl).rgnctl 0 3 = cmd then some (s.clu cl).statRegion else none

/-- RGNCTL_SUSPEND: issue has stopped, and the region drains (R374). -/
def execRgnctlSuspend (cl : Nat) (s : State) : Host.Outcome State Fault Refusal :=
  .next (match s.rgnRuns cl 1 with
    | some _ => s.modClu cl (fun k => { k with phase := 2 })
    | none => s)

/-- A piece of work that a save waits for: commands that have not started or completed, those of threads that have ended among them,
results, writes on their way and the
releases behind them, and records (R374 items 1 and 2; 03 R65; 05 R121). What a suspended cluster holds back stays in flight
(02 R45), as does what waits for an answer from the fabric (05 R118). -/
def State.actHolds (s : State) (cl rgn : Nat) (a : Act) : Bool :=
  let mine : Bool := match s.thread? a.cl a.slot with | some t => t.rgn == rgn | none => false
  let up (pl : Place) : Bool := match s.thread? a.cl a.slot with | some t => s.placeUp rgn t.knum pl | none => false
  a.cl == cl &&
  (match a.job with
   | .ending e => e.rgn == rgn
   | .entry e => e.rgn == rgn && e.ack.isNone
   | .flight e => e.rgn == rgn && e.ack.isNone && s.placeUp rgn e.knum e.line
   | .remote r => r.rgn == rgn && !r.sent
   | .vretire r .. | .vsig r .. => r == rgn
   | .reading c _ _ => c.rgn == rgn
   | .vtrap _ | .result .. | .failed .. | .sread .. | .stry .. | .arrive .. => mine
   | .load _ pl _ _ _ _ _ _ | .atomic _ pl _ _ _ _ _ _ _ => mine && up pl
   | .signal c r k _ _ true => mine && (match s.frame? c r k with | some f => !f.stopped | none => true)
   | _ => false)

/-- Nothing that a list names is held back by a suspended cluster. -/
def State.canPerform (s : State) (ids : List Nat) : Bool :=
  !s.acts.any (fun a => ids.contains a.id && !a.performed &&
    (match a.job with
     | .load _ pl _ _ _ _ _ _ => (match s.thread? a.cl a.slot with | some t => !s.placeUp t.rgn t.knum pl | none => false)
     | .entry e | .flight e => !s.placeUp e.rgn e.knum e.line
     | _ => false))

/-- A wait that ends before the save: every release and fence that nothing but a suspended cluster or, at F scope, the fabric
keeps waiting (05 R118, R121). -/
def State.waitHolds (s : State) (t : Thread) : Bool :=
  match t.wait with
  | .desc .. | .vwait => true
  | .release after => s.canPerform after
  | .fence scope after _ => if scope = 4 then s.doneAll after else s.canPerform after
  | .quit => s.quitDone t
  | _ => false

/-- The region's work on a cluster has drained: ports, results, queued stores, formations, and every record that was raised, also
one that its queue keeps (R374 items 1 and 2). -/
def State.regionDrained (s : State) (cl rgn : Nat) : Bool :=
  !s.cmds.any (fun c => c.cl == cl && c.rgn == rgn) && !s.acts.any (s.actHolds cl rgn) && !(s.threadsOn cl rgn).any s.waitHolds &&
  !(s.framesOn cl rgn).any (fun f => match f.cb with | some b => (b.forming || b.flights.any (fun x => !x.published)) && !f.suspended | none => false) &&
  !s.regions.any (fun r => r.kept.any (fun k => k.rgn == rgn && k.lcl == cl)) && !s.deferred.any (fun k => k.2.rgn == rgn && k.2.lcl == cl)

/-- The threads of a region leave their slots; their work in flight, and the requests of their blocked SPAWNs, are kept under the
region (R374, R376). -/
def State.leaveSlots (s : State) (rgn : Nat) : List Thread → State
  | [] => s
  | t :: r =>
    let s1 : State := { s with
      threads := s.threads.filter (fun u => !(u.cl == t.cl && u.slot == t.slot)),
      away := s.away.filter (fun u => !(u.cl == t.cl && u.slot == t.slot && u.rgn == rgn)) ++ [t] }
    (s1.reslot t.cl t.slot (1024 + 512 * rgn + t.slot)).leaveSlots rgn r

/-- A suspended frame: bound, its resources free (R374). -/
def Frame.emptied (f : Frame) : Frame :=
  { newFrame f.cl f.rgn f.knum f.hdr f.hdrVa f.level f.set with stopped := true, suspended := true, tearing := f.tearing }

/-- The frames' resources return to the cluster, and the pending-spawn entries leave the queue. -/
def State.freeFrames (s : State) (cl rgn : Nat) : State :=
  let s1 := (s.framesOn cl rgn).foldl (fun s f => s.unpin f) s
  ({ s1 with frames := s1.frames.map (fun f => if f.cl = cl ∧ f.rgn = rgn then f.emptied else f) } : State).modClu cl
    (fun k => { k with spawnq := k.spawnq.filter (fun r => r.rgn != rgn) })

/-- The frames and threads of a region leave a cluster without a trace of a command. -/
def State.takeAway (s : State) (cl rgn : Nat) : State :=
  ((s.leaveSlots rgn (s.threadsOn cl rgn)).freeFrames cl rgn).dropTag cl

/-- SAVEBLOCK's number for the next block of a region. -/
def State.nextSave (s : State) (cl rgn : Nat) : Nat := getK (s.clu cl).saveseq rgn 0 + 1

/-- The writes of a save block have all performed, or one of them has failed and the rest are done. -/
def State.saveDone (s : State) (cl : Nat) : Bool := (s.clu cl).saving.all (fun i => !(s.acts.any (fun a => a.id == i)))

/-! ### Answers that waited (R374, R376) -/

/-- Answers that arrived during the suspension take effect (05 R118; 12 R270). -/
def State.lateAnswers (s : State) : List Act → State
  | [] => s
  | a :: rest =>
    match a.job with
    | .remote r =>
      match r.answered with
      | some (k, v, w) => (s.answered a { r with answered := none } k v w).lateAnswers rest
      | none => s.lateAnswers rest
    | _ => s.lateAnswers rest

/-- A late failure of a thread is told before its next issue. -/
def State.tellLate (s : State) : List Thread → State
  | [] => s
  | t :: r => (s.deliverLate t.cl t.slot).tellLate r

/-- What came for a region's threads while they were away reaches them. -/
def State.catchUp (s : State) (cl rgn : Nat) : State :=
  let ts := s.threadsOn cl rgn
  (s.lateAnswers (s.acts.filter (fun a => a.cl == cl && ts.any (fun t => t.slot == a.slot)))).tellLate ts

/-- A block whose writes have all performed: the region's resources return and the command ends; after a failed one the state
stays on the cluster, with what came for its threads meanwhile (R374). -/
def State.endSave (s : State) (cl rgn : Nat) : State :=
  let bad := (s.clu cl).saveBad
  let s1 := s.modClu cl (fun k => { k with saving := [], saveBad := false })
  if bad then ((s1.endRgn cl 8).sqSettle cl 64).catchUp cl rgn
  else ((s1.takeAway cl rgn).modClu cl (fun k => { k with saveseq := setK k.saveseq rgn (s.nextSave cl rgn) })).endRgn cl 0

/-- SAVE_BLOCK_WRITE: with the region drained, its block goes through the system class of the store queue, the header last; once
every write has performed, the region's resources return and the command ends. A fault at the block ends it with 8 and leaves the
state on the cluster (R374, R375; 04 R96). -/
def execSaveBlockWrite (cl : Nat) (s : State) : Host.Outcome State Fault Refusal :=
  match s.rgnRuns cl 1 with
  | none => .next s
  | some rgn =>
    match s.region? rgn with
    | none => .next (s.endRgn cl 2)
    | some r =>
      if (s.clu cl).phase = 3 then (if s.saveDone cl then .next (s.endSave cl rgn) else .next s)
      else if (s.clu cl).phase ≠ 2 || !s.regionDrained cl rgn then .next s
      else
        match s.writeBlock r cl (s.saveBlock cl rgn (s.nextSave cl rgn)) with
        | none => .next (s.endRgn cl 8)
        | some s1 => .next s1

/-! ### Resumption (R376) -/

/-- A request of a SPAWN whose thread does not wait for its answer any more. -/
def State.spawnLeft (s : State) (cl rgn : Nat) (a : Act) : Bool :=
  a.cl == cl &&
  (match a.job, s.thread? a.cl a.slot with
   | .spawn r none, some t => r.rgn == rgn && (match t.wait with | .spawn k _ => k != a.id | _ => true)
   | _, _ => false)

/-- The threads of a restored region have their work in flight again. -/
def State.rejoin (s : State) (cl rgn : Nat) : State :=
  let ts := s.threadsOn cl rgn
  let s0 := ts.foldl (fun s t => s.reslot cl (1024 + 512 * rgn + t.slot) t.slot) s
  let s1 : State := { s0 with acts := s0.acts.filter (fun a => !s0.spawnLeft cl rgn a) }
  s1.catchUp cl rgn

/-- A region that a failed save left on the cluster goes on: its limits run again. -/
def State.goOn (s : State) (cl rgn : Nat) : State :=
  let n := s.pulse cl
  { s with
    frames := s.frames.map (fun f => if f.cl = cl ∧ f.rgn = rgn then { f with stopped := false } else f),
    threads := s.threads.map (fun t =>
      if t.cl = cl ∧ t.rgn = rgn then { t with wait := t.wait.retime (fun u => n + u), w := 0, nextIssue := n + t.nextIssue } else t) }

/-- The pending-spawn queue has no entries for the requests that return: the cluster cannot supply a reservation (01 R13; R374,
R376; log 47). -/
def State.queueFull (s : State) (cl : Nat) (l : List SavedFrame) : Bool :=
  decide (64 < (s.clu cl).spawnq.length + (l.flatMap (fun x => x.reqs)).length)

/-- The outcome of a resume: a refusal 9 or 10, or the state after it. -/
def State.resumeRegion (s : State) (r : Region) (cl : Nat) : Except Nat State :=
  if !(s.framesOn cl r.num).any (fun f => f.suspended) then .ok (s.goOn cl r.num)
  else match s.readBlock r cl with
    | none => .error 9
    | some b =>
      match s.savedFrames cl r.num b with
      | none => .error 9
      | some l =>
        if l.any (fun x => x.ts.any (fun y => (s.thread? cl y.slot).isSome)) || s.queueFull cl l || !s.canReserve cl (l.map (fun x => x.f)) then
          .error 10
        else .ok ((s.restoreFrames r l).rejoin cl r.num)

/-- RGNCTL_RESUME: the block is read, unless a failed save left the region on the cluster, and what is wrong with its lines is counted. -/
def execRgnctlResume (cl : Nat) (s : State) : Host.Outcome State Fault Refusal :=
  match s.rgnRuns cl 2 with
  | none => .next s
  | some rgn =>
    match s.region? rgn with
    | none => .next (s.endRgn cl 2)
    | some r =>
      let s0 := if (s.framesOn cl r.num).any (fun f => f.suspended) then s.touchBlock (some cl) r cl else s
      match s0.resumeRegion r cl with
      | .error k => .next (s0.endRgn cl k)
      | .ok s1 => .next (s1.endRgn cl 0)

/-! ### Kill (R377 to R379; 05 R120) -/

/-- The queue's owner and the sequence number of a record's entry (19 R363). -/
def Entry.recordSeq (e : Entry) : Option (Nat × Nat) :=
  match e.note, e.kind with
  | some n, .data bs => some (n.owner, fromLE (((bs.drop 24).take 8).map (fun b => b.2)))
  | _, _ => none

/-- The next sequence number of a queue when the records of these numbers are discarded: the last ones are given back (log 63). -/
def giveBack (nums : List Nat) : Nat → Nat → Nat
  | 0, n => n
  | fuel + 1, n => if 0 < n ∧ nums.contains (n - 1) then giveBack nums fuel (n - 1) else n

/-- Work that a kill of regions on clusters ends (05 R120): what has not started or departed, and what a running command has not
written. Departed writes to memory, transmitted remote operations and the package's inbound writes go on. -/
def killsAct (rs : List Nat) (on : Nat → Bool) (a : Act) : Bool :=
  match a.job with
  | .ending e => rs.contains e.rgn && on a.cl
  | .entry e => rs.contains e.rgn && on a.cl && e.ack.isNone
  | .flight e => rs.contains e.rgn && (match e.line with | .scratch c _ _ => on c | _ => false) && e.ack.isNone
  | .spawn r _ => rs.contains r.rgn && (on a.cl || on r.target)
  | .remote r => rs.contains r.rgn && on a.cl && !r.sent
  | .signal cl rgn _ _ _ _ | .poison cl rgn _ _ => rs.contains rgn && on cl
  | .arrive rgn _ _ | .piece _ rgn _ _ _ => rs.contains rgn && on a.cl
  | .reading c _ _ => rs.contains c.rgn && on a.cl
  | .result .. | .failed .. | .load .. | .atomic .. | .sread .. | .stry .. | .vretire .. | .vsig .. | .vtrap _ => awayTag a.slot && rs.contains ((a.slot - 1024) / 512) && on a.cl
  | _ => false

/-- What a suspended thread of a killed region leaves in flight belongs to no thread any more, and no answer to a remote operation
of the region counts (12 R273). -/
def State.forget (s : State) (rs : List Nat) (on : Nat → Bool) : State :=
  { s.bump with acts := s.acts.map (fun a =>
      let b : Act := if awayTag a.slot && rs.contains ((a.slot - 1024) / 512) && on a.cl then { a with slot := 262144 + 512 * s.seq + a.slot % 512 } else a
      match b.job with
      | .remote r => if rs.contains r.rgn && on b.cl then { b with job := .remote { r with dead := true } } else b
      | _ => b) }

/-- The spawn requests of killed regions that no queue has admitted, on their way or queued. -/
def State.lostSpawns (s : State) (rs : List Nat) (on : Nat → Bool) : List SpawnReq :=
  s.clus.flatMap (fun x => if on x.1 then x.2.spawnq.filter (fun r => rs.contains r.rgn) else []) ++
  s.acts.filterMap (fun a => match a.job with | .spawn r _ => if killsAct rs on a then some r else none | _ => none)

/-- Everything of regions on clusters goes: threads, commands, queued stores, pending spawns, whose joins are poisoned, frames and
records; the store-queue entries that come free go to other requests (R377; 05 R120; 04 R88). -/
def State.killOn (s : State) (rs : List Nat) (on : Nat → Bool) : State :=
  let fs := s.frames.filter (fun f => rs.contains f.rgn && on f.cl)
  let s1 := ((s.threads.filter (fun t => rs.contains t.rgn && on t.cl)).foldl (fun s t => s.endThread t) s).forget rs on
  let s2 := fs.foldl (fun s f => (s.unpin f).clearHold f.cl) s1
  let gone := s2.acts.filterMap (fun a => match a.job with | .entry e => if killsAct rs on a then e.recordSeq else none | _ => none)
  let numsOf (n : Nat) : List Nat := gone.filterMap (fun x => if x.1 = n then some x.2 else none)
  let s3 : State := { s2 with
    cmds := s2.cmds.filter (fun c => !(rs.contains c.rgn && on c.cl)),
    acts := s2.acts.filter (fun a => !killsAct rs on a),
    clus := s2.clus.map (fun x => if on x.1 then (x.1, { x.2 with spawnq := x.2.spawnq.filter (fun r => !rs.contains r.rgn) }) else x),
    away := s2.away.filter (fun t => !(rs.contains t.rgn && on t.cl)),
    frames := s2.frames.filter (fun f => !(rs.contains f.rgn && on f.cl)),
    deferred := s2.deferred.filter (fun k => !(rs.contains k.2.rgn && on k.2.lcl)),
    regions := s2.regions.map (fun r =>
      { r with kept := r.kept.filter (fun k => !(rs.contains k.rgn && on k.lcl)), rseq := giveBack (numsOf r.num) (numsOf r.num).length r.rseq }) }
  (List.range 4).foldl (fun s d => s.clearDeficits d) ((s3.poisonJoins (s1.lostSpawns rs on)).sqSettleAll (s3.clus.map (fun x => x.1)))

/-- A suspend of one of the regions runs on a cluster: the kill waits for its end (R379). -/
def State.suspendRuns (s : State) (rs : List Nat) (cl : Nat) : Bool :=
  match s.rgnRuns cl 1 with
  | some r => rs.contains r
  | none => false

/-- The kill of a region and its descendants takes place on every cluster where no suspend of them runs, and is to be
completed. -/
def State.kill (s : State) (rgn : Nat) : State :=
  let s1 := s.markKilling rgn
  let fam := s1.family rgn
  (s1.killOn fam (fun cl => !s1.suspendRuns fam cl)).tick 1 0 512 (.killComplete rgn)

/-- RGNCTL_KILL. -/
def execRgnctlKill (cl : Nat) (s : State) : Host.Outcome State Fault Refusal :=
  match s.rgnRuns cl 3 with
  | some rgn => .next (s.kill rgn)
  | none => .next s

/-- Regions cease to exist: the lines that the caches hold of them go, and their numbers are free (R377). A later region's streams
begin at sequence number 0, while the counts since the last START go on, and what a given-up write has left (12 R266; 23 R426; log 66). -/
def State.deactivate (s : State) (rs : List Nat) : State :=
  { s with
    regions := s.regions.filter (fun r => !rs.contains r.num),
    clus := s.clus.map (fun x => (x.1, { x.2 with icache := x.2.icache.filter (fun e => !rs.contains e.1), ccache := x.2.ccache.filter (fun e => !rs.contains e.1), saveseq := x.2.saveseq.filter (fun e => !rs.contains e.1), savebases := x.2.savebases.filter (fun e => !rs.contains e.1) })),
    streams := s.streams.map (fun x => if rs.contains x.rgn then { x with next := 0 } else x),
    awaiting := s.awaiting.filter (fun x => !rs.contains x.2.1), landing := s.landing.filter (fun x => !rs.contains x.1), tlb := s.tlb.filter (fun e => !rs.contains e.rgn) }

/-- The kill commands of regions end on the clusters that issued them. -/
def State.endKills (s : State) (rs : List Nat) : List Nat → State
  | [] => s
  | cl :: r =>
    (match s.rgnRuns cl 3 with
     | some g => if rs.contains g then s.endRgn cl 0 else s
     | none => s).endKills rs r

/-- RSTAT of a command that has ended (22 R408). -/
def rstatDone (rgn code : Nat) : Word := BitVec.ofNat 64 (2 ^ 40 * rgn + code)

/-- A region's record about a cluster that is lost: 7.7.3 with i3 = 0 (19 R362; 25 R446). -/
def Record.lost (k : Record) (rs : List Nat) : Bool := k.cause == 507 && k.i3 == 0 && rs.contains k.rgn

/-- A record of regions about a lost cluster is still to be written: their kill comes after it, unless its queue is full or its write
fails (25 R446; 19 R377; log 68). -/
def State.telling (s : State) (rs : List Nat) : Bool :=
  s.deferred.any (fun k => k.2.lost rs) || s.regions.any (fun r => !r.full && !r.failing && r.kept.any (fun k => k.lost rs)) ||
  s.acts.any (fun a => match a.job with
    | .entry e | .flight e => e.note.isSome && rs.contains e.rgn
    | _ => false)

/-- A region's kill can complete. -/
def State.killMay (s : State) (r : Region) : Bool :=
  r.killing && !s.clus.any (fun x => s.suspendRuns (s.family r.num) x.1) && !s.telling (s.family r.num)

/-- KILL_COMPLETE: every cluster has finished, and the regions are deactivated. -/
def execKillComplete (rgn : Nat) (s : State) : Host.Outcome State Fault Refusal :=
  match s.region? rgn with
  | none => .next s
  | some r =>
    let fam := s.family rgn
    if !s.killMay r then .next s
    else
      let s1 := ((s.killOn fam (fun _ => true)).deactivate fam).endKills fam (s.clus.map (fun x => x.1))
      .next (if bitOf s1.rstat 63 ∧ field s1.rcmd 0 3 = 3 ∧ fam.contains (field s1.rcmd 40 8) then
        { s1 with rstat := rstatDone (field s1.rcmd 40 8) 0 } else s1)

end Sys2Proof.Machine
end

