-- ==== Sys2Proof/Machine/System.lean ====
section
/-! DEFINITION. System registers and the software trap: SYSR, SYSW and TRAP of major 0x33 (14 R321 to R326), and the read of
NEWELSTAT (03 R59). -/

namespace Sys2Proof.Machine

/-! ### Values (14 R322 to R325 and the field maps of R322's table) -/

/-- SELF (R324). -/
def selfWord (t : Thread) (lvl : Level) : Word :=
  BitVec.ofNat 64 (t.slot + 2 ^ 16 * t.allot + 2 ^ 24 * t.prio.toNat + 2 ^ 32 * t.knum + 2 ^ 40 * t.cl + 2 ^ 48 * t.rgn + 2 ^ 56 * lvl.num)

/-- CYC of a cluster, as 64 bits (R323). -/
def State.cyc (s : State) (cl : Nat) : Word := BitVec.ofNat 64 (s.pulse cl)

/-- TIME: nanoseconds since it was last set, at 1.1 die pulses each (R323; log 5). -/
def State.timeNs (s : State) : Word := s.time + BitVec.ofNat 64 (s.now * 10 / 11)

/-- NEWELSTAT: the counts of the pulse in which the reading bundle issued, its own thread among them (03 R59). -/
def State.newelstat (s : State) (cl : Nat) : Word :=
  BitVec.ofNat 64 (s.cur.ready + 2 ^ 10 * s.cur.starved + 2 ^ 20 * (s.phy (s.physOf cl)).maxw)

/-- MAXW reads and clears. -/
def State.clearMaxw (s : State) (cl : Nat) : State := s.modPhy (s.physOf cl) (fun p => { p with maxw := 0 })

/-- The value that a system register reads as. -/
def State.sysValue (s : State) (c : Ctx) (r : Nat) : Word :=
  let cl := c.t.cl
  match r with
  | 0x00 => s.cyc cl
  | 0x01 => s.timeNs
  | 0x02 => selfWord c.t c.f.level
  | 0x03 => s.pkgid.setWidth 64
  | 0x10 => c.t.vfcsr
  | 0x11 => vstate c.t.vtype c.t.grp c.t.vl
  | 0x12 => c.t.swlim.setWidth 64
  | 0x13 => c.t.spwlim.setWidth 64
  | 0x14 => c.t.wcode.setWidth 64
  | 0x15 => nth c.t.fpcnt 0 0
  | 0x16 => nth c.t.fpcnt 1 0
  | 0x17 => nth c.t.fpcnt 2 0
  | 0x18 => nth c.t.fpcnt 3 0
  | 0x19 => c.t.werr
  | 0x20 => nth c.f.swz 0 0
  | 0x21 => nth c.f.swz 1 0
  | 0x22 => nth c.f.swz 2 0
  | 0x23 => nth c.f.swz 3 0
  | 0x40 => BitVec.ofNat 64 (s.phy (s.physOf cl)).ageql
  | 0x41 => s.newelstat cl
  | 0x44 => s.sqstat cl
  | 0x45 => s.wlstat cl
  | 0x48 => (s.phy (s.physOf cl)).patRead.setWidth 64 ||| ((s.phy (s.physOf cl)).eff.setWidth 64 <<< 32)
  | 0x49 => BitVec.ofNat 64 (s.pair (s.pairOf cl)).req
  | 0x4A => s.psstat cl
  | 0x50 => (s.clu cl).rgnctl
  | 0x51 => s.rgnstat cl
  | _ => 0

/-- After the read: MAXW is cleared by a read of NEWELSTAT (03 R59). -/
def State.sysAfter (s : State) (c : Ctx) (r : Nat) : State := if r = 0x41 then s.clearMaxw c.t.cl else s

/-- SYSR's effect. -/
def sysrEff (d : BitVec 5) (r : BitVec 12) (c : Ctx) (s : State) : State :=
  (s.sysAfter c r.toNat).modThread c.t.cl c.t.slot (fun u => u.setG d.toNat (s.sysValue c r.toNat))

/-- SYSR (R321). -/
def execSysr (d : BitVec 5) (r : BitVec 12) (s : State) : Host.Outcome State Fault Refusal := issueI (.sysr d r) s (sysrEff d r)

/-! ### Writes -/

/-- A write of a swizzle descriptor that R78 admits. -/
def swzOk (v : Word) : Bool := (field v 0 5 == 0 || (6 ≤ field v 0 5 && field v 0 5 ≤ 16)) && field v 5 7 == 0 && field v 22 42 == 0

/-- NEWELCFG takes an AGEQL from 5 to 12 (03 R58). -/
def State.writeNewelcfg (s : State) (cl : Nat) (v : Word) : State :=
  let q := field v 0 4
  if 5 ≤ q ∧ q ≤ 12 then s.modPhy (s.physOf cl) (fun p => { p with ageql := q }) else s

/-- SYSW under a register's field map; only writable registers come here. -/
def State.sysWrite (s : State) (c : Ctx) (r : Nat) (v : Word) : State :=
  let th (f : Thread → Thread) : State := s.modThread c.t.cl c.t.slot f
  let fr (k : Nat) : State := if swzOk v then s.modFrame c.t.cl c.t.rgn c.t.knum (fun f => { f with swz := f.swz.set k v }) else s
  match r with
  | 0x10 => th (fun u => { u with vfcsr := v &&& vfcsrMask })
  | 0x12 => th (fun u => { u with swlim := v.setWidth 32 })
  | 0x13 => th (fun u => { u with spwlim := v.setWidth 32 })
  | 0x15 => th (fun u => { u with fpcnt := s.fpWrite u 0 v })
  | 0x16 => th (fun u => { u with fpcnt := s.fpWrite u 1 v })
  | 0x17 => th (fun u => { u with fpcnt := s.fpWrite u 2 v })
  | 0x18 => th (fun u => { u with fpcnt := s.fpWrite u 3 v })
  | 0x20 => fr 0
  | 0x21 => fr 1
  | 0x22 => fr 2
  | 0x23 => fr 3
  | 0x40 => s.writeNewelcfg c.t.cl v
  | 0x48 => s.writeIpat c.t.cl v
  | 0x49 => s.writePsreq c.t.cl v
  | 0x50 => s.writeRgnctl c v
  | _ => s

/-- SYSW's effect: a register that the writer's level only reads ignores it. -/
def syswEff (a : BitVec 5) (r : BitVec 12) (c : Ctx) (s : State) : State :=
  if sysWritable r.toNat c.f.level then s.sysWrite c r.toNat (c.t.getG a.toNat) else s

/-- SYSW (R321). -/
def execSysw (a : BitVec 5) (r : BitVec 12) (s : State) : Host.Outcome State Fault Refusal := issueI (.sysw a r) s (syswEff a r)

/-! ### TRAP and the read of NEWELSTAT -/

/-- TRAP takes the software trap 0.0.7, whose PC is the next bundle (R326). -/
def execTrap (k : BitVec 8) (s : State) : Host.Outcome State Fault Refusal :=
  issueI (.trap k) s (fun c s => s.trapNext c.t.cl c.t.slot ⟨7, k.setWidth 64, c.t.prev, s.cur.words, 0⟩)

/-- NEWELSTAT_READ: the thread in issue reads the register, which clears MAXW (03 R59); a U-level thread cannot (log 12). -/
def execNewelstatRead (d : BitVec 5) (s : State) : Host.Outcome State Fault Refusal :=
  match s.ctx? with
  | none => .next s
  | some c => .next (if c.f.level = .u then s else sysrEff d 0x41 c s)

end Sys2Proof.Machine
end

