-- ==== Sys2Proof/Machine/Regs.lean ====
section
/-! DEFINITION. Regions as the host commands them: region control blocks, RCMD and RSTAT (22 R406 to R409; 02 R15 to R17; 04 R84). -/

namespace Sys2Proof.Machine

/-- BOOTSTAT.STAGE = 7 (22 R404). -/
def State.bootReady (s : State) : Bool := field s.bootstat 0 3 == 7

/-! ### The allowance sum (04 R84) -/

/-- Allowances of a die in a window with regions given, and its host reserve. -/
def State.dieSum (s : State) (rs : List Region) (die w : Nat) : Nat :=
  let a (cl : Nat) : Nat := rs.foldl (fun m r => if inSet r.clset cl then Nat.max m (r.allowIn w) else m) 0
  (List.range 64).foldl (fun n k => n + a (64 * die + k)) 0 + (s.die die).hostres

/-- A die's sum does not exceed its bound, in this window and with the allowances that take effect at the next. -/
def State.dieSumOk (s : State) (rs : List Region) (die : Nat) : Bool :=
  decide (s.dieSum rs die (s.now / 1024) ≤ 1572864) && decide (s.dieSum rs die (s.now / 1024 + 1) ≤ 1572864)

/-- No die's sum exceeds its bound. -/
def State.sumsOk (s : State) (rs : List Region) : Bool := (List.range 4).all (s.dieSumOk rs)

/-! ### Control blocks (22 R406) -/

/-- The 256 bytes of an RCB, placed with scheme 2 and read under HOSTMEM.KEY; none where it cannot be read. -/
def State.readRcb (s : State) (pa : Nat) : Option (List Byte) :=
  match s.hostKey with
  | none => none
  | some k =>
    let loc := place 2 (pa % 2 ^ 39)
    if (List.range 4).any (fun j => (s.badAt 0 0 (.global (loc + 64 * j) k { pa := pa + 64 * j, via := [] })).isSome) then none
    else some (s.hbmRead k loc 256)

/-- The read of a control block activates its rows and counts its errors (21 R396; 25 R447). -/
def State.touchRcb (s : State) (pa : Nat) : State :=
  match s.hostKey with
  | none => s
  | some k => (List.range 4).foldl (fun s j =>
      let loc := place 2 (pa % 2 ^ 39) + 64 * j
      let s1 := s.touch loc k 0
      match s.badAt 0 0 (.global loc k { pa := pa + 64 * j, via := [] }) with
      | some true => s1.countCrc (locDie loc)
      | some false => s1.countEcc (locDie loc)
      | none => s1) s

/-- Every 2-bit mode code. -/
def modeCodes (m : Nat) : List Nat := (List.range 7).map (fun k => m / 4 ^ k % 4)

/-- A reserved field is not zero, a field is out of range, or a mode code is 3 (code 3); `set` is the effective set. -/
def rcbBad (b : List Byte) (set : ClSet) : Bool :=
  let f := dfield b
  decide (256 < f 4 2) || decide (8 < f 6 1) || f 7 1 != 0 || (f 8 4 != 0 && (f 8 4 % 64 != 0 || decide (f 8 4 < 512) || decide (65536 < f 8 4))) ||
  f 0xC 2 / 2 ^ 14 != 0 || (modeCodes (f 0xC 2)).contains 3 || decide (1023 < f 0xE 2) ||
  f 0x10 8 % 4096 != 0 || decide (2 ^ 39 ≤ f 0x10 8) ||
  (if f 0x18 8 = 0 then f 0x20 6 != 0
   else f 0x18 8 % 64 != 0 || window (BitVec.ofNat 64 (f 0x18 8)) != .global || decide (f 0x20 1 < 6) || decide (16 < f 0x20 1) ||
     !inSet set (f 0x21 1) || decide (2047 < f 0x24 2)) ||
  f 0x26 2 != 0 || f 0x28 8 % 0x1000000 != 0 || f 0x38 8 % 4096 != 0 || f 0x40 8 % 4096 != 0 || decide (2 ^ 48 < f 0x40 8) ||
  (f 0x40 8 == 0 && f 0x38 8 != 0) || f 0x68 152 != 0

/-- Modes resolved function by function (02 R17; 22 R407). -/
def resolveModes (m : Nat) (parent : Option Region) : BitVec 14 :=
  BitVec.ofNat 14 ((modeCodes m).zipIdx.foldl (fun n x =>
    n + 4 ^ x.2 * (if x.1 ≠ 0 then x.1 else match parent with | some p => field p.modes (2 * x.2) 2 | none => 1)) 0)

/-- A region of a number from its RCB, with every zero field inherited (02 R17). -/
def resolveRegion (num pa : Nat) (b : List Byte) (parent : Option Region) : Region :=
  let f := dfield b
  let inh {α : Type} (own : Bool) (v d : α) (p : Region → α) : α := if own then v else match parent with | some r => p r | none => d
  let q := f 0x18 8 != 0
  { num := num, rcbPa := pa, parent := (match parent with | some p => some p.num | none => none),
    level := (match parent with | some p => p.level + 1 | none => 1),
    clset := inh (f 0x48 32 != 0) (BitVec.ofNat 256 (f 0x48 32)) 0 (fun r => r.clset),
    ceil := inh (f 6 1 != 0) (f 6 1 - 1) 7 (fun r => r.ceil), allow := inh (f 8 4 != 0) (f 8 4) 24576 (fun r => r.allow),
    allowWas := 0, allowFrom := 0,
    modes := resolveModes (f 0xC 2) parent, dkey := inh (f 0xE 2 != 0) (f 0xE 2) 0 (fun r => r.dkey),
    troot := inh (f 0x10 8 != 0) (f 0x10 8) 0 (fun r => r.troot), fqOwner := inh q num num (fun r => r.fqOwner),
    fqbase := inh q (f 0x18 8) 0 (fun r => r.fqbase), fqnlog := inh q (f 0x20 1) 6 (fun r => r.fqnlog),
    fsemCl := inh q (f 0x21 1) 0 (fun r => r.fsemCl), fsemK := inh q (f 0x22 1) 0 (fun r => r.fsemK),
    fsemS := inh q (f 0x23 1) 0 (fun r => r.fsemS), msiv := inh q (f 0x24 2) 0 (fun r => r.msiv),
    savebase := inh (f 0x28 8 != 0) (f 0x28 8) 0 (fun r => r.savebase), ownFkey := BitVec.ofNat 64 (f 0x30 8),
    fkey := inh (f 0x30 8 != 0) (BitVec.ofNat 64 (f 0x30 8)) 0 (fun r => r.fkey),
    apbase := inh (f 0x40 8 != 0) (f 0x38 8) 0 (fun r => r.apbase), apsize := inh (f 0x40 8 != 0) (f 0x40 8) 0 (fun r => r.apsize),
    rseq := 0, kept := [], full := false, failing := false, held := 0, heldCls := 0, killing := false }

/-- Levels of the tree below a region of a number (02 R15). -/
def State.depthBelow (s : State) (num : Nat) : Nat :=
  match s.region? num with
  | none => 0
  | some o => s.regions.foldl (fun n x => if s.within num 4 x.num then Nat.max n (x.level - o.level) else n) 0

/-- Checks 2 to 8 of R408 on an RCB: the code that refuses it, or the resolved region. A region's own number or a
descendant's as PARENT would be no tree: like one that is not active it is refused with 4 (02 R15; log 67). -/
def State.rcbRegion (s : State) (num pa : Nat) : Except Nat Region :=
  match s.readRcb pa with
  | none => .error 2
  | some b =>
    let f := dfield b
    let parent : Option Region := if f 4 2 = 0 then none else match s.region? (f 4 2 - 1) with
      | some p => if p.killing ∨ s.within num 4 p.num then none else some p
      | none => none
    let r := resolveRegion num pa b parent
    if f 0 4 ≠ 0x4E474552 then .error 2
    else if rcbBad b (if parent.isNone ∧ f 0x48 32 = 0 then BitVec.allOnes 256 else r.clset) then .error 3
    else if (f 4 2 ≠ 0 ∧ parent.isNone) ∨ 4 < r.level + s.depthBelow num then .error 4
    else match parent with
      | some p =>
        if r.clset &&& ~~~p.clset ≠ 0 then .error 5
        else if p.ceil < r.ceil then .error 6
        else if p.allow < r.allow then .error 7
        else .ok r
      | none => if r.clset = 0 ∨ f 0x10 8 = 0 ∨ r.dkey = 0 ∨ f 0x18 8 = 0 then .error 8 else .ok r

/-- Checks 10 and 11. -/
def State.regionFits (s : State) (rs : List Region) (r : Region) : Nat :=
  if !s.sumsOk rs then 10 else if (s.keyOf r.dkey).isNone then 11 else 0

/-- The lowest free region number. -/
def State.freeRegion (s : State) : Option Nat := (List.range 256).find? (fun n => (s.region? n).isNone)

/-! ### RCMD (22 R408, R409) -/

/-- RSTAT at the end of a command. -/
def State.rcmdEnd (s : State) (rgn code : Nat) : State := { s with rstat := rstatDone rgn code }

/-- The translations that are held of a region go: it is activated, deactivated or reloaded (21 R390; 22 R409). -/
def State.dropTlb (s : State) (rs : List Nat) : State := { s with tlb := s.tlb.filter (fun e => !rs.contains e.rgn) }

/-- Activation. -/
def State.activate (s : State) (pa : Nat) : State :=
  match s.rcbRegion (s.freeRegion.getD 256) pa with
  | .error k => s.rcmdEnd 0 k
  | .ok r =>
    if s.freeRegion.isNone then s.rcmdEnd 0 9
    else
      let rs := s.regions ++ [r]
      if s.regionFits rs r ≠ 0 then s.rcmdEnd 0 (s.regionFits rs r) else ({ s with regions := rs }.dropTlb [r.num]).rcmdEnd r.num 0

/-- Records that a region keeps go to the queue that its reload names. -/
def State.moveKept (s : State) (old new : Region) : State :=
  if old.fqOwner = new.num ∧ new.fqOwner ≠ new.num then
    ((s.modRegion new.num (fun r => { r with kept := [], full := false, failing := false })).modRegion new.fqOwner
      (fun r => { r with kept := r.kept ++ old.kept })).tick 1 0 512 (.faultRecord new.fqOwner)
  else s

/-- A reload that names a new queue ends an episode of failing or waiting writes: the kept records go to it at once (19 R366). -/
def State.newQueue (s : State) (old new : Region) : State :=
  if new.fqbase = old.fqbase ∨ new.fqOwner ≠ new.num ∨ new.kept.isEmpty then s
  else
    (({ s with acts := s.acts.filter (fun a => match a.job with | .tick (.faultQueueRetry k) => k != new.num | _ => true) } : State).modRegion new.num
      (fun r => { r with full := false, failing := false })).tick 1 0 512 (.faultRecord new.num)

/-- Reload: the new values apply to what begins after it; a refused one changes nothing. -/
def State.reload (s : State) (rgn : Nat) : State :=
  match s.region? rgn with
  | none => s.rcmdEnd rgn 12
  | some o =>
    if o.killing then s.rcmdEnd rgn 12
    else match s.rcbRegion rgn o.rcbPa with
      | .error k => s.rcmdEnd rgn k
      | .ok n =>
        let w := s.now / 1024
        let r : Region := { n with
          rseq := o.rseq, kept := o.kept, full := o.full, failing := o.failing, held := o.held, heldCls := o.heldCls,
          allowWas := o.allowIn w, allowFrom := w + 1 }
        let rs := s.regions.map (fun x => if x.num = rgn then r else if s.within rgn 4 x.num then { x with level := r.level + (x.level - o.level) } else x)
        if s.regionFits rs r ≠ 0 then s.rcmdEnd rgn (s.regionFits rs r)
        else if s.frames.any (fun f => f.rgn == rgn && !inSet r.clset f.cl) then s.rcmdEnd rgn 13
        else ((({ s with regions := rs }.dropTlb [rgn] : State).moveKept o r).newQueue o r).rcmdEnd rgn 0

/-- A kill of an active region; RSTAT stays busy until it completes (19 R377). -/
def State.rcmdKillRun (s : State) (rgn : Nat) : State :=
  match s.region? rgn with
  | none => s.rcmdEnd rgn 12
  | some _ => (({ s with rstat := BitVec.ofNat 64 (2 ^ 63 + 2 ^ 40 * rgn) } : State).kill rgn)

/-- The bits of RCMD that hold a value. -/
def rcmdMask : Word := 0x0000FF7FFFFFFF07#64

/-- A write of RCMD. -/
def State.writeRcmd (s : State) (v : Word) : State :=
  if !s.bootReady || bitOf s.rstat 63 then s
  else
    let s1 : State := { s with rcmd := v &&& rcmdMask }
    match field v 0 3 with
    | 1 => (s1.touchRcb (field v 8 31 * 256)).activate (field v 8 31 * 256)
    | 2 => (match s1.region? (field v 40 8) with | some o => s1.touchRcb o.rcbPa | none => s1).reload (field v 40 8)
    | 3 => s1.rcmdKillRun (field v 40 8)
    | _ => s1

/-- RCMD_ACTIVATE: a write of RCMD with CMD 1. -/
def execRcmdActivate (v : Word) (s : State) : Host.Outcome State Fault Refusal := .next (if field v 0 3 = 1 then s.writeRcmd v else s)

/-- RCMD_RELOAD. -/
def execRcmdReload (v : Word) (s : State) : Host.Outcome State Fault Refusal := .next (if field v 0 3 = 2 then s.writeRcmd v else s)

/-- RCMD_KILL. -/
def execRcmdKill (v : Word) (s : State) : Host.Outcome State Fault Refusal := .next (if field v 0 3 = 3 then s.writeRcmd v else s)

end Sys2Proof.Machine
end

