-- ==== Sys2Proof/Machine/HostIf.lean ====
section
/-! DEFINITION. The host attach: CXL.mem, the MMIO map, the context-command and bind windows, the Foyer, and the memory-side
caches' registers (22 R400 to R405, R410 to R412; 21 R390, R396 to R399; 25 R451). -/

namespace Sys2Proof.Machine

/-! ### CXL.mem (22 R401, R402) -/

/-- A host write is performed: at the memory-side cache, and discarded under an empty key slot (21 R391; 22 R401). One whose line does
not match its CRC there writes nothing, and is counted; it is of no region that could get a record (04 R99, R100; log 18). -/
def State.hostPut (s : State) (loc : Nat) (bytes : List Byte) : State :=
  if s.hostWBad.contains (loc / 64) then ({ s with hostWBad := s.hostWBad.erase (loc / 64) } : State).countCrc (locDie loc)
  else match s.hostKey with
  | some k => s.hbmWrite k loc bytes
  | none => s

/-- An older host write to the line waits. -/
def State.olderHost (s : State) (older : List (Nat × List Byte)) (loc : Nat) : Bool :=
  older.any (fun y => match s.hostWriteAt y with | some (l, _) => l / 64 == loc / 64 | none => false)

/-- A host write performs now: within the reserve of its die in this window, or without a reserve when the rounds of the surplus tier
reach it; a line that a table walk read changes after the accesses translated through it (R402; 21 R390). -/
def State.hostGo (s : State) (older : List (Nat × List Byte)) (x : Nat × List Byte) : Option State :=
  match s.hostWriteAt x with
  | none => some s
  | some (loc, charge) =>
    let d := locDie loc
    if s.walkHolds (loc / 64) || s.olderHost older loc then none
    else if (s.die d).hostres ≠ 0 then
      if (s.die d).hostUsed + charge ≤ (s.die d).hostres then
        some ((s.hostPut loc x.2).modDie d (fun k => { k with hostUsed := k.hostUsed + charge }))
      else none
    else if charge = 0 then some (s.hostPut loc x.2)
    else
      let s1 : State := { s with hostWrites := older ++ [x] }
      if s1.hostOffer d = charge ∧ s1.hostFirst d then
        let s2 := (s1.laneTakesHost d charge).hostPut loc x.2
        some ({ s2 with hostWrites := s.hostWrites } : State)
      else none

/-- The deficit of the host is cleared when none of its writes waits (04 R85). -/
def State.clearHost (s : State) : State :=
  (List.range 4).foldl (fun s d => if s.hostOffer d = 0 ∧ (s.die d).hostDef ≠ 0 then s.modDie d (fun k => { k with hostDef := 0 }) else s) s

/-- The first waiting host write that can be performed, and the state after it. -/
def State.hostTurn (s : State) (older : List (Nat × List Byte)) : List (Nat × List Byte) → Option State
  | [] => none
  | x :: r =>
    match s.hostGo older x with
    | some s1 => some ({ s1 with hostWrites := older ++ r } : State).clearHost
    | none => s.hostTurn (older ++ [x]) r

/-- HOST_MEM_WRITE of bytes inside one line: performed before its completion, or held until it may be (R401, R402). -/
def execHostMemWrite (hpa : Nat) (bytes : List Byte) (s : State) : Host.Outcome State Fault Refusal :=
  .next (match s.hostGo s.hostWrites (hpa, bytes) with
    | some s1 => s1.clearHost
    | none => { s with hostWrites := s.hostWrites ++ [(hpa, bytes)] })

/-- HOST_MEM_READ inside one line: the data goes to the host, with poison under an empty key slot or for a line in error. -/
def execHostMemRead (hpa n : Nat) (s : State) : Host.Outcome State Fault Refusal :=
  match s.hdmPa hpa n with
  | none => .next s
  | some pa =>
    let out (bs : List Byte) (p : Bool) (s : State) : State := { s with hostOut := s.hostOut ++ [.data hpa bs p] }
    match s.hostKey with
    | none => .next (out [] true s)
    | some k =>
      match s.badAt 0 0 (.global (s.hostLoc pa) k { pa := pa, via := [] }) with
      | some true => .next (out [] true ((s.touch (s.hostLoc pa) k 0).countCrc (locDie (s.hostLoc pa))))
      | some false => .next (out [] true ((s.touch (s.hostLoc pa) k 0).countEcc (locDie (s.hostLoc pa))))
      | none => .next (out (s.hbmRead k (s.hostLoc pa) n) false (s.touch (s.hostLoc pa) k 0))

/-! ### The context-command window (R404; 14 R328 to R330) -/

/-- Bytes of a window register block. -/
def ccmdBytes (s : State) : List Byte := leBytes 32 s.ccmdDesc.toNat

/-- STATUS of the context-command window. -/
def State.ccmdStatus (s : State) (code : Nat) : State :=
  { s with ccmd := 0, ccmdDesc := (s.ccmdDesc &&& ~~~(0xFFFFFFFF#256)) ||| BitVec.ofNat 256 code }

/-- HBM locations and key IDs of n bytes of a buffer in a region's global window; none where one fails its translation. -/
def State.bufLocs (s : State) (r : Region) (va kind : Nat) : Nat → Option (List (Nat × Nat))
  | 0 => some []
  | n + 1 =>
    if window (BitVec.ofNat 64 va) ≠ .global then none
    else match s.translate r (va % 2 ^ 48) kind false with
      | .error _ => none
      | .ok x =>
        match s.bufLocs r (va + 1) kind n with
        | none => none
        | some l => some ((x.1, x.2.1) :: l)

/-- Writes bytes at their locations. -/
def State.writeLocs (s : State) : List (Nat × Nat) → List Byte → State
  | (loc, k) :: r, b :: bs => (if s.hostWBad.contains (loc / 64) then s else s.hbmPut k loc b).writeLocs r bs
  | _, _ => s

/-- The lines of a list whose write meets a CRC mismatch are not written, and each is counted once (04 R99, R100; log 18). -/
def State.writeBad (s : State) (lines : List Nat) : State :=
  lines.foldl (fun s l => if s.hostWBad.contains l then ({ s with hostWBad := s.hostWBad.erase l } : State).countCrc (locDie (64 * l)) else s) s

/-- A command of the context-command window, at M level. A TCTXR into lines that a table walk read stays in progress until every access
translated through them has performed (21 R390). -/
def State.ccmdRun (s : State) (op : CtxOp) : State :=
  let d := ccmdBytes s
  let code := s.ctxStatus op .m 0 d
  if code ≠ 0 then s.ccmdStatus code
  else match op with
    | .resume | .kill => (s.ctxAct op d).ccmdStatus 0
    | _ =>
      match s.region? (dfield d 4 1) with
      | none => s.ccmdStatus 8
      | some r =>
        match s.bufLocs r (dfield d 0x18 8) (if op = .read then 1 else 0) (dfield d 0x0C 4) with
        | none => s.ccmdStatus 8
        | some l =>
          let s1 := s.touchLines none r (dfield d 0x18 8) (lineSpan (dfield d 0x18 8) (dfield d 0x0C 4))
          if op = .read then
            if l.any (fun x => s.walkHolds (x.1 / 64)) then { s with ccmd := 2 }
            else ((s1.writeLocs l (s.ctxRead d)).writeBad ((l.map (fun x => x.1 / 64)).eraseDups)).ccmdStatus 0
          else if l.any (fun x => (s.badAt r.num 0 (.global x.1 x.2 { pa := 0, via := [] })).isSome) then s1.ccmdStatus 8
          else (s1.ctxWrite d (l.map (fun x => s.hbmByte x.2 x.1))).ccmdStatus 0

/-- A write of CCMD: ignored while a command of the window is in progress (R404). -/
def State.writeCcmd (s : State) (v : Word) : State :=
  if !s.bootReady || s.ccmd != 0 then s
  else match field v 0 3 with
    | 1 => s.ccmdRun .resume
    | 2 => s.ccmdRun .read
    | 3 => s.ccmdRun .write
    | 4 => s.ccmdRun .kill
    | _ => s

/-- CCMD_TRESUME. -/
def execCcmdTresume (s : State) : Host.Outcome State Fault Refusal := .next (s.writeCcmd 1)
/-- CCMD_TCTXR. -/
def execCcmdTctxr (s : State) : Host.Outcome State Fault Refusal := .next (s.writeCcmd 2)
/-- CCMD_TCTXW. -/
def execCcmdTctxw (s : State) : Host.Outcome State Fault Refusal := .next (s.writeCcmd 3)
/-- CCMD_TKILL. -/
def execCcmdTkill (s : State) : Host.Outcome State Fault Refusal := .next (s.writeCcmd 4)

/-! ### The bind window (R405; 14 R331 to R333) -/

def bcmdBytes (s : State) : List Byte := leBytes 64 s.bcmdDesc.toNat

/-- The window's command ends with STATUS and, for a KBIND that succeeds, KNUM. -/
def State.bcmdKbindEnd (s : State) (status : Nat) (knum : Option Nat) : State :=
  let mask : BitVec 512 := match knum with | some _ => 0xFFFFFFFFFF#512 | none => 0xFFFFFFFF#512
  { s with bcmd := 0, bcmdDesc := (s.bcmdDesc &&& ~~~mask) ||| BitVec.ofNat 512 (status + 2 ^ 32 * knum.getD 0) }

/-- STATUS and LIVE of a KUNBIND that is refused. -/
def State.bcmdKunbindEnd (s : State) (code live : Nat) : State :=
  { s with bcmd := 0, bcmdDesc := (s.bcmdDesc &&& ~~~(0xFFFFFFFF00000000FFFFFFFF#512)) ||| BitVec.ofNat 512 (code + 2 ^ 64 * live) }

/-- The command of the window takes its place at the bind arbiter once no teardown is before it. -/
def State.bcmdRun (s : State) : State :=
  if !s.bindBusy.isEmpty then s
  else
    let d := bcmdBytes s
    match s.bcmd.toNat with
    | 1 => let x := s.bind .m 0 d; (x.2.2.bindReads d).bcmdKbindEnd x.1 x.2.1
    | 2 =>
      let code := s.unbindStatus .m 0 none (d.take 16)
      if code ≠ 0 then
        s.bcmdKunbindEnd code (if code = 3 then (s.kernelThreads (dfield d 5 1) (dfield d 4 1)).length else 0)
      else s.unbindStart (d.take 16) true 0 512 0 []
    | _ => s

/-- A write of BCMD. -/
def State.writeBcmd (s : State) (v : Word) : State :=
  if !s.bootReady || s.bcmd ≠ 0 then s
  else if field v 0 2 = 1 ∨ field v 0 2 = 2 then { s with bcmd := v.setWidth 2 }.bcmdRun
  else s

/-- BCMD_KBIND: the write of BCMD, or the turn of a command that waits. -/
def execBcmdKbind (s : State) : Host.Outcome State Fault Refusal := .next (if s.bcmd = 1 then s.bcmdRun else s.writeBcmd 1)

/-- BCMD_KUNBIND. -/
def execBcmdKunbind (s : State) : Host.Outcome State Fault Refusal := .next (if s.bcmd = 2 then s.bcmdRun else s.writeBcmd 2)

/-! ### The Foyer (R410 to R412) -/

/-- A lane's discarded write. -/
def Lane.drop (l : Lane) : Lane := { l with drops := Nat.min (l.drops + 1) 255 }

/-- The lowest offset of a request that code 7 covers. -/
def foyerReserved (b : List Byte) : Option Nat :=
  ([3, 7] ++ (List.range 24).map (fun k => 0x28 + k)).find? (fun o => if o = 3 then dfield b 3 1 / 4 != 0 else dfield b o 1 != 0)

/-- Code and detail that refuse a request, in the order 7, 3, 4, 5; or the request. -/
def State.foyerCheck (s : State) (b : List Byte) : Except (Nat × Nat) SpawnReq :=
  let rgn := dfield b 0 1
  let knum := dfield b 1 1
  let any : Bool := dfield b 3 1 % 2 = 1
  let join : Bool := dfield b 3 1 / 2 % 2 = 1
  match foyerReserved b with
  | some o => .error (7, o)
  | none =>
    match s.region? rgn with
    | none => .error (3, 0)
    | some r =>
      if r.killing then .error (3, 0)
      else match s.anyFrameOf rgn knum with
        | none => .error (4, 1)
        | some f =>
          if 8 ≤ dfield b 2 1 ∨ nth f.hdr.entries (dfield b 2 1) 0xFFFFFFFF = 0xFFFFFFFF then .error (4, 2)
          else if !any && !inSet f.set (dfield b 4 1) then .error (5, 4)
          else if join && !inSet f.set (dfield b 5 1) then .error (5, 5)
          else if join && decide (f.hdr.ksems ≤ dfield b 6 1) then .error (5, 6)
          else .ok { rgn := rgn, knum := knum, target := if any then s.resolveAny rgn knum f.set else dfield b 4 1, entry := dfield b 2 1,
                     args := (List.range 4).map (fun k => BitVec.ofNat 64 (dfield b (8 + 8 * k) 8)),
                     join := if join then some (dfield b 5 1, dfield b 6 1) else none, bpri := BitVec.ofNat 3 r.ceil, swlim := 0, spwlim := 0, origin := 2 }

/-- The target queue's arbiter decides on a lane's request; a suspended target leaves it pending (02 R45). DETAIL is 0 after code 6
(log 83). -/
def State.foyerDecide (s : State) (k : Nat) : State :=
  match (s.lane k).pending with
  | none => s
  | some q =>
    let fin (s : State) (code detail : Nat) : State := s.modLane k (fun l => { l with code := code, detail := detail, pending := none })
    match s.frame? q.target q.rgn q.knum with
    | none => fin s 4 1
    | some f =>
      if f.stopped then s
      else if s.queueTakes q then fin (s.enqueueSpawn q) 2 0
      else fin s 6 0

/-- FOYER_REQUEST: an aligned 64-byte write to a lane. -/
def execFoyerRequest (lane : Nat) (req : BitVec 512) (s : State) : Host.Outcome State Fault Refusal :=
  if 64 ≤ lane ∨ !s.bootOk then .next s
  else if (s.lane lane).code = 1 then .next (s.modLane lane Lane.drop)
  else
    let s1 := s.modLane lane (fun l => { l with seq := l.seq + 1, code := 1, detail := 0 })
    match s.foyerCheck (leBytes 64 req.toNat) with
    | .error (c, d) => .next (s1.modLane lane (fun l => { l with code := c, detail := d }))
    | .ok q => .next ((s1.modLane lane (fun l => { l with pending := some q })).foyerDecide lane)

/-- Bits of SEMSEL. -/
def semselMask : Word := 0x0000FF3F00FF00FF#64

/-- SEMVAL. -/
def semval (v : Sem) : Word := BitVec.ofNat 64 (v.count.toNat + (if v.poison then 2 ^ 16 else 0) + 2 ^ 63)

/-! ### The memory-side caches, walks and refresh (21 R390, R396 to R399) -/

/-- A write of MSCCTL (R398): one that asks for a flush while a flush is in progress is ignored. WAYEN reads its new
value from the write on (log 82). -/
def State.writeMscctl (s : State) (d : Nat) (v : Word) : State :=
  let x := s.die d
  if bitOf v 0 && x.mscOps.contains true then s
  else
    let w : BitVec 16 := if field v 8 16 = 0 then x.wayen else BitVec.ofNat 16 (field v 8 16)
    let ops := (if (x.wayen &&& ~~~w) != 0 then [false] else []) ++ (if bitOf v 0 then [true] else [])
    s.modDie d (fun k => { k with wayen := w, skipen := bitOf v 2, mscOps := k.mscOps ++ ops })

/-- MSCCTL as it reads, without FLUSH. -/
def Die.mscctl (d : Die) : Word := BitVec.ofNat 64 ((if d.mscOps.isEmpty then 0 else 2) + (if d.skipen then 4 else 0) + 2 ^ 8 * d.wayen.toNat)

/-- MSC_FLUSH: FLUSH is written, the other fields keeping their values. -/
def execMscFlush (die : Nat) (s : State) : Host.Outcome State Fault Refusal :=
  .next (if die < 4 ∧ s.bootOk then s.writeMscctl die ((s.die die).mscctl ||| 1) else s)

/-- MSC_WAY_CHANGE: WAYEN is written. -/
def execMscWayChange (die : Nat) (wayen : BitVec 16) (s : State) : Host.Outcome State Fault Refusal :=
  .next (if die < 4 ∧ s.bootOk then s.writeMscctl die (BitVec.ofNat 64 ((if (s.die die).skipen then 4 else 0) + 2 ^ 8 * wayen.toNat)) else s)

/-- MSC_OPERATION_DONE: the operation that began first is done (log 82). -/
def execMscOperationDone (die : Nat) (s : State) : Host.Outcome State Fault Refusal :=
  .next (if die < 4 then
    (match (s.die die).mscOps with
     | true :: _ => s.mscFlush die
     | false :: _ => s.mscDropAll (s.msc.filter (fun x => locDie (64 * x.line) == die && !(s.die die).wayen.getLsbD x.way))
     | [] => s).modDie die (fun d => { d with mscOps := d.mscOps.drop 1 })
  else s)

/-- TABLE_WALK: the die's walker starts a walk behind others; what it finds is the translation of R386 to R388, which no TLB
changes (R390). -/
def execTableWalk (die rgn : Nat) (va : BitVec 48) (ahead : Nat) (s : State) : Host.Outcome State Fault Refusal :=
  .next (match s.region? rgn with
    | some r =>
      if die < 4 ∧ s.walkMisses die r va.toNat then
        (s.walkFor (256 + die) r va.toNat).modDie die (fun d => { d with waitw := Nat.max d.waitw (Nat.min ahead 31) })
      else s
    | none => s)

/-- The number of a row group (R394). -/
def groupNo (channel bankgroup bank group : Nat) : Nat := ((channel * 4 + bankgroup) * 4 + bank) * 2048 + group

/-- The rows of a group that were accessed since its last visit (R394, R396). -/
def State.groupRows (s : State) (g : Nat) : List Nat := s.rows.filter (fun r => r / 64 == g)

/-- REFRESH_VISIT: the group is refreshed unless it was at the previous visit, or every row of it was activated since. Only an access
activates a row, and one that the memory-side cache serves does not: whether every row that was accessed was also activated is open
(R396; log 3). The visit clears the rows' bits. -/
def execRefreshVisit (channel bankgroup bank group : Nat) (s : State) : Host.Outcome State Fault Refusal :=
  if 256 ≤ channel ∨ 4 ≤ bankgroup ∨ 4 ≤ bank ∨ 2048 ≤ group then .next s
  else
    let g := groupNo channel bankgroup bank group
    let d := channel / 64
    let rest := s.refreshed.filter (fun x => x != g)
    let s1 : State := { s with refreshed := rest, rows := s.rows.filter (fun r => r / 64 != g) }.useFree
    if (s.die d).skipen && (s.refreshed.contains g || ((s.groupRows g).length == 64 && bitOf s.freeVal 0)) then
      .next (s1.modDie d (fun x => { x with skips := if x.skips = BitVec.allOnes 32 then x.skips else x.skips + 1 }))
    else .next { s1 with refreshed := rest ++ [g] }

/-! ### Registers of the map (22 R404; 00 R3; 25 R451) -/

/-- HOSTMEM under its field map: KEY takes no 0. -/
def hostmemOf (old v : Word) : Word :=
  BitVec.ofNat 64 (field v 0 3 + 2 ^ 14 * (if field v 14 10 = 0 then field old 14 10 else field v 14 10))

/-- HOSTRES of a die: a multiple of 64 within the sum of 04 R84. -/
def State.writeHostres (s : State) (d : Nat) (v : Word) : State :=
  let n := field v 0 21
  let s1 := s.modDie d (fun x => { x with hostres := n })
  if n % 64 = 0 ∧ s1.dieSumOk s1.regions d then s1 else s

/-- NBRLOST: FACE bits written as ones clear. -/
def State.writeNbrlost (s : State) (v : Word) : State := { s with nbrlost := s.nbrlost &&& ~~~(v &&& 0x3F) }

/-- NBRLOST_WRITE. -/
def execNbrlostWrite (v : Word) (s : State) : Host.Outcome State Fault Refusal := .next (if s.bootOk then s.writeNbrlost v else s)

/-- A write of a doubleword of the MSI-X table: a vector that is unmasked sends the message that it kept (R400). -/
def State.writeMsix (s : State) (k : Nat) (v : Word) : State :=
  let s1 : State := { s with msixTable := setK s.msixTable k v }
  if s1.msixPend.contains (k / 2) ∧ !s1.msixMasked (k / 2) then
    ({ s1 with msixPend := s1.msixPend.filter (fun x => x != k / 2) } : State).msix (k / 2)
  else s1

/-- A doubleword of a register block. -/
def dwordOf {w : Nat} (v : BitVec w) (o : Nat) : Word := BitVec.ofNat 64 (field v (8 * o) 64)

/-- An 8-byte write at an offset of BAR0 that is not a mailbox command: a misaligned one has no effect, but one to a request area of
the Foyer counts as a discarded write (R404, R411); after a failed boot nothing but the mailbox answers (R413). -/
def State.barWrite (s : State) (off : Nat) (v : Word) : State :=
  if !s.bootOk then s
  else if 0x10000 ≤ off ∧ off < 0x12000 ∧ (off - 0x10000) % 128 < 0x40 then s.modLane ((off - 0x10000) / 128) Lane.drop
  else if off % 8 ≠ 0 then s
  else if off = 0x08 then (if s.bootReady then { s with hostmem := hostmemOf s.hostmem v } else s)
  else if off = 0x10 then s.writeNbrlost v
  else if off = 0x18 then (if s.bootReady then { s with nbrvec := v &&& 0x7FF } else s)
  else if off = 0x1000 then s.writeRcmd v
  else if 0x2000 ≤ off ∧ off < 0x2020 then (if s.bootReady ∧ s.ccmd = 0 then { s with ccmdDesc := putDword s.ccmdDesc (off - 0x2000) v } else s)
  else if off = 0x2020 then s.writeCcmd v
  else if 0x2800 ≤ off ∧ off < 0x2840 then (if s.bootReady ∧ s.bcmd = 0 then { s with bcmdDesc := putDword s.bcmdDesc (off - 0x2800) v } else s)
  else if off = 0x2840 then s.writeBcmd v
  else if 0x4000 ≤ off ∧ off < 0xC000 then s.writeMsix ((off - 0x4000) / 8) v
  else if 0x10000 ≤ off ∧ off < 0x12000 then
    if (off - 0x10000) % 128 = 0x48 then s.modLane ((off - 0x10000) / 128) (fun l => { l with semsel := v &&& semselMask }) else s
  else if 0x20000 ≤ off ∧ off < 0x24000 then
    let d := (off - 0x20000) / 0x1000
    let o := (off - 0x20000) % 0x1000
    if o = 0 then s.writeMscctl d v
    else if o = 0x10 then (if s.bootReady then s.writeHostres d v else s)
    else s
  else s

/-- REGISTER_WRITE: a write of 8 bytes at an offset of BAR0; mailbox commands have rows of their own. -/
def execRegisterWrite (off : Nat) (v : Word) (s : State) : Host.Outcome State Fault Refusal := .next (s.barWrite off v)

/-! ### Reads of the map (22 R404, R411, R415; 21 R398, R399; 00 R3) -/

/-- STATUS of a Foyer lane (R411). -/
def Lane.status (l : Lane) : Word := BitVec.ofNat 64 (l.code + 2 ^ 8 * l.detail + 2 ^ 24 * l.drops + 2 ^ 32 * l.seq.toNat)

/-- SEMVAL of a lane's selection: 0 where it names no bound semaphore, and none while its cluster is suspended (R411; 02 R45). -/
def State.semvalOf (s : State) (lane : Nat) : Option Word :=
  let w := (s.lane lane).semsel
  match s.frame? (field w 16 8) (field w 40 8) (field w 32 6) with
  | none => some 0
  | some f =>
    if f.hdr.ksems ≤ field w 0 8 then some 0
    else if f.stopped then none
    else some (semval (f.sem (field w 0 8)))

/-- The pending bits of vectors 64 k to 64 k + 63 (R400). -/
def State.msixPending (s : State) (k : Nat) : Word :=
  s.msixPend.foldl (fun w v => if v / 64 = k then setBit w (v % 64) true else w) 0

/-- MSCSTAT of a die (21 R399). -/
def Die.mscstat (d : Die) : Word := BitVec.ofNat 64 (d.waitw + 2 ^ 16 * d.walks + 2 ^ 32 * d.skips.toNat)

/-- A read of 8 bytes at an offset of BAR0: the value, or none while it waits at a suspended cluster (02 R45). Offsets that R404 does
not list, misaligned ones and write-only fields read as zero (00 R3); after a failed boot nothing but the mailbox answers (R413). -/
def State.barRead (s : State) (off : Nat) : Option Word :=
  if off % 8 ≠ 0 then some 0
  else if off = 0x3000 then some s.mbcmd
  else if off = 0x3008 then some s.mbstat
  else if !s.bootOk then some 0
  else if off = 0x00 then some s.bootstat
  else if off = 0x08 then some s.hostmem
  else if off = 0x10 then some s.nbrlost
  else if off = 0x18 then some s.nbrvec
  else if off = 0x1000 then some (s.rcmd &&& ~~~7#64)
  else if off = 0x1008 then some s.rstat
  else if 0x2000 ≤ off ∧ off < 0x2020 then some (dwordOf s.ccmdDesc (off - 0x2000))
  else if off = 0x2020 then some (s.ccmd.setWidth 64)
  else if 0x2800 ≤ off ∧ off < 0x2840 then some (dwordOf s.bcmdDesc (off - 0x2800))
  else if off = 0x2840 then some (s.bcmd.setWidth 64)
  else if 0x4000 ≤ off ∧ off < 0xC000 then some (s.msixDword ((off - 0x4000) / 8))
  else if 0xC000 ≤ off ∧ off < 0xC100 then some (s.msixPending ((off - 0xC000) / 8))
  else if 0x10000 ≤ off ∧ off < 0x12000 then
    let k := (off - 0x10000) / 128
    let o := (off - 0x10000) % 128
    if o = 0x40 then some (s.lane k).status
    else if o = 0x48 then some (s.lane k).semsel
    else if o = 0x50 then s.semvalOf k
    else some 0
  else if 0x20000 ≤ off ∧ off < 0x24000 then
    let d := s.die ((off - 0x20000) / 0x1000)
    let o := (off - 0x20000) % 0x1000
    if o = 0 then some d.mscctl
    else if o = 8 then some d.mscstat
    else if o = 0x10 then some (BitVec.ofNat 64 d.hostres)
    else some 0
  else some 0

/-- What a read leaves: MSCSTAT's WALKS and WAITW clear (21 R399). -/
def State.barClear (s : State) (off : Nat) : State :=
  if s.bootOk ∧ 0x20000 ≤ off ∧ off < 0x24000 ∧ (off - 0x20000) % 0x1000 = 8 then
    s.modDie ((off - 0x20000) / 0x1000) (fun d => { d with walks := 0, waitw := 0 })
  else s

/-- A host read of BAR0: the value goes to the host. -/
def State.hostReads (s : State) (off : Nat) : State :=
  match s.barRead off with
  | some v => let s1 := s.barClear off; { s1 with hostOut := s1.hostOut ++ [.reg off v] }
  | none => s

/-- SEMVAL_READ: performed at the selected semaphore's arbiter, for a suspended one after its resumption (02 R45). -/
def execSemvalRead (lane : Nat) (s : State) : Host.Outcome State Fault Refusal :=
  .next (if lane < 64 then s.hostReads (0x10000 + 128 * lane + 0x50) else s)

/-- MSCSTAT_READ: the value goes to the host, and WALKS and WAITW clear. -/
def execMscstatRead (die : Nat) (s : State) : Host.Outcome State Fault Refusal :=
  .next (if die < 4 then s.hostReads (0x20008 + 0x1000 * die) else s)

end Sys2Proof.Machine
end

