-- ==== Sys2Proof/Machine/MlKem.lean ====
section
/-! DEFINITION. Key generation and decapsulation of ML-KEM-1024 (FIPS 203), by which 22 R415 establishes the key that wraps a key pair
(log 9). Polynomials are lists of 256 coefficients below 3,329; names follow FIPS 203. -/

namespace Sys2Proof.Machine

/-! ### Its functions of FIPS 202 -/

def kemG (l : List Byte) : List Byte := sponge 72 0x06 l 64
def kemH (l : List Byte) : List Byte := sponge 136 0x06 l 32

/-! ### Polynomials -/

def kemQ : Nat := 3329

abbrev Poly := List Nat

def polyAdd (a b : Poly) : Poly := List.zipWith (fun x y => (x + y) % kemQ) a b
def polySub (a b : Poly) : Poly := List.zipWith (fun x y => (x + kemQ - y) % kemQ) a b

/-- The reversal of seven bits. -/
def bitRev7 (k : Nat) : Nat := (List.range 7).foldl (fun n j => 2 * n + k / 2 ^ j % 2) 0

/-- The root of a node of the transform, and its inverse; 17 has order 256. -/
def zeta (k : Nat) : Nat := 17 ^ bitRev7 k % kemQ
def zetaInv (k : Nat) : Nat := 17 ^ (256 - bitRev7 k) % kemQ

/-- The number-theoretic transform from a node on; 7 levels from node 1. -/
def ntt : Nat → Nat → Poly → Poly
  | 0, _, l => l
  | d + 1, k, l =>
    let h := l.length / 2
    let t := (l.drop h).map (fun x => zeta k * x % kemQ)
    ntt d (2 * k) (polyAdd (l.take h) t) ++ ntt d (2 * k + 1) (polySub (l.take h) t)

/-- Its inverse; 1,665 is the inverse of 2. -/
def nttInv : Nat → Nat → Poly → Poly
  | 0, _, l => l
  | d + 1, k, l =>
    let h := l.length / 2
    let x := nttInv d (2 * k) (l.take h)
    let y := nttInv d (2 * k + 1) (l.drop h)
    (polyAdd x y).map (fun v => 1665 * v % kemQ) ++ (polySub x y).map (fun v => 1665 * zetaInv k % kemQ * v % kemQ)

/-- The product of two transforms, pair by pair. -/
def nttMul : Nat → Poly → Poly → Poly
  | i, a0 :: a1 :: a, b0 :: b1 :: b =>
    let g := 17 ^ (2 * bitRev7 i + 1) % kemQ
    (a0 * b0 + a1 * b1 % kemQ * g) % kemQ :: (a0 * b1 + a1 * b0) % kemQ :: nttMul (i + 1) a b
  | _, _, _ => []

/-- The inner product of two vectors of transforms. -/
def nttDot (a b : List Poly) : Poly := (List.zipWith (nttMul 0) a b).foldl polyAdd (List.replicate 256 0)

/-! ### Encodings -/

/-- Bits of bytes, the lowest of each byte first, and back. -/
def bitsOf (l : List Byte) : List Bool := l.flatMap (fun (b : Byte) => (List.range 8).map b.getLsbD)
def bytesOf : Nat → List Bool → List Byte
  | 0, _ => []
  | n + 1, l => BitVec.ofNat 8 ((l.take 8).foldr (fun b v => 2 * v + b.toNat) 0) :: bytesOf n (l.drop 8)

/-- ByteEncode and ByteDecode of 256 coefficients of d bits. -/
def byteEncode (d : Nat) (f : Poly) : List Byte := bytesOf (32 * d) (f.flatMap (fun v => (List.range d).map v.testBit))
def chunkBits (d : Nat) : Nat → List Bool → List Nat
  | 0, _ => []
  | n + 1, l => (l.take d).foldr (fun b v => 2 * v + b.toNat) 0 :: chunkBits d n (l.drop d)
def byteDecode (d : Nat) (l : List Byte) : Poly := (chunkBits d 256 (bitsOf l)).map (fun v => if d = 12 then v % kemQ else v)

/-- Compress and Decompress. -/
def compress (d : Nat) (f : Poly) : Poly := f.map (fun x => (2 ^ d * x * 2 + kemQ) / (2 * kemQ) % 2 ^ d)
def decompress (d : Nat) (f : Poly) : Poly := f.map (fun y => (2 * kemQ * y + 2 ^ d) / 2 ^ (d + 1))

/-- Pieces of n bytes. -/
def cut (n : Nat) : Nat → List Byte → List (List Byte)
  | 0, _ => []
  | k + 1, l => l.take n :: cut n k (l.drop n)

/-! ### Sampling -/

/-- Candidates below q from triples of bytes. -/
def rejectQ : List Byte → List Nat
  | a :: b :: c :: r =>
    let x := a.toNat + 256 * (b.toNat % 16)
    let y := b.toNat / 16 + 16 * c.toNat
    (if x < kemQ then [x] else []) ++ (if y < kemQ then [y] else []) ++ rejectQ r
  | _ => []

/-- SampleNTT from SHAKE128, of which 16 blocks hold far more candidates than it takes. -/
def sampleNtt (seed : List Byte) : Poly := (rejectQ (sponge 168 0x1F seed 2688)).take 256

/-- SamplePolyCBD with eta = 2. -/
def sampleCbd (l : List Byte) : Poly :=
  let b := bitsOf l
  let n (k : Nat) : Nat := (b.getD k false).toNat
  (List.range 256).map (fun i => (n (4 * i) + n (4 * i + 1) + kemQ - n (4 * i + 2) - n (4 * i + 3)) % kemQ)

/-- The samples numbered from `from_` on of a seed. -/
def noise (seed : List Byte) (from_ n : Nat) : List Poly :=
  (List.range n).map (fun k => sampleCbd (shake256 (seed ++ [BitVec.ofNat 8 (from_ + k)]) 128))

/-- The matrix of a seed, transform (i, j); `t` takes its transpose. -/
def kemMatrix (rho : List Byte) (t : Bool) : List (List Poly) :=
  (List.range 4).map (fun i => (List.range 4).map (fun j =>
    sampleNtt (rho ++ (if t then [BitVec.ofNat 8 i, BitVec.ofNat 8 j] else [BitVec.ofNat 8 j, BitVec.ofNat 8 i]))))

/-! ### K-PKE and ML-KEM-1024 -/

/-- The key pair of the seed d: the decryption key's transforms, and the encapsulation key. -/
def kemKeys (d : List Byte) : List Poly × List Byte :=
  let x := kemG (d ++ [4])
  let rho := x.take 32
  let s := (noise (x.drop 32) 0 4).map (ntt 7 1)
  let e := (noise (x.drop 32) 4 4).map (ntt 7 1)
  let t := List.zipWith (fun row ei => polyAdd (nttDot row s) ei) (kemMatrix rho false) e
  (s, t.flatMap (byteEncode 12) ++ rho)

/-- K-PKE.Encrypt of a message with randomness r. -/
def kemEncrypt (ek m r : List Byte) : List Byte :=
  let t := (cut 384 4 ek).map (byteDecode 12)
  let y := (noise r 0 4).map (ntt 7 1)
  let e1 := noise r 4 4
  let e2 := (noise r 8 1).flatten
  let u := List.zipWith (fun row e => polyAdd (nttInv 7 1 (nttDot row y)) e) (kemMatrix (ek.drop 1536) true) e1
  let v := polyAdd (polyAdd (nttInv 7 1 (nttDot t y)) e2) (decompress 1 (byteDecode 1 m))
  u.flatMap (fun p => byteEncode 11 (compress 11 p)) ++ byteEncode 5 (compress 5 v)

/-- K-PKE.Decrypt. -/
def kemDecrypt (s : List Poly) (c : List Byte) : List Byte :=
  let u := (cut 352 4 c).map (fun b => ntt 7 1 (decompress 11 (byteDecode 11 b)))
  byteEncode 1 (compress 1 (polySub (decompress 5 (byteDecode 5 (c.drop 1408))) (nttInv 7 1 (nttDot s u))))

/-- ML-KEM.Decaps under the key of the seeds d and z: the shared key of a ciphertext of 1,568 bytes. -/
def kemDecaps (d z c : List Byte) : List Byte :=
  let k := kemKeys d
  let m := kemDecrypt k.1 c
  let x := kemG (m ++ kemH k.2)
  if kemEncrypt k.2 m (x.drop 32) = c then x.take 32 else shake256 (z ++ c) 32

end Sys2Proof.Machine
end

