-- ==== Sys2Proof/Machine/Smc.lean ====
section
/-! DEFINITION. The SMC: boot, the mailbox, keys, telemetry, checkpoints and moves (22 R413 to R416; 21 R391, R392; 25 R447,
R449). -/

namespace Sys2Proof.Machine

/-! ### Boot (22 R413, R414) -/

/-- The good physical clusters of a die in ascending order. -/
def goodOf (failed : List Nat) (d : Nat) : List Nat := (List.range 72).filter (fun n => !failed.contains (72 * d + n))

/-- Where the logical clusters lie that are not on the physical cluster of their own place (R413 item 4). -/
def mapOf (failed : List Nat) : List (Nat × Nat) :=
  (List.range 256).filterMap (fun c =>
    let p := 72 * (c / 64) + nth (goodOf failed (c / 64)) (c % 64) 0
    if p = 72 * (c / 64) + c % 64 then none else some (c, p))

/-- BOOTSTAT. -/
def bootWord (stage modules failStage failCode : Nat) : Word := BitVec.ofNat 64 (stage + 2 ^ 10 * modules + 2 ^ 13 * failStage + 2 ^ 16 * failCode)

/-- A SHAKE256 digest of 64 bytes (R414; log 9). -/
def digest512 (l : List Byte) : BitVec 512 := BitVec.ofNat 512 (fromLE (shake256 l 64))

/-- The image's signature over its digest verifies under the key that it carries, and that key's digest is fused (R414). -/
def State.signed (s : State) (b : BootData) : Bool := digest512 b.key == s.fusedKey && xmssVerify b.key (shake256 b.image 64) b.sig

/-- The image is accepted: it is signed, and its version is not rolled back (R414). -/
def State.accepts (s : State) (b : BootData) : Bool := s.signed b && decide (s.rollback.toNat ≤ b.fwVersion.toNat)

/-- The physical clusters that count as failed: by their test or by the fused list (R413 item 4). -/
def State.failedBy (s : State) (b : BootData) : List Nat := s.fusedBad ++ b.failed

/-- The stage and code at which the boot fails, if it does: what loading, training and tests give comes from the data, the fused key,
the rollback counter and the number of good clusters are the package's. The reason of a failed load is one of the codes (log 9). -/
def State.bootFails (s : State) (b : BootData) : Option (Nat × Nat) :=
  if b.failStage = 1 then some (1, b.failCode % 5)
  else if !s.accepts b then some (2, if s.signed b then 2 else 1)
  else if b.failStage = 3 then some (3, 3)
  else if (List.range 4).any (fun d => decide ((goodOf (s.failedBy b) d).length < 64)) then some (4, 4)
  else if b.failStage = 6 ∨ ¬(b.modules = 1 ∨ b.modules = 2 ∨ b.modules = 4) then some (6, 3)
  else none

/-- The package as power-on finds it: what is fused or persistent stays (R414, R415). -/
def State.powerReset (s : State) : State :=
  { State.reset with
    rollback := s.rollback, attestUsed := s.attestUsed, fusedKey := s.fusedKey, fusedBad := s.fusedBad, kemSeed := s.kemSeed, agenda := s.agenda, auto := s.auto, seq := s.seq, free := s.free }

/-- POWER_ON: the boot stages, to Ready or to a recorded failure. Stage 5 sets PKGID with the rest of the fabric address (23 R417). -/
def execPowerOn (boot : BootData) (s : State) : Host.Outcome State Fault Refusal :=
  let r := s.powerReset
  let accepted : State := { r with
    rollback := BitVec.ofNat 32 (Nat.max r.rollback.toNat boot.fwVersion.toNat), firmware := boot.fwVersion, fwDigest := digest512 boot.image }
  let mapped : State := { accepted with badPhys := s.failedBy boot, clmap := mapOf (s.failedBy boot) }
  let keyed : State := { mapped with pkgid := boot.pkgid, netId := boot.netId, iface := boot.iface, keys := [(0, .pair boot.systemKey)] }
  .next (match s.bootFails boot with
    | some (k, c) =>
      let base := if k ≤ 2 then r else if k = 3 then accepted else if k = 4 then { accepted with badPhys := s.failedBy boot } else keyed
      { base with bootstat := bootWord k 0 k c }
    | none => { keyed with bootstat := bootWord 7 boot.modules 0 0 })

/-! ### The mailbox (22 R415) -/

/-- Command number and request buffer of MBCMD. -/
def mbOp (v : Word) : Nat := field v 0 8
def mbBuf (v : Word) : Nat := field v 12 52 * 4096

/-- A command of the mailbox ends in its step with a result. -/
def State.mbEnd (s : State) (v : Word) (result : Nat) : State := { s with mbcmd := v &&& 0xFFFFFFFFFFFFF0FF#64, mbstat := BitVec.ofNat 64 result }

/-- The SMC cannot read n bytes of the request buffer: a read of one of its lines completes with an error (R415; log 18). -/
def State.bufBad (s : State) (v : Word) (n : Nat) : Bool := (List.range ((n + 63) / 64)).any (fun k => s.hostStatus (.host (mbBuf v + 64 * k)) != 0)

/-- A command of one number with a request buffer of n bytes; a write of another is no such event (log 12). A buffer that cannot be
read gives result 1, and a write while a command is busy is ignored (R415). -/
def mailbox (op n : Nat) (v : Word) (s : State) (run : State → Nat × State) : Host.Outcome State Fault Refusal :=
  .next (if bitOf s.mbstat 63 then s else if mbOp v = op then (if s.bufBad v n then s.mbEnd v 1 else let x := run s; x.2.mbEnd v x.1) else s)

/-- A result that changes nothing else. -/
def mbOnly (k : Nat) (s : State) : Nat × State := (k, s)

/-- ATTEST: the next one-time index is spent before the report is released; without one left the result is 3. The report goes to the
request buffer, whose first 32 bytes hold the nonce (DESIGN CHOICE, log 9). -/
def execAttest (v : Word) (signature : List Byte) (s : State) : Host.Outcome State Fault Refusal :=
  mailbox 1 32 v s (fun s =>
    if 2 ^ 20 ≤ s.attestUsed then mbOnly 3 s
    else
      let nonce := BitVec.ofNat 256 (fromLE (memRead s.hostMem (mbBuf v) 32))
      let report := Config.attestReport s.pkgid s.fwDigest s.fusedKey s.rollback s.fusedBad nonce (2 ^ 20 - 1 - s.attestUsed) s.attestUsed signature
      (0, { s with attestUsed := s.attestUsed + 1, hostMem := memWrite s.hostMem (mbBuf v) report }))

/-- A change of a key slot; slot 0 is refused. The lines that are tagged with it are written back and leave the caches first (21 R391,
R392). -/
def setSlot (slot : Nat) (k : KeySlot) (s : State) : Nat × State :=
  if slot = 0 then mbOnly 2 s else if 1023 < slot then mbOnly 1 s else
    let s1 := s.mscDropAll (s.msc.filter (fun x => x.key == slot))
    (0, { s1 with keys := setK s1.keys slot k })

/-- The wrapping key of a ciphertext: the device decapsulates it with its KEM key pair, which grows from the seeds d and z (R415). -/
def State.wrapKey (s : State) (ciphertext : List Byte) : BitVec 256 :=
  let seed := (bytesOfNat 64 s.kemSeed.toNat).map (BitVec.ofNat 8)
  BitVec.ofNat 256 (natOfBytes ((kemDecaps (seed.take 32) (seed.drop 32) ciphertext).map (fun b => b.toNat)))

/-- LOADKEY: the first 72 bytes of the request buffer are unwrapped with AES-256-KW under the key that the 1,568 bytes of ML-KEM
ciphertext after them establish (the buffer's layout is log 9); a key that fails to unwrap leaves the slot unchanged. The row's last
operand, the key as the host computed it, decides nothing. -/
def execLoadkey (v : Word) (slot : Nat) (_kek : BitVec 256) (s : State) : Host.Outcome State Fault Refusal :=
  mailbox 2 1640 v s (fun s =>
    match unwrapPair (s.wrapKey (memRead s.hostMem (mbBuf v + 72) 1568)) (memRead s.hostMem (mbBuf v) 72) with
    | some k => setSlot slot (.pair k) s
    | none => mbOnly (if slot ≤ 1023 then 2 else 1) s)

/-- EMPTYKEY. -/
def execEmptykey (v : Word) (slot : Nat) (s : State) : Host.Outcome State Fault Refusal := mailbox 3 64 v s (setSlot slot .empty)

/-- BYPASSKEY. -/
def execBypasskey (v : Word) (slot : Nat) (s : State) : Host.Outcome State Fault Refusal := mailbox 4 64 v s (setSlot slot .bypass)

/-- A command number with no meaning is taken and completes with result 1. -/
def execMailboxUnknownCommand (v : Word) (s : State) : Host.Outcome State Fault Refusal :=
  .next (if !bitOf s.mbstat 63 && (mbOp v == 0 || decide (9 ≤ mbOp v)) then s.mbEnd v 1 else s)

/-! ### Spares and moves (22 R416; 25 R444, R445) -/

/-- A physical cluster carries no logical number, passed its test and is not fenced. -/
def State.unassigned (s : State) (p : Nat) : Bool :=
  decide (p < 288) && (s.logicalOn p).isNone && !s.badPhys.contains p && !s.fencedPhys.contains p

/-- The unassigned spares of a die in ascending order. -/
def State.spares (s : State) (d : Nat) : List Nat := ((List.range 72).map (fun n => 72 * d + n)).filter s.unassigned

/-- A logical cluster lies on another physical cluster from now on; its work in flight counts that one's pulses. -/
def State.mapTo (s : State) (cl p : Nat) : State :=
  let s1 : State := { s with clmap := setK s.clmap cl p }
  { s1 with acts := s1.acts.map (fun a => if a.cl = cl then { a with cyc := s1.pulse cl + (a.cyc - s.pulse cl) } else a) }

/-- The result of a MOVE of a logical cluster: a named target is unassigned and not fenced; the one that 0xFF selects has passed its tests too
(R416). -/
def State.moveRun (s : State) (cl target : Nat) : Nat × State :=
  let d := cl / 64
  if s.frames.any (fun f => f.cl == cl && !f.suspended) || s.rgnBusy cl || s.fencedLog.contains cl then mbOnly 2 s
  else if target = 0xFF then (match s.spares d with | [] => mbOnly 3 s | p :: _ => (0, s.mapTo cl p))
  else if target < 72 ∧ (s.logicalOn (72 * d + target)).isNone ∧ ¬s.fencedPhys.contains (72 * d + target) then (0, s.mapTo cl (72 * d + target))
  else mbOnly 2 s

/-- MOVE (R416). -/
def execMove (v : Word) (s : State) : Host.Outcome State Fault Refusal :=
  mailbox 8 8 v s (fun s =>
    let b := memRead s.hostMem (mbBuf v) 8
    if dfield b 2 6 ≠ 0 ∨ (72 ≤ dfield b 1 1 ∧ dfield b 1 1 ≠ 0xFF) then mbOnly 1 s else s.moveRun (dfield b 0 1) (dfield b 1 1))

/-! ### Telemetry (25 R447) -/

/-- Inserts a checkpoint, newest CKSEQ first. -/
def insertCk (c : Checkpoint) : List Checkpoint → List Checkpoint
  | [] => [c]
  | x :: r => if x.ckseq.toNat < c.ckseq.toNat then c :: x :: r else x :: insertCk c r

/-- The complete checkpoints of the store, newest first. -/
def State.ckSorted (s : State) : List Checkpoint := s.ckpts.foldr insertCk []

/-- CKSEQ: the highest complete value of the package's own copies. -/
def State.ckseq (s : State) : Word :=
  match s.ckSorted.find? (fun c => !c.held) with
  | some c => c.ckseq
  | none => 0

/-- An entry of CKDIR. -/
def Checkpoint.entry (c : Checkpoint) : List Byte :=
  leBytes 1 c.rgn ++ leBytes 1 (if c.held then 1 else 0) ++ leBytes 2 0 ++ leBytes 4 c.origin ++ leBytes 8 c.ckseq.toNat

/-- A die's counters. -/
def State.telemDie (s : State) (d : Nat) : List Byte :=
  let x := s.die d
  [x.eccCorr, x.eccUnc, x.crc, x.fences, x.remaps, (s.spares d).length, x.satSamples, x.emergencies].flatMap (leBytes 4) ++ leBytes 32 0

/-- A port's counters. -/
def State.telemPort (s : State) (p : Nat) : List Byte :=
  let x := s.eport p
  [if x.up then 1 else 0, x.changes, x.crc, x.drops].flatMap (leBytes 4)

/-- The snapshot. -/
def State.snapshot (s : State) : List Byte :=
  let dir := (s.ckSorted.take 12).flatMap Checkpoint.entry
  leBytes 4 0x4D4C4554 ++ leBytes 4 1 ++ leBytes 8 s.timeNs.toNat ++ leBytes 8 s.pkgid.toNat ++ leBytes 8 s.ckseq.toNat ++
    dir ++ leBytes (192 - dir.length) 0 ++ leBytes 8 s.nbrlost.toNat ++ leBytes 24 0 ++
    (List.range 4).flatMap s.telemDie ++ (List.range 16).flatMap s.telemPort ++ leBytes 3328 0

/-- TELEM. -/
def execTelem (v : Word) (s : State) : Host.Outcome State Fault Refusal :=
  mailbox 6 64 v s (fun s => (0, { s with hostMem := memWrite s.hostMem (mbBuf v) s.snapshot }))

/-! ### Checkpoints (25 R449) -/

/-- A store keeps the two newest complete checkpoints of each origin and region. -/
def State.keepCk (s : State) (c : Checkpoint) : State :=
  let same (x : Checkpoint) : Bool := x.held == c.held && x.rgn == c.rgn
  let keep := (((s.ckpts ++ [c]).filter same).foldr insertCk []).take 2
  { s with ckpts := (s.ckpts ++ [c]).filter (fun x => !same x || keep.contains x) }

/-- The bytes of a region's global range, line by line; none where a line fails its translation or is in error (04 R100). -/
def State.rangeBytes (s : State) (r : Region) (va : Nat) : Nat → Option (List Byte)
  | 0 => some []
  | n + 1 =>
    match s.translate r (va % 2 ^ 48) 0 false with
    | .error _ => none
    | .ok (loc, k, w) =>
      if (s.badAt r.num 0 (.global loc k w)).isSome then none
      else match s.rangeBytes r (va + 1) n with
      | none => none
      | some l => some (s.hbmByte k loc :: l)

/-- The bytes of the listed ranges. -/
def State.rangesBytes (s : State) (r : Region) : List (Nat × Nat) → Option (List Byte)
  | [] => some []
  | (va, n) :: rest =>
    match s.rangeBytes r va n with
    | none => none
    | some l =>
      match s.rangesBytes r rest with
      | none => none
      | some m => some (l ++ m)

/-- The save blocks of a region on the clusters where it holds frames. -/
def State.blocksOf (s : State) (r : Region) : List (List Byte) :=
  ((List.range 256).filter (fun c => !(s.framesOn c r.num).isEmpty)).filterMap (fun c => s.readBlock r c)

/-- The ranges of a request buffer. -/
def ckRanges (b : List Byte) : List (Nat × Nat) := (List.range (dfield b 1 1)).map (fun k => (dfield b (16 + 16 * k) 8, dfield b (24 + 16 * k) 8))

/-- The first byte of the store, and its size (R449). -/
def storeBase : Nat := 0x7000000000
def storeSize : Nat := 0x1000000000

/-- The parts of the store in use: first byte and length. -/
def State.storeUse (s : State) : List (Nat × Nat) := s.ckpts.map (fun c => (c.base, c.len)) ++ s.ckJobs.map (fun j => (j.ck.base, j.ck.len))

/-- Where n bytes find room in the store: behind the part of lowest end that leaves it, line by line (log 33). -/
def State.storeRoom (s : State) (n : Nat) : Option Nat :=
  let up (k : Nat) : Nat := (k + 63) / 64 * 64
  let ok (b : Nat) : Bool := decide (b + n ≤ storeSize) && s.storeUse.all (fun x => decide (x.1 + up x.2 ≤ b) || decide (b + up n ≤ x.1))
  lowest ok (0 :: s.storeUse.map (fun x => x.1 + up x.2))

/-- A region's checkpoint: its content is to go to the own store and over the +X face to the neighbour's; the command is busy until both
copies are written (R449; log 33). -/
def State.checkpointRun (s : State) (b : List Byte) : Nat × State :=
  let rgn := dfield b 0 1
  let ck : Word := BitVec.ofNat 64 (dfield b 8 8)
  if dfield b 2 6 ≠ 0 ∨ 64 < dfield b 1 1 then mbOnly 1 s
  else match s.region? rgn with
    | none => mbOnly 2 s
    | some r =>
      let blocks := s.blocksOf r
      let total : Nat := (ckRanges b).foldl (fun n x => n + x.2) (blocks.foldl (fun n l => n + l.length) 0)
      let stale : Bool := match s.ckSorted.find? (fun c => !c.held && c.rgn == rgn) with | some c => decide (ck.toNat ≤ c.ckseq.toNat) | none => false
      if s.frames.any (fun f => f.rgn == rgn && !f.suspended) || decide (2 ^ 34 < total) || stale then mbOnly 2 s
      else
        let s0 := ((List.range 256).filter (fun c => !(s.framesOn c r.num).isEmpty)).foldl (fun s c => s.touchBlock none r c) s
        let s1 := (ckRanges b).foldl (fun s x => s.touchLines none r x.1 (lineSpan x.1 x.2)) s0
        match s.rangesBytes r (ckRanges b), s.storeRoom total with
        | some l, some base =>
          let job : CkJob := { ck := { rgn := rgn, held := false, origin := s.pkgid.toNat, ckseq := ck, base := base, len := total },
                               rest := blocks.flatMap id ++ l, done := 0 }
          (2 ^ 63, { s1 with ckJobs := s1.ckJobs ++ [job] })
        | _, _ => (2, s1)

/-- CHECKPOINT. -/
def execCheckpoint (v : Word) (s : State) : Host.Outcome State Fault Refusal :=
  mailbox 7 1040 v s (fun s => s.checkpointRun (memRead s.hostMem (mbBuf v) 1040))

/-- CHECKPOINT_COPY_RECEIVE: a copy of the -X neighbour's checkpoint is to be kept; one that finds no room is not (log 33). -/
def execCheckpointCopyReceive (origin rgn : Nat) (ckseq : Word) (bytes : List Byte) (s : State) : Host.Outcome State Fault Refusal :=
  .next (match s.storeRoom bytes.length with
    | some base =>
      { s with ckJobs := s.ckJobs ++
          [{ ck := { rgn := rgn, held := true, origin := origin, ckseq := ckseq, base := base, len := bytes.length }, rest := bytes, done := 0 }] }
    | none => s)

/-- The HBM location of a job's next line. -/
def CkJob.loc (j : CkJob) : Nat := place 2 (storeBase + j.ck.base + j.done)

/-- A job can write its next line: its die's reserve has room in this window, and for a copy of the own the +X face is up (R449; 22 R402;
log 33). -/
def State.ckMay (s : State) (j : CkJob) : Bool :=
  let d := s.die (locDie j.loc)
  j.rest.isEmpty || (!s.walkHolds (j.loc / 64) && (d.hostres == 0 || decide (d.hostUsed + 64 ≤ d.hostres)) && (j.ck.held || (facePorts 0 true).any (fun p => (s.eport p).up)))

/-- A line of a job that meets a CRC mismatch, at the port through which it is to leave or at its HBM write: it is counted, not written and
not sent, and tried again (04 R99, R100; 25 R449; log 18). -/
def State.ckBad (s : State) (j : CkJob) : Option State :=
  let out := if j.ck.held then none else (s.least (facePorts 0 true)).head?
  match out.filter s.txBad.contains with
  | some p => some { s.modEport p (fun e => { e with crc := satInc e.crc }) with txBad := s.txBad.erase p }
  | none => if s.hostWBad.contains (j.loc / 64) then some (s.writeBad [j.loc / 64]) else none

/-- The next line of a job: written under key slot 0, charged to the reserve, and sent on. -/
def State.ckLine (s : State) (j : CkJob) : State :=
  let line := j.rest.take 64
  match s.ckBad j with
  | some s1 => s1
  | none =>
  let s1 := (s.hbmWrite 0 j.loc line).modDie (locDie j.loc) (fun d => if d.hostres = 0 then d else { d with hostUsed := d.hostUsed + 64 })
  let out := match s.least (facePorts 0 true) with
    | p :: _ => if j.ck.held then [] else [HostOut.checkpoint p s.pkgid j.ck.rgn j.ck.ckseq j.done line]
    | [] => []
  { s1 with hostOut := s1.hostOut ++ out,
            ckJobs := s1.ckJobs.map (fun x => if x = j then { j with rest := j.rest.drop 64, done := j.done + 64 } else x) }

/-- A job with nothing left: the checkpoint is complete, and the command of the package's own ends with 0. -/
def State.ckEnd (s : State) (j : CkJob) : State :=
  let s1 : State := ({ s with ckJobs := s.ckJobs.erase j } : State).keepCk j.ck
  if j.ck.held then s1 else { s1 with mbstat := 0 }

/-- The next step of a checkpoint that is being written. -/
def State.ckTurn (s : State) : Option State :=
  match s.ckJobs.find? s.ckMay with
  | some j => some (if j.rest.isEmpty then s.ckEnd j else s.ckLine j)
  | none => none

end Sys2Proof.Machine
end

