-- ==== Sys2Proof/Machine/Fleet.lean ====
section
/-! DEFINITION. Fences, spare remaps, the watchdog and heartbeats (25 R444 to R446, R451; 19 R362; 22 R415). -/

namespace Sys2Proof.Machine

/-! ### Fencing (R444, R446) -/

/-- The regions with frames on a cluster. -/
def State.regionsOn (s : State) (cl : Nat) : List Region := s.regions.filter (fun r => s.frames.any (fun f => f.cl == cl && f.rgn == r.num))

/-- A region's state on a cluster is suspended: it lies in the save block already. -/
def State.savedOn (s : State) (cl rgn : Nat) : Bool := (s.framesOn cl rgn).any (fun f => f.suspended)

/-- A cluster has the slots, the queue entries and the reservations for what a block restores, once the region's own are free (01 R13;
19 R376; log 68). -/
def State.blockFits (s : State) (cl : Nat) (r : Region) (l : List SavedFrame) : Bool :=
  let s0 : State := ({ s with
    threads := s.threads.filter (fun t => !(t.cl == cl && t.rgn == r.num)),
    frames := s.frames.map (fun f => if f.cl = cl ∧ f.rgn = r.num then { f with suspended := true } else f) } : State).modClu cl
      (fun k => { k with spawnq := k.spawnq.filter (fun q => q.rgn != r.num) })
  !l.any (fun x => x.ts.any (fun y => (s0.thread? cl y.slot).isSome)) && !s0.queueFull cl l && s0.canReserve cl (l.map (fun x => x.f))

/-- A valid block of the region's state on a cluster, with the frames it restores, for which there is room (R445; log 68). -/
def State.restorable (s : State) (cl : Nat) (r : Region) : Option (List SavedFrame) :=
  if r.savebase = 0 then none
  else match s.readBlock r cl with
    | none => none
    | some b => (s.savedFrames cl r.num b).filter (s.blockFits cl r)

/-- A NOTHREAD record of the SMC about a cluster (19 R362). -/
def State.smcRecord (s : State) (cl rgn cause i1 i2 i3 : Nat) : State :=
  s.raise { cause := cause, parked := false, nothread := true, pstate := s.pstate cl, rgn := rgn, lcl := cl, slot := 0, knum := 0xFF,
            pc := 0, i0 := BitVec.ofNat 64 cl, i1 := BitVec.ofNat 64 i1, i2 := BitVec.ofNat 64 i2, i3 := BitVec.ofNat 64 i3 }

/-- A record for each region with frames on the cluster. -/
def State.smcRecords (s : State) (cl cause : Nat) (words : State → Region → Nat × Nat × Nat) : List Region → State
  | [] => s
  | r :: rest => let w := words s r; (s.smcRecord cl r.num cause w.1 w.2.1 w.2.2).smcRecords cl cause words rest

/-- Work of a fenced cluster that is discarded: commands that have not started, those to the fabric among them, running ones with what
they have not written yet, and queued store entries (R444). -/
def fencesAct (cl : Nat) (a : Act) : Bool :=
  a.cl == cl &&
  (match a.job with
   | .ending _ | .entry _ | .vretire .. | .vsig .. | .reading .. | .piece .. => true
   | .remote r => !r.sent
   | .flight e => (match e.line with | .scratch c _ _ => c == cl | _ => false) && e.ack.isNone
   | _ => false)

/-- The discarded work of a fenced cluster goes, without a signal; its ports refuse every message, and a command of RGNCTL there is
gone, and without an eligible entry it keeps no deficit (04 R85). -/
def State.fenceCluster (s : State) (cl : Nat) : State :=
  let s1 := (s.regionsOn cl).foldl (fun s r => s.stopRegion cl r.num) s
  let s2 : State := { s1 with
    cmds := s1.cmds.filter (fun c => c.cl != cl),
    acts := s1.acts.filter (fun a => !fencesAct cl a),
    fencedPhys := if s1.fencedPhys.contains (s1.physOf cl) then s1.fencedPhys else s1.fencedPhys ++ [s1.physOf cl],
    fencedLog := if s1.fencedLog.contains cl then s1.fencedLog else s1.fencedLog ++ [cl] }
  ((s2.modClu cl (fun k => { k with rgnctl := 0, phase := 0, writer := none, busy := Clus.reset.busy, holdTag := none, icache := [], ccache := [] })).clearDeficits
    (dieOf cl)).modDie (dieOf cl) (fun d => { d with fences := satInc d.fences })

/-- Kills of regions whose records 7.7.3 are to be written first: each is marked, and its kill takes place once they are (R446). -/
def State.killAll (s : State) : List Region → State
  | [] => s
  | r :: rest => ((s.markKilling r.num).tick 1 0 512 (.killComplete r.num)).killAll rest

/-- The fence of a logical cluster's physical cluster for a cause: the records 7.7.3; the regions there wait for a spare of the die, each
fenced cluster for one of its own, and are killed where none is left (R445, R446). -/
def State.fence (s : State) (cl cause : Nat) : State :=
  let rs := s.regionsOn cl
  let before := s.fencedLog.filter (fun c => c != cl && dieOf c == dieOf cl && s.fencedPhys.contains (s.physOf c))
  let spare := decide (before.length < (s.spares (dieOf cl)).length)
  let s1 := s.smcRecords cl 507 (fun s r =>
    (cause, (s.threadsOn cl r.num).length, if spare && (s.restorable cl r).isSome then 1 else 0)) rs
  let s2 := s1.fenceCluster cl
  let s3 : State := { s2 with awaiting := s2.awaiting.filter (fun x => x.1 != cl) }
  if spare then { s3 with awaiting := s3.awaiting ++ rs.map (fun r => (cl, r.num, cause)) } else s3.killAll rs

/-- The fence of a physical cluster that carries no logical number: it is a spare no more (R444). -/
def State.fenceSpare (s : State) (p : Nat) : State :=
  ({ s with fencedPhys := s.fencedPhys ++ [p] } : State).modDie (p / 72) (fun d => { d with fences := satInc d.fences })

/-- The physical cluster that carries a logical number is not fenced, so that it can be. -/
def State.canFence (s : State) (cl : Nat) : Bool := decide (cl < 256) && !s.fencedPhys.contains (s.physOf cl)

/-- CLUSTER_FENCE of the physical cluster that carries logical cluster `cl`, or from 256 up of physical cluster cl - 256, which may be a
spare that fails its periodic test (R444). -/
def execClusterFence (cl : Nat) (cause : BitVec 9) (s : State) : Host.Outcome State Fault Refusal :=
  .next (if cl < 256 then (if s.canFence cl then s.fence cl cause.toNat else s)
    else match s.logicalOn (cl - 256) with
      | some l => if s.canFence l then s.fence l cause.toNat else s
      | none => if cl - 256 < 288 ∧ ¬s.fencedPhys.contains (cl - 256) then s.fenceSpare (cl - 256) else s)

/-- WATCHDOG_FIRE: 7.7.2 to each region with frames there, then the fence (19 R362): `why` 1 names a port's engine, 2 the
issue. -/
def execWatchdogFire (cl why port : Nat) (s : State) : Host.Outcome State Fault Refusal :=
  .next (if s.canFence cl ∧ (why = 2 ∨ (why = 1 ∧ port < 5)) then
    (s.smcRecords cl 506 (fun _ _ => (why, if why = 1 then port else 0xFF, 0)) (s.regionsOn cl)).fence cl 506
  else s)

/-! ### Spare remap (R445; 22 R407, R415) -/

/-- The queued spawns of a region on a cluster. -/
def State.queuedOf (s : State) (cl rgn : Nat) : List SpawnReq := (s.clu cl).spawnq.filter (fun r => r.rgn == rgn)

/-- What the suspended threads of a region on a cluster have left in flight belongs to no thread any more. -/
def State.dropAway (s : State) (cl rgn : Nat) : State :=
  let mine (a : Act) : Bool := a.cl == cl && awayTag a.slot && (a.slot - 1024) / 512 == rgn
  { s.bump with
    away := s.away.filter (fun t => !(t.cl == cl && t.rgn == rgn)),
    acts := (s.acts.filter (fun a => !(mine a && diesWith a))).map (fun a => if mine a then { a with slot := 262144 + 512 * s.seq + a.slot % 512 } else a) }

/-- Restart: the threads end as TKILL with SIGJOIN = 0 ends them, the frames start anew (02 R22), and the pending spawns are dropped,
which poisons their joins, in the new frames too. -/
def State.restartRegion (s : State) (cl : Nat) (r : Region) : State :=
  let s1 := (s.threadsOn cl r.num).foldl (fun s t => s.killThread t false) (s.dropAway cl r.num)
  let s2 := s1.modClu cl (fun k => { k with spawnq := k.spawnq.filter (fun q => q.rgn != r.num) })
  ((s2.framesOn cl r.num).foldl (fun s f =>
    let g := newFrame f.cl f.rgn f.knum f.hdr f.hdrVa f.level f.set
    ((s.modFrame f.cl f.rgn f.knum (fun _ => g)).pinLines g r).clearHold cl) s2).poisonJoins (s1.queuedOf cl r.num)

/-- Pending bits of restored threads whose results can no longer come are clear (R445; log 27). -/
def Thread.forget (t : Thread) : Thread := { t with pendG := replayPend t.replay, pendP := 0, acq := [], late := [] }

/-- Resume from the last block: what the region's threads did since is gone from the cluster. -/
def State.restoreRegion (s : State) (cl : Nat) (r : Region) (l : List SavedFrame) : State :=
  let s1 := (s.threadsOn cl r.num).foldl (fun s t => s.endThread t) s
  let s2 := (s1.modClu cl (fun k => { k with spawnq := k.spawnq.filter (fun q => q.rgn != r.num) })).restoreFrames r l
  { s2 with threads := s2.threads.map (fun t => if t.cl = cl ∧ t.rgn = r.num then t.forget else t) }

/-- The SMC's action for one region on a remapped cluster. A suspended region is resumed from its block or restarted too; one whose frames
find no room stays suspended (R445; log 68). -/
def State.recoverRegion (s : State) (cl : Nat) (r : Region) : State :=
  let s0 : State := { (if r.savebase = 0 then s else s.touchBlock none r cl) with awaiting := s.awaiting.filter (fun x => !(x.1 == cl && x.2.1 == r.num)) }
  match s.restorable cl r with
  | some l => if s.savedOn cl r.num then (s0.restoreFrames r l).rejoin cl r.num else s0.restoreRegion cl r l
  | none => if s.savedOn cl r.num && !s.canReserve cl (s.framesOn cl r.num) then s0 else s0.restartRegion cl r

def State.recoverAll (s : State) (cl : Nat) : List Region → State
  | [] => s
  | r :: rest => (s.recoverRegion cl r).recoverAll cl rest

/-- A fenced logical cluster gets an unassigned spare of its die, if it has none yet. -/
def State.assignSpare (s : State) (cl : Nat) : State :=
  if s.fencedPhys.contains (s.physOf cl) then
    match s.spares (dieOf cl) with
    | [] => s
    | p :: _ => (s.mapTo cl p).modDie (dieOf cl) (fun d => { d with remaps := satInc d.remaps })
  else s

/-- A region of a fenced cluster still waits for its remap. -/
def State.waitsRemap (s : State) (cl : Nat) (r : Region) : Bool :=
  s.awaiting.any (fun x => x.1 == cl && x.2.1 == r.num) && (s.framesOn cl r.num).any (fun f => f.stopped)

/-- A fenced logical cluster for which its die has no spare left. -/
def State.noSpare (s : State) (cl : Nat) : Bool := s.fencedPhys.contains (s.physOf cl) && (s.spares (dieOf cl)).isEmpty

/-- A fenced cluster that cannot be remapped: the records 7.7.3 with i3 = 0 for the regions that still wait, and the kill of every region
with frames there (R446). -/
def State.loseCluster (s : State) (cl : Nat) : State :=
  let rs := s.regionsOn cl
  let cause (r : Region) : Nat := match s.awaiting.find? (fun x => x.1 == cl && x.2.1 == r.num) with | some x => x.2.2 | none => 0
  let s1 := s.smcRecords cl 507 (fun s r => (cause r, (s.threadsOn cl r.num).length, 0)) (rs.filter (s.waitsRemap cl))
  ({ s1 with awaiting := s1.awaiting.filter (fun x => x.1 != cl) } : State).killAll rs

/-- The remap of a fenced cluster for some of its regions; with none left waiting the cluster is whole again. -/
def State.remapFor (s : State) (cl : Nat) (p : Region → Bool) : State :=
  let s1 := (s.assignSpare cl).recoverAll cl ((s.regionsOn cl).filter (fun r => p r && s.waitsRemap cl r))
  if (s1.regionsOn cl).any (fun r => s1.waitsRemap cl r) then s1 else { s1 with fencedLog := s1.fencedLog.filter (fun c => c != cl) }

/-- Hardware spare remap (22 R407). -/
def remapsAtOnce (r : Region) : Bool := field r.modes 4 2 != 2

/-- SPARE_REMAP: the SMC maps a fenced logical cluster to a spare and acts for each region whose remap is the hardware's; a
cluster whose regions are all host-assisted stays fenced (R445). Without a spare its regions are lost (R446). -/
def execSpareRemap (cl : Nat) (s : State) : Host.Outcome State Fault Refusal :=
  let waiting := (s.regionsOn cl).filter (s.waitsRemap cl)
  .next (if !s.fencedLog.contains cl then s
    else if !waiting.isEmpty && !waiting.any remapsAtOnce then s
    else if s.noSpare cl then (if waiting.isEmpty then s else s.loseCluster cl)
    else s.remapFor cl remapsAtOnce)

/-- The fenced clusters on which a region waits for its remap. -/
def State.remapPending (s : State) (r : Region) : List Nat := s.fencedLog.filter (fun cl => s.waitsRemap cl r)

/-- The remaps of a region's clusters, one after the other; one that finds no spare any more is lost (R446), and the result is 2. -/
def State.remapEach (s : State) (n : Nat) : List Nat → Nat × State
  | [] => (0, s)
  | cl :: rest =>
    if s.noSpare cl then (2, ((s.loseCluster cl).remapEach n rest).2)
    else (s.remapFor cl (fun r => r.num == n)).remapEach n rest

/-- REMAP: a pending remap of a host-assisted region is applied; anything else is refused, and a cluster for which no spare is left is
lost (22 R415; 25 R446; log 68). -/
def execRemap (v : Word) (rgn : Nat) (s : State) : Host.Outcome State Fault Refusal :=
  mailbox 5 64 v s (fun s =>
    match s.region? rgn with
    | none => mbOnly 2 s
    | some r =>
      if remapsAtOnce r || (s.remapPending r).isEmpty then mbOnly 2 s
      else s.remapEach rgn (s.remapPending r))

/-! ### Heartbeats (R451) -/

/-- The neighbour across a face: +X, -X, +Y, -Y, +Z, -Z are 0 to 5. -/
def State.neighbour (s : State) (face : Nat) : Nat :=
  let p := s.pkgid.toNat
  let k := face / 2
  let c := coord p k
  let d := if face % 2 = 0 then (c + 1) % 16 else (c + 15) % 16
  p - c * 16 ^ k + d * 16 ^ k

/-- HEARTBEAT_SEND, every 100 ms of TIME: a message on each torus port that is up; each neighbour has been silent for a period
more. -/
def execHeartbeatSend (s : State) : Host.Outcome State Fault Refusal :=
  let out := (List.range 12).filterMap (fun p => if (s.eport p).up then some (HostOut.heartbeat p s.pkgid s.timeNs s.ckseq) else none)
  .next { s with hostOut := s.hostOut ++ out, quiet := (List.range 6).map (fun f => (f, getK s.quiet f 0 + 1)) }

/-- HEARTBEAT_RECEIVE. -/
def execHeartbeatReceive (face : Nat) (s : State) : Host.Outcome State Fault Refusal :=
  .next (if face < 6 then { s with quiet := setK s.quiet face 0 } else s)

/-- NEIGHBOUR_LOST: twenty periods, 2 s, without a heartbeat: the face's bit and the package are shown, and the host is told. -/
def execNeighbourLost (face pkg : Nat) (s : State) : Host.Outcome State Fault Refusal :=
  .next (if face < 6 ∧ pkg = s.neighbour face ∧ 20 ≤ getK s.quiet face 0 then
    ({ s with quiet := setK s.quiet face 0,
              nbrlost := (s.nbrlost &&& 0x3F) ||| BitVec.ofNat 64 (2 ^ face + 2 ^ 48 * pkg) } : State).msix (field s.nbrvec 0 11)
  else s)

end Sys2Proof.Machine
end

