-- ==== Sys2Proof/Machine/Auto.lean ====
section
/-! DEFINITION. The model's default order of events (log 4, 5): which event the machine takes when its agenda names none. -/

namespace Sys2Proof.Machine

/-! ### Work in flight -/

/-- The thread whose work an act is can take its result. -/
def State.owned (s : State) (a : Act) : Bool := (s.thread? a.cl a.slot).isSome

/-- A late failure of an access that meets an error, else its result. -/
def readEvent (a : Act) (bad : Option Bool) : Instr :=
  match bad with
  | some crc => .lateFailure a.id (if crc then 457 else 456) 0
  | none => .resultWriteback a.id

/-- A signal may take effect, or has no semaphore any more. -/
def State.signalMay (s : State) (a : Act) (cl rgn knum k : Nat) (inc : Word) (own : Bool) : Bool :=
  match s.frame? cl rgn knum with
  | none => true
  | some f => !f.stopped && !(own && s.absent a && decide (65535 < (f.sem k).count.toNat + inc.toNat))

/-- A spawn request can be decided. -/
def State.spawnMay (s : State) (a : Act) (r : SpawnReq) (ans : Option (BitVec 3)) : Bool :=
  match s.frame? r.target r.rgn r.knum with
  | none => false
  | some f => !f.stopped && !s.absent a && (ans.isSome || s.queueTakes r)

/-- The event of a departed write that may perform. -/
def State.flightEvent (s : State) (a : Act) (e : Entry) : Option Instr :=
  match e.line with
  | .host _ =>
    let st := s.hostStatus e.line
    if st ≠ 0 ∧ s.waitsForThread a e then none else some (.apertureCompletion a.id st)
  | _ =>
    match s.atomicBad e with
    | some crc => if s.absent a then none else some (.lateFailure a.id (if crc then 457 else 456) 0)
    | none => some (.writePerform a.id false)

/-- The event by which a piece of work in flight takes effect, if it may take effect now; a queued store has its cluster's. -/
def State.eventOf (s : State) (a : Act) : Option Instr :=
  match a.job with
  | .tick ev => if s.goneAll a.after then some ev else none
  | .result d _ _ => if !s.doneAll a.after || (s.absent a && !(awayTag a.slot && d == .g 0)) then none else some (.resultWriteback a.id)
  | .failed _ cause _ _ _ => if s.absent a then none else some (.lateFailure a.id (BitVec.ofNat 9 cause) 0)
  | .load _ (.host h) _ _ _ _ _ _ =>
    let st := s.hostStatus (.host h)
    if s.doneAll a.after && !(st != 0 && s.absent a) then some (.apertureCompletion a.id st) else none
  | .load .. =>
    match s.thread? a.cl a.slot with
    | some t => if !s.absent a && s.doneAll a.after && (s.loadNow t a).isSome then some (readEvent a (s.loadBad t a)) else none
    | none => none
  | .atomic _ pl _ _ _ _ _ _ _ =>
    match s.thread? a.cl a.slot with
    | some t => if !s.absent a && s.doneAll a.after then some (readEvent a (s.badAt t.rgn t.knum pl)) else none
    | none => none
  | .sread _ _ => if s.owned a && !s.absent a && s.doneAll a.after then some (.resultWriteback a.id) else none
  | .stry _ _ _ => if s.owned a && !s.absent a && s.doneAll a.after then some (.resultWriteback a.id) else none
  | .entry _ => none
  | .flight e => if (s.mayPerform a).isSome then s.flightEvent a e else none
  | .signal cl rgn knum k inc own =>
    if s.doneAll a.after && s.signalMay a cl rgn knum k inc own then some (.semaphoreSignal a.id) else none
  | .poison cl rgn knum _ => if (match s.frame? cl rgn knum with | some f => !f.stopped | none => true) then some (.semaphoreSignal a.id) else none
  | .arrive .. => if s.doneAll a.after then some (.semaphoreSignal a.id) else none
  | .spawn r ans => if s.spawnMay a r ans then some (.spawnRequestArrival a.id) else none
  | .ending e => if s.goneAll a.after then some (if e.err.isSome then .errorCompletion a.id else .commandCompletion a.id) else none
  | .remote _ => none
  | .kunbind rgn knum _ => if s.drained rgn knum then some (.kunbindTeardown a.id) else none
  | .vtrap _ => if s.owned a && !s.absent a then some (.vectorRetire a.id) else none
  | .piece _ r k pl _ => if s.doneAll a.after && s.placeUp r k pl then some (.resultWriteback a.id) else none
  | .reading c _ _ => if s.goneAll a.after then some (.commandStart a.cl c.port) else none
  | .vretire .. | .vsig .. => if s.goneAll a.after && (s.owned a || goneTag a.slot) then some (.vectorRetire a.id) else none

/-- Work of a cluster's engines, which goes on only in a pulse of it (24 R434). -/
def Act.pulsed (a : Act) : Bool := match a.job with | .vretire .. | .vsig .. | .ending _ | .reading .. | .tick (.formation _) => true | _ => false

/-- The first event that is due. -/
def State.dueEvent (s : State) : List Act → Option (Act × Instr)
  | [] => none
  | a :: r =>
    if a.due ≤ s.now ∧ a.cyc ≤ s.pulse a.cl ∧ (a.pulsed = false ∨ s.delivers a.cl) then
      match s.eventOf a with
      | some ev => some (a, ev)
      | none => s.dueEvent r
    else s.dueEvent r

/-- The end of a thread's sleep or wait limit, in the pulse in which it expires; it comes after the other events of that pulse
(02 R39). -/
def State.expiryEvent (s : State) : List Thread → Option Instr
  | [] => none
  | t :: r =>
    match waitExpiry t.cl t.slot t.wait with
    | some (u, ev) => if u ≤ s.pulse t.cl && !s.frozen t && !s.expiryHeld t then some ev else s.expiryEvent r
    | none => s.expiryEvent r

/-- A tick leaves the list when its event is taken. -/
def State.takeTick (s : State) (a : Act) : State :=
  match a.job with
  | .tick _ => s.dropAct a.id
  | _ => s

/-! ### What follows from the state itself -/

/-- The departure of a queued store. -/
def State.departEvent (s : State) : Option Instr :=
  match (List.range 4).filterMap s.laneChoice with
  | [] => none
  | c :: _ => some (.storeEntryDeparture c)

/-- The end of a thread's fence, descriptor instruction or QUIT. -/
def State.threadEvent (s : State) : List Thread → Option Instr
  | [] => none
  | t :: r =>
    match t.wait with
    | .fence _ after _ => if s.doneAll after && !s.savingOn t.cl t.rgn then some (.fencePerform t.cl t.slot) else s.threadEvent r
    | .release after => if s.doneAll after then some (.fencePerform t.cl t.slot) else s.threadEvent r
    | .desc after _ _ => if s.doneAll after then some (.fencePerform t.cl t.slot) else s.threadEvent r
    | .quit => if s.quitDone t && !s.savingOn t.cl t.rgn then some (.quitComplete t.cl t.slot) else s.threadEvent r
    | _ => s.threadEvent r

/-- The start of a command of some port. -/
def State.portEvent (s : State) : Option Instr :=
  match s.cmds.find? (fun c => (s.startable c.cl c.port).isSome) with
  | some c => some (.commandStart c.cl c.port)
  | none =>
    match s.acts.find? (fun a => a.unsent && (s.fabChosen a.cl).isSome) with
    | some a => some (.commandStart a.cl .fabric)
    | none => none

/-- The admission of a request of some queue. -/
def State.admitEvent (s : State) : Option Instr :=
  match s.clus.find? (fun x => !s.admittedNow x.1 && (s.firstAdmissible x.1 x.2.spawnq []).isSome && (s.freeSlot x.1).isSome) with
  | some x => some (.spawnAdmission x.1)
  | none => none

/-- The save block of a drained region, the end of its writing, or the completion of a kill. -/
def State.regionEvent (s : State) : Option Instr :=
  match s.clus.find? (fun x => match s.rgnRuns x.1 1 with
      | some r => (x.2.phase == 2 && s.regionDrained x.1 r) || (x.2.phase == 3 && s.saveDone x.1)
      | none => false) with
  | some x => some (.saveBlockWrite x.1)
  | none =>
    match s.regions.find? s.killMay with
    | some r => some (.killComplete r.num)
    | none => none

/-- A new write window begins on a die with work (04 R84, R85), or a rotation boundary has come (24 R433): they come before the other
events of their pulse. -/
def State.windowEvent (s : State) : Option Instr :=
  match (List.range 4).find? (fun d => s.windowDue d &&
      (s.threads.any (fun t => dieOf t.cl == d) || s.acts.any (fun a => dieOf a.cl == d) || (s.die d).hostUsed != 0 || !s.hostWrites.isEmpty || !s.ckJobs.isEmpty)) with
  | some d => some (.writeWindowStart d)
  | none =>
    match s.phys.find? (fun x => s.boundaryDue x.1) with
    | some x => some (.rotationBoundary x.1)
    | none => none

/-- The next piece of a remote copy that can be sent (14 R317). -/
def State.pieceTurn (s : State) : Option State :=
  s.acts.findSome? (fun a =>
    match a.job with
    | .remote r =>
      if r.opc = 6 ∧ !r.sent ∧ s.delivers a.cl ∧ s.maySend a r then
        let x := s.transmit a.id a.cl a.slot r
        some (x.1.setRemote a.id x.2)
      else none
    | _ => none)

/-- A thread's replay queue goes on into the vector port (13 R284; 03 R60). -/
def State.replayTurn (s : State) : Option State :=
  match s.threads.find? s.replayNow with
  | some t => some (s.replayIn t.cl t.slot 16)
  | none => none

/-- A lane's request that its target's arbiter can decide on (22 R412). -/
def State.foyerTurn (s : State) : Option State :=
  match s.lanes.find? (fun x => match x.2.pending with
      | some q => (match s.frame? q.target q.rgn q.knum with | some f => !f.stopped | none => true)
      | none => false) with
  | some x => some (s.foyerDecide x.1)
  | none => none

/-- The bind window's command at its turn. -/
def State.bindTurn (s : State) : Option State := if s.bcmd ≠ 0 ∧ s.bindBusy.isEmpty then some s.bcmdRun else none

/-- The end of a pair's switch window (24 R439, R440). -/
def State.switchTurn (s : State) : Option State :=
  match s.windowDone with
  | some p => some (s.endWindow p)
  | none => none

/-- The first of a list of turns. -/
def firstTurn : List (Option State) → Option State
  | [] => none
  | x :: r =>
    match x with
    | some s => some s
    | none => firstTurn r

/-- The command of the context-command window that is still in progress goes on (22 R404; 21 R390). -/
def State.ccmdTurn (s : State) : Option State :=
  if s.ccmd = 2 then (let s1 := s.ccmdRun .read; if s1.ccmd = 0 then some s1 else none) else none

/-- What the SMC, the endpoint, the ports and the engines do of themselves. -/
def State.unitTurn (s : State) : Option State :=
  firstTurn [s.endpointTurn, s.switchTurn, s.replayTurn, s.pieceTurn, s.hostTurn [] s.hostWrites, s.foyerTurn, s.bindTurn, s.ccmdTurn, s.ckTurn]

/-- A fenced cluster that the hardware can remap. -/
def State.remapTurn (s : State) : Option Nat :=
  s.fencedLog.find? (fun cl =>
    let waiting := (s.regionsOn cl).filter (s.waitsRemap cl)
    if waiting.isEmpty then !s.noSpare cl else waiting.any remapsAtOnce)

/-- The first event that follows from the state. -/
def State.stateEvent (s : State) : Option Instr :=
  match s.departEvent with
  | some i => some i
  | none =>
    match s.threadEvent s.threads with
    | some i => some i
    | none =>
      match s.regionEvent with
      | some i => some i
      | none =>
        match s.portEvent with
        | some i => some i
        | none => s.admitEvent

/-! ### Time -/

/-- Die pulses at which a thread's issue interval or wait may end. -/
def State.threadPulses (s : State) (t : Thread) : List Nat :=
  s.dieAt t.cl t.nextIssue :: (match waitExpiry t.cl t.slot t.wait with
    | some (u, _) => if s.frozen t then [] else [s.dieAt t.cl u]
    | none => [])

/-- The die pulse of a physical cluster's next rotation boundary (24 R433). -/
def State.boundaryAt (s : State) (ph : Nat) : Nat :=
  let p := s.phy ph
  p.cycAt + (704 - p.edge + s.rateOf ph - 1) / Nat.max 1 (s.rateOf ph)

/-- Something waits for the next die pulse: a ready thread (03 R49), a command of a cluster without a pulse in this one, a queued
store, or a host write. -/
def State.waitsPulse (s : State) : Bool :=
  s.threads.any s.ready || s.cmds.any (fun c => !s.delivers c.cl) || !s.hostWrites.isEmpty || !s.ckJobs.isEmpty ||
  s.acts.any (fun a => (a.unsent || (a.pulsed && decide (a.due ≤ s.now ∧ a.cyc ≤ s.pulse a.cl))) && !s.delivers a.cl) ||
  (List.range 4).any (fun d => (s.laneClusters d).any (fun c => (s.turnOf c).isSome))

/-- The die pulses at which something may happen: work that falls due, issue intervals and limits, engines that come free, the
package's own packets, ramps, switch windows and rotation boundaries, and the next one while something waits for it. -/
def State.pulses (s : State) : List Nat :=
  s.acts.map (fun a => Nat.max a.due (s.dieAt a.cl a.cyc)) ++ s.threads.flatMap s.threadPulses ++
  (if s.cmds.isEmpty ∧ !s.acts.any (fun a => a.unsent) then [] else s.clus.flatMap (fun x => x.2.busy.map (fun n => s.dieAt x.1 n))) ++
  s.loop.map (fun x => x.1) ++
  s.pairs.filterMap (fun x => if x.2.volt = x.2.goal then none else some (s.now + x.2.rampPulses s.now)) ++
  s.pairs.filterMap (fun x => match x.2.window with | some w => some w.2 | none => none) ++
  s.phys.filterMap (fun x => if x.2.pending then some (s.boundaryAt x.1) else none) ++
  (if s.waitsPulse then [s.now + 1] else [])

/-- The first later pulse at which something may happen. -/
def State.nextPulse (s : State) : Option Nat := lowest (fun n => decide (s.now < n)) s.pulses

/-- Time moves on to the next pulse at which something may happen; with nothing to come the machine rests. The W of a thread
that is not ready counts from 0 again (03 R48), and the deficits of clusters with nothing to send clear (04 R85). -/
def State.advance (s : State) : State :=
  match s.nextPulse with
  | some n =>
    (List.range 4).foldl (fun s d => s.clearDeficits d)
      { s with now := n, turn := 0, threads := s.threads.map (fun t => if s.ready t then t else { t with w := 0 }) }
  | none => { s with turn := 0 }

end Sys2Proof.Machine
end

