-- ==== Sys2Proof/Machine/Dispatch.lean ====
section
/-! DEFINITION. One arm for each constructor of `Instr`: a direct call of its meaning, or a refusal by name. -/

namespace Sys2Proof.Machine

def exec (i : Instr) (s : State) : Host.Outcome State Fault Refusal :=
  match i with
  | .add d a b => Sys2Proof.Machine.execAdd d a b s
  | .sub d a b => Sys2Proof.Machine.execSub d a b s
  | .and d a b => Sys2Proof.Machine.execAnd d a b s
  | .or d a b => Sys2Proof.Machine.execOr d a b s
  | .xor d a b => Sys2Proof.Machine.execXor d a b s
  | .andn d a b => Sys2Proof.Machine.execAndn d a b s
  | .orn d a b => Sys2Proof.Machine.execOrn d a b s
  | .shl d a b => Sys2Proof.Machine.execShl d a b s
  | .shr d a b => Sys2Proof.Machine.execShr d a b s
  | .sra d a b => Sys2Proof.Machine.execSra d a b s
  | .rol d a b => Sys2Proof.Machine.execRol d a b s
  | .min d a b => Sys2Proof.Machine.execMin d a b s
  | .max d a b => Sys2Proof.Machine.execMax d a b s
  | .minu d a b => Sys2Proof.Machine.execMinu d a b s
  | .maxu d a b => Sys2Proof.Machine.execMaxu d a b s
  | .cselT d a b k => Sys2Proof.Machine.execCselT d a b k s
  | .cselF d a b k => Sys2Proof.Machine.execCselF d a b k s
  | .pmovToG d => Sys2Proof.Machine.execPmovToG d s
  | .pmovToP a => Sys2Proof.Machine.execPmovToP a s
  | .mul d a b => Sys2Proof.Machine.execMul d a b s
  | .mulh d a b => Sys2Proof.Machine.execMulh d a b s
  | .mulhu d a b => Sys2Proof.Machine.execMulhu d a b s
  | .madd d a b => Sys2Proof.Machine.execMadd d a b s
  | .divu d a b => Sys2Proof.Machine.execDivu d a b s
  | .remu d a b => Sys2Proof.Machine.execRemu d a b s
  | .clz d a => Sys2Proof.Machine.execClz d a s
  | .ctz d a => Sys2Proof.Machine.execCtz d a s
  | .popc d a => Sys2Proof.Machine.execPopc d a s
  | .brev d a => Sys2Proof.Machine.execBrev d a s
  | .bswap d a => Sys2Proof.Machine.execBswap d a s
  | .bfx d a b => Sys2Proof.Machine.execBfx d a b s
  | .bfxs d a b => Sys2Proof.Machine.execBfxs d a b s
  | .bfi d a b => Sys2Proof.Machine.execBfi d a b s
  | .xshf d a b c => Sys2Proof.Machine.execXshf d a b c s
  | .addi d a iv => Sys2Proof.Machine.execAddi d a iv s
  | .andi d a iv => Sys2Proof.Machine.execAndi d a iv s
  | .ori d a iv => Sys2Proof.Machine.execOri d a iv s
  | .xori d a iv => Sys2Proof.Machine.execXori d a iv s
  | .shli d a c => Sys2Proof.Machine.execShli d a c s
  | .shri d a c => Sys2Proof.Machine.execShri d a c s
  | .srai d a c => Sys2Proof.Machine.execSrai d a c s
  | .roli d a c => Sys2Proof.Machine.execRoli d a c s
  | .movi d iv => Sys2Proof.Machine.execMovi d iv s
  | .movk d h iv => Sys2Proof.Machine.execMovk d h iv s
  | .movkZ d h iv => Sys2Proof.Machine.execMovkZ d h iv s
  | .cmp p c a b => Sys2Proof.Machine.execCmp p c a b s
  | .cmpi p c a iv => Sys2Proof.Machine.execCmpi p c a iv s
  | .plog p o a b => Sys2Proof.Machine.execPlog p o a b s
  | .brT p d => Sys2Proof.Machine.execBrT p d s
  | .brF p d => Sys2Proof.Machine.execBrF p d s
  | .jmp d => Sys2Proof.Machine.execJmp d s
  | .call d => Sys2Proof.Machine.execCall d s
  | .jr a => Sys2Proof.Machine.execJr a s
  | .callr a => Sys2Proof.Machine.execCallr a s
  | .ret => Sys2Proof.Machine.execRet s
  | .loop d iv => Sys2Proof.Machine.execLoop d iv s
  | .nop => Sys2Proof.Machine.execNop s
  | .spawn d a => Sys2Proof.Machine.execSpawn d a s
  | .spawnt d a p => Sys2Proof.Machine.execSpawnt d a p s
  | .quit => Sys2Proof.Machine.execQuit s
  | .setpri k => Sys2Proof.Machine.execSetpri k s
  | .rshrink n => Sys2Proof.Machine.execRshrink n s
  | .sleep a => Sys2Proof.Machine.execSleep a s
  | .swait d a e => Sys2Proof.Machine.execSwait d a e s
  | .qwait d a p e => Sys2Proof.Machine.execQwait d a p e s
  | .stry a p e => Sys2Proof.Machine.execStry a p e s
  | .ssig a e => Sys2Proof.Machine.execSsig a e s
  | .ssigRemote d a e => Sys2Proof.Machine.execSsigRemote d a e s
  | .ssigG a e => Sys2Proof.Machine.execSsigG a e s
  | .ssigGRemote d a e => Sys2Proof.Machine.execSsigGRemote d a e s
  | .sset a e => Sys2Proof.Machine.execSset a e s
  | .sread d e => Sys2Proof.Machine.execSread d e s
  | .spois e => Sys2Proof.Machine.execSpois e s
  | .barinit a b => Sys2Proof.Machine.execBarinit a b s
  | .barrive b => Sys2Proof.Machine.execBarrive b s
  | .barwait a b => Sys2Proof.Machine.execBarwait a b s
  | .barsync a b => Sys2Proof.Machine.execBarsync a b s
  | .ld d b z iv => Sys2Proof.Machine.execLd d b z iv s
  | .ldAcq d b z iv => Sys2Proof.Machine.execLdAcq d b z iv s
  | .ldc d b z iv => Sys2Proof.Machine.execLdc d b z iv s
  | .st r b z iv => Sys2Proof.Machine.execSt r b z iv s
  | .stRel r b z o iv => Sys2Proof.Machine.execStRel r b z o iv s
  | .stNlo r b iv => Sys2Proof.Machine.execStNlo r b iv s
  | .stNhi r b iv => Sys2Proof.Machine.execStNhi r b iv s
  | .atom d b z c o => Sys2Proof.Machine.execAtom d b z c o s
  | .acas d b z c => Sys2Proof.Machine.execAcas d b z c s
  | .fence c => Sys2Proof.Machine.execFence c s
  | .icinvI => Sys2Proof.Machine.execIcinvI s
  | .icinvC => Sys2Proof.Machine.execIcinvC s
  | .rst d a z f => Sys2Proof.Machine.execRst d a z f s
  | .rld d a z => Sys2Proof.Machine.execRld d a z s
  | .ratom d a z o f => Sys2Proof.Machine.execRatom d a z o f s
  | .rsig d a f => Sys2Proof.Machine.execRsig d a f s
  | .rspawn d a => Sys2Proof.Machine.execRspawn d a s
  | .fpath w => Sys2Proof.Machine.execFpath w s
  | .vld d a m k => Sys2Proof.Machine.execVld d a m k s
  | .vlds d a b m k => Sys2Proof.Machine.execVlds d a b m k s
  | .vldx d a b m k => Sys2Proof.Machine.execVldx d a b m k s
  | .vldt d a m k => Sys2Proof.Machine.execVldt d a m k s
  | .vst d a m k => Sys2Proof.Machine.execVst d a m k s
  | .vsts d a b m k => Sys2Proof.Machine.execVsts d a b m k s
  | .vstx d a b m k => Sys2Proof.Machine.execVstx d a b m k s
  | .vbcast d a m => Sys2Proof.Machine.execVbcast d a m s
  | .vmovsToG d a => Sys2Proof.Machine.execVmovsToG d a s
  | .vmovsToV d a => Sys2Proof.Machine.execVmovsToV d a s
  | .vext d a b => Sys2Proof.Machine.execVext d a b s
  | .vsetvl d a t g => Sys2Proof.Machine.execVsetvl d a t g s
  | .viota d m => Sys2Proof.Machine.execViota d m s
  | .vwait => Sys2Proof.Machine.execVwait s
  | .vsig e iv => Sys2Proof.Machine.execVsig e iv s
  | .vadd d a b m => Sys2Proof.Machine.execVadd d a b m s
  | .vsub d a b m => Sys2Proof.Machine.execVsub d a b m s
  | .vmul d a b m => Sys2Proof.Machine.execVmul d a b m s
  | .vfma d a b m => Sys2Proof.Machine.execVfma d a b m s
  | .vfms d a b m => Sys2Proof.Machine.execVfms d a b m s
  | .vfnma d a b m => Sys2Proof.Machine.execVfnma d a b m s
  | .vmin d a b m => Sys2Proof.Machine.execVmin d a b m s
  | .vmax d a b m => Sys2Proof.Machine.execVmax d a b m s
  | .vabs d a m => Sys2Proof.Machine.execVabs d a m s
  | .vneg d a m => Sys2Proof.Machine.execVneg d a m s
  | .vclass d a m => Sys2Proof.Machine.execVclass d a m s
  | .viadd d a b m => Sys2Proof.Machine.execViadd d a b m s
  | .visub d a b m => Sys2Proof.Machine.execVisub d a b m s
  | .vimul d a b m => Sys2Proof.Machine.execVimul d a b m s
  | .vimad d a b m => Sys2Proof.Machine.execVimad d a b m s
  | .vimin d a b m => Sys2Proof.Machine.execVimin d a b m s
  | .vimax d a b m => Sys2Proof.Machine.execVimax d a b m s
  | .vand d a b m => Sys2Proof.Machine.execVand d a b m s
  | .vor d a b m => Sys2Proof.Machine.execVor d a b m s
  | .vxor d a b m => Sys2Proof.Machine.execVxor d a b m s
  | .vshl d a b m => Sys2Proof.Machine.execVshl d a b m s
  | .vshr d a b m => Sys2Proof.Machine.execVshr d a b m s
  | .vsra d a b m => Sys2Proof.Machine.execVsra d a b m s
  | .vexp2 d a m => Sys2Proof.Machine.execVexp2 d a m s
  | .vlog2 d a m => Sys2Proof.Machine.execVlog2 d a m s
  | .vrcp d a m => Sys2Proof.Machine.execVrcp d a m s
  | .vrsq d a m => Sys2Proof.Machine.execVrsq d a m s
  | .vsqrt d a m => Sys2Proof.Machine.execVsqrt d a m s
  | .vtanh d a m => Sys2Proof.Machine.execVtanh d a m s
  | .vcvt d a t m r c => Sys2Proof.Machine.execVcvt d a t m r c s
  | .vqnt d a b m n f => Sys2Proof.Machine.execVqnt d a b m n f s
  | .vdq d a b m f => Sys2Proof.Machine.execVdq d a b m f s
  | .vrseed a b m => Sys2Proof.Machine.execVrseed a b m s
  | .vrng d m => Sys2Proof.Machine.execVrng d m s
  | .vred d a m o => Sys2Proof.Machine.execVred d a m o s
  | .vscan d a m o => Sys2Proof.Machine.execVscan d a m o s
  | .vperm d a b m => Sys2Proof.Machine.execVperm d a b m s
  | .vrot d a b m => Sys2Proof.Machine.execVrot d a b m s
  | .vshuf d a b m => Sys2Proof.Machine.execVshuf d a b m s
  | .vcmp d a b m c => Sys2Proof.Machine.execVcmp d a b m c s
  | .vicmp d a b m c => Sys2Proof.Machine.execVicmp d a b m c s
  | .vsel d a b m => Sys2Proof.Machine.execVsel d a b m s
  | .vmlog d a b o => Sys2Proof.Machine.execVmlog d a b o s
  | .vmpop d a => Sys2Proof.Machine.execVmpop d a s
  | .mclr b e iv => Sys2Proof.Machine.execMclr b e iv s
  | .mmode b e iv => Sys2Proof.Machine.execMmode b e iv s
  | .mrnm b e iv => Sys2Proof.Machine.execMrnm b e iv s
  | .msave b e iv => Sys2Proof.Machine.execMsave b e iv s
  | .mload b e iv => Sys2Proof.Machine.execMload b e iv s
  | .mhdr b e iv => Sys2Proof.Machine.execMhdr b e iv s
  | .mstat b => Sys2Proof.Machine.execMstat b s
  | .mdrain b e iv => Sys2Proof.Machine.execMdrain b e iv s
  | .mpass b e iv t => Sys2Proof.Machine.execMpass b e iv t s
  | .mpassh b e iv t => Sys2Proof.Machine.execMpassh b e iv t s
  | .cpy b e iv => Sys2Proof.Machine.execCpy b e iv s
  | .cpyx b e iv => Sys2Proof.Machine.execCpyx b e iv s
  | .cpym b e iv => Sys2Proof.Machine.execCpym b e iv s
  | .cpyf b e iv => Sys2Proof.Machine.execCpyf b e iv s
  | .cbcfg b e iv => Sys2Proof.Machine.execCbcfg b e iv s
  | .cbpush b e iv => Sys2Proof.Machine.execCbpush b e iv s
  | .cbnext b => Sys2Proof.Machine.execCbnext b s
  | .cbdone b e iv => Sys2Proof.Machine.execCbdone b e iv s
  | .cbstat b => Sys2Proof.Machine.execCbstat b s
  | .sysr d r => Sys2Proof.Machine.execSysr d r s
  | .sysw a r => Sys2Proof.Machine.execSysw a r s
  | .trap c => Sys2Proof.Machine.execTrap c s
  | .tresume a => Sys2Proof.Machine.execTresume a s
  | .tctxr a => Sys2Proof.Machine.execTctxr a s
  | .tctxw a => Sys2Proof.Machine.execTctxw a s
  | .tkill a => Sys2Proof.Machine.execTkill a s
  | .kbind a => Sys2Proof.Machine.execKbind a s
  | .kunbind a => Sys2Proof.Machine.execKunbind a s
  | .unassignedInstruction w0 w1 => Sys2Proof.Machine.execUnassignedInstruction w0 w1 s
  | .resultWriteback id => Sys2Proof.Machine.execResultWriteback id s
  | .instructionFetch cl slot => Sys2Proof.Machine.execInstructionFetch cl slot s
  | .lateFailure id cause status => Sys2Proof.Machine.execLateFailure id cause status s
  | .commandStart cl port => Sys2Proof.Machine.execCommandStart cl port s
  | .commandCompletion id => Sys2Proof.Machine.execCommandCompletion id s
  | .errorCompletion id => Sys2Proof.Machine.execErrorCompletion id s
  | .vectorRetire id => Sys2Proof.Machine.execVectorRetire id s
  | .formation cl => Sys2Proof.Machine.execFormation cl s
  | .spawnRequestArrival id => Sys2Proof.Machine.execSpawnRequestArrival id s
  | .spawnAdmission cl => Sys2Proof.Machine.execSpawnAdmission cl s
  | .spwlimExpiry cl slot => Sys2Proof.Machine.execSpwlimExpiry cl slot s
  | .swlimExpiry cl slot => Sys2Proof.Machine.execSwlimExpiry cl slot s
  | .waitLimitExpiry cl slot => Sys2Proof.Machine.execWaitLimitExpiry cl slot s
  | .sleepExpiry cl slot => Sys2Proof.Machine.execSleepExpiry cl slot s
  | .semaphoreSignal id => Sys2Proof.Machine.execSemaphoreSignal id s
  | .storeEntryDeparture cl => Sys2Proof.Machine.execStoreEntryDeparture cl s
  | .writeWindowStart die => Sys2Proof.Machine.execWriteWindowStart die s
  | .writePerform id crcBad => Sys2Proof.Machine.execWritePerform id crcBad s
  | .tableWalk die rgn va ahead => Sys2Proof.Machine.execTableWalk die rgn va ahead s
  | .fencePerform cl slot => Sys2Proof.Machine.execFencePerform cl slot s
  | .quitComplete cl slot => Sys2Proof.Machine.execQuitComplete cl slot s
  | .faultRecord rgn => Sys2Proof.Machine.execFaultRecord rgn s
  | .faultQueueRetry rgn => Sys2Proof.Machine.execFaultQueueRetry rgn s
  | .rgnctlSuspend cl => Sys2Proof.Machine.execRgnctlSuspend cl s
  | .saveBlockWrite cl => Sys2Proof.Machine.execSaveBlockWrite cl s
  | .rgnctlResume cl => Sys2Proof.Machine.execRgnctlResume cl s
  | .rgnctlKill cl => Sys2Proof.Machine.execRgnctlKill cl s
  | .killComplete rgn => Sys2Proof.Machine.execKillComplete rgn s
  | .kunbindTeardown id => Sys2Proof.Machine.execKunbindTeardown id s
  | .rcmdActivate v => Sys2Proof.Machine.execRcmdActivate v s
  | .rcmdReload v => Sys2Proof.Machine.execRcmdReload v s
  | .rcmdKill v => Sys2Proof.Machine.execRcmdKill v s
  | .ccmdTresume => Sys2Proof.Machine.execCcmdTresume s
  | .ccmdTctxr => Sys2Proof.Machine.execCcmdTctxr s
  | .ccmdTctxw => Sys2Proof.Machine.execCcmdTctxw s
  | .ccmdTkill => Sys2Proof.Machine.execCcmdTkill s
  | .bcmdKbind => Sys2Proof.Machine.execBcmdKbind s
  | .bcmdKunbind => Sys2Proof.Machine.execBcmdKunbind s
  | .attest v signature => Sys2Proof.Machine.execAttest v signature s
  | .loadkey v slot key => Sys2Proof.Machine.execLoadkey v slot key s
  | .emptykey v slot => Sys2Proof.Machine.execEmptykey v slot s
  | .bypasskey v slot => Sys2Proof.Machine.execBypasskey v slot s
  | .remap v rgn => Sys2Proof.Machine.execRemap v rgn s
  | .telem v => Sys2Proof.Machine.execTelem v s
  | .checkpoint v => Sys2Proof.Machine.execCheckpoint v s
  | .move v => Sys2Proof.Machine.execMove v s
  | .mailboxUnknownCommand v => Sys2Proof.Machine.execMailboxUnknownCommand v s
  | .foyerRequest lane req => Sys2Proof.Machine.execFoyerRequest lane req s
  | .semvalRead lane => Sys2Proof.Machine.execSemvalRead lane s
  | .hostMemWrite hpa bytes => Sys2Proof.Machine.execHostMemWrite hpa bytes s
  | .hostMemRead hpa n => Sys2Proof.Machine.execHostMemRead hpa n s
  | .apertureCompletion id status => Sys2Proof.Machine.execApertureCompletion id status s
  | .mscFlush die => Sys2Proof.Machine.execMscFlush die s
  | .mscWayChange die wayen => Sys2Proof.Machine.execMscWayChange die wayen s
  | .mscOperationDone die => Sys2Proof.Machine.execMscOperationDone die s
  | .mscstatRead die => Sys2Proof.Machine.execMscstatRead die s
  | .newelstatRead d => Sys2Proof.Machine.execNewelstatRead d s
  | .nbrlostWrite v => Sys2Proof.Machine.execNbrlostWrite v s
  | .ipatWrite cl v => Sys2Proof.Machine.execIpatWrite cl v s
  | .rotationBoundary cl => Sys2Proof.Machine.execRotationBoundary cl s
  | .psreqWrite cl v => Sys2Proof.Machine.execPsreqWrite cl v s
  | .voltageReached pair => Sys2Proof.Machine.execVoltageReached pair s
  | .balancerSample pair ia ib => Sys2Proof.Machine.execBalancerSample pair ia ib s
  | .thermalCapUpdate pair temp power => Sys2Proof.Machine.execThermalCapUpdate pair temp power s
  | .powerEmergency pair sensor => Sys2Proof.Machine.execPowerEmergency pair sensor s
  | .emergencyClear pair => Sys2Proof.Machine.execEmergencyClear pair s
  | .watchdogFire cl why port => Sys2Proof.Machine.execWatchdogFire cl why port s
  | .clusterFence cl cause => Sys2Proof.Machine.execClusterFence cl cause s
  | .spareRemap cl => Sys2Proof.Machine.execSpareRemap cl s
  | .refreshVisit channel bankgroup bank group => Sys2Proof.Machine.execRefreshVisit channel bankgroup bank group s
  | .powerOn boot => Sys2Proof.Machine.execPowerOn boot s
  | .linkChange port up => Sys2Proof.Machine.execLinkChange port up s
  | .transitPacket port pkt => Sys2Proof.Machine.execTransitPacket port pkt s
  | .inboundRst pkt => Sys2Proof.Machine.execInboundRst pkt s
  | .inboundRld pkt => Sys2Proof.Machine.execInboundRld pkt s
  | .inboundRatom pkt => Sys2Proof.Machine.execInboundRatom pkt s
  | .inboundRsig pkt => Sys2Proof.Machine.execInboundRsig pkt s
  | .inboundRspawn pkt => Sys2Proof.Machine.execInboundRspawn pkt s
  | .inboundCopyPiece pkt => Sys2Proof.Machine.execInboundCopyPiece pkt s
  | .inboundDroppedPacket port pkt => Sys2Proof.Machine.execInboundDroppedPacket port pkt s
  | .remoteAck id => Sys2Proof.Machine.execRemoteAck id s
  | .remoteReject id kind detail => Sys2Proof.Machine.execRemoteReject id kind detail s
  | .remoteReturn id data => Sys2Proof.Machine.execRemoteReturn id data s
  | .remoteRetry id => Sys2Proof.Machine.execRemoteRetry id s
  | .nack id => Sys2Proof.Machine.execNack id s
  | .retransmitTimeout id => Sys2Proof.Machine.execRetransmitTimeout id s
  | .retryBudgetExpiry id => Sys2Proof.Machine.execRetryBudgetExpiry id s
  | .ofHoldExpiry k => Sys2Proof.Machine.execOfHoldExpiry k s
  | .rspawnHoldExpiry k => Sys2Proof.Machine.execRspawnHoldExpiry k s
  | .rsigHoldExpiry k => Sys2Proof.Machine.execRsigHoldExpiry k s
  | .heartbeatSend => Sys2Proof.Machine.execHeartbeatSend s
  | .heartbeatReceive face => Sys2Proof.Machine.execHeartbeatReceive face s
  | .neighbourLost face pkg => Sys2Proof.Machine.execNeighbourLost face pkg s
  | .checkpointCopyReceive origin rgn ckseq bytes => Sys2Proof.Machine.execCheckpointCopyReceive origin rgn ckseq bytes s
  | .registerWrite off v => Sys2Proof.Machine.execRegisterWrite off v s
  | .streamEntryDiscard k => Sys2Proof.Machine.execStreamEntryDiscard k s

end Sys2Proof.Machine
end

