-- ==== Sys2Proof/Machine/Bundle.lean ====
section
/-! DEFINITION. Running one bundle (10 R198 to R200) and one turn of the machine; the placing of an instruction where the
next step fetches it (log 6). -/

namespace Sys2Proof.Machine

/-- Registers of a pair: what the A-class word wrote joins what the C-class word left (10 R199). -/
def mergeRegs : List Word → List Word → List Word → List Word
  | b :: bs, a :: as, c :: cs => (if a = b then c else a) :: mergeRegs bs as cs
  | _, _, cs => cs

/-- The bits that changed between two values, carried over to a third. -/
def mergeBits {w : Nat} (b a c : BitVec w) : BitVec w := (c &&& ~~~(a ^^^ b)) ||| (a &&& (a ^^^ b))

def mergeThread (b a c : Thread) : Thread :=
  { c with g := mergeRegs b.g a.g c.g, p := mergeBits b.p a.p c.p, pendG := mergeBits b.pendG a.pendG c.pendG }

/-- A thread's values where an A-class word writes, before it does. -/
def Thread.before (t : Thread) (i : Instr) : Before :=
  { g := (gWrites i).map (fun r => (r, t.getG r)), p := (pWrites i).map (fun k => (k, t.p.getLsbD k)) }

/-- The C-class word waits for earlier accesses before it acts at all (14 R327). -/
def Thread.heldBack (t : Thread) : Bool := match t.wait with | .release _ => t.pc == t.ipc | _ => false

/-- The state after a pair: the C-class word's, with the A-class word's results; a pair whose C-class word is held back has not
issued yet (10 R199, R200; 14 R327). -/
def State.mergePair (s sA sC : State) (i1 : Instr) : State :=
  match s.thread? s.cur.cl s.cur.slot, sA.thread? s.cur.cl s.cur.slot, sC.thread? s.cur.cl s.cur.slot with
  | some b, some a, some c =>
    if c.heldBack then s.modThread s.cur.cl s.cur.slot (fun t => { t with wait := c.wait, ipc := t.pc, isolo := t.soloC, pre := none, marker := false })
    else sC.modThread s.cur.cl s.cur.slot (fun t => { mergeThread b a t with pre := some (b.before i1) })
  | some b, some a, none => sC.modThread s.cur.cl s.cur.slot (mergeThread b a)
  | _, _, _ => sC

/-- Both words of a pair: each reads the registers as they stood before the bundle (10 R199). -/
def runPair (i0 i1 : Instr) (s : State) : Host.Outcome State Fault Refusal :=
  match exec i1 s with
  | .next sA =>
    match exec i0 { s with seq := sA.seq, acts := sA.acts } with
    | .next sC => .next (s.mergePair sA sC i1)
    | o => o
  | o => o

/-- Runs a bundle of the thread that `cur` names. -/
def runBundle (b : Bundle) (s : State) : Host.Outcome State Fault Refusal :=
  match s.ctx? with
  | none => .fault .noThread
  | some c =>
    match decodeBundle c b with
    | .error _ => exec (.unassignedInstruction b.w0 b.w1) s
    | .ok [i] => exec i s
    | .ok [i0, i1] =>
      match decodeChecks s c [i0, i1] with
      | some tr => .next ((s.trapDecode c tr).clearEcc c.t.cl c.t.slot tr)
      | none => runPair i0 i1 s
    | .ok _ => .fault .noThread

/-- The bundle that a thread issues next, in issue. -/
def State.enter (s : State) (t : Thread) (b : Bundle) : State :=
  { s with cur := { s.cur with cl := t.cl, slot := t.slot, pair := b.pair, words := b.words } }

/-- A thread issues its next bundle. -/
def issueThread (t : Thread) (s : State) : Host.Outcome State Fault Refusal :=
  match s.frame? t.cl t.rgn t.knum with
  | none => .next s
  | some f =>
    match s.bundle? t f with
    | none => .next s
    | some b => runBundle b ((s.issued t).enter t b)

/-- A due event takes place. -/
def takeEvent (x : Act × Instr) (s : State) : Host.Outcome State Fault Refusal := exec x.2 (s.takeTick x.1)

/-- A thread issues or fetches its next bundle, else time moves on. -/
def issueTurn (s : State) : Host.Outcome State Fault Refusal :=
  match s.pick with
  | some t => issueThread t s
  | none =>
    match s.threads.find? s.wantsFetch with
    | some t => exec (.instructionFetch t.cl t.slot) s
    | none => .next s.advance

/-- Units of the package act of themselves, else a wait ends, else a thread issues. -/
def unitsTurn (s : State) : Host.Outcome State Fault Refusal :=
  match s.unitTurn with
  | some s1 => .next s1
  | none =>
    match s.rampDone with
    | some p => execVoltageReached p s
    | none =>
      match s.remapTurn with
      | some cl => execSpareRemap cl s
      | none =>
        match s.expiryEvent s.threads with
        | some ev => exec ev s
        | none => issueTurn s

/-- The machine's own turn: events that are due or follow from its state, then the issue of a bundle, then time (log 4). -/
def autoTurn (s : State) : Host.Outcome State Fault Refusal :=
  match s.windowEvent with
  | some ev => exec ev s
  | none =>
    match s.dueEvent s.acts with
    | some x => takeEvent x s
    | none =>
      match s.stateEvent with
      | some ev => exec ev s
      | none => unitsTurn s

/-- The next entry of the agenda: an event takes place, and an entry that is no event is passed over (log 4). -/
def agendaTurn (ev : Instr) (s : State) : Host.Outcome State Fault Refusal :=
  if ev.isEvent then exec ev s else .next s

/-! ### Placing an instruction (log 6) -/

/-- The resources of the frame in which a placed instruction runs. -/
def placedHeader : Header :=
  { kregs := 32, kvregs := 4, ksems := 256, kbars := 16, ktiles := 8, kscr := 1024, kmaxt := 1, kflags := 7,
    kcode := 0xFFFFC0, entries := [0, 0xFFFFFFFF, 0xFFFFFFFF, 0xFFFFFFFF, 0xFFFFFFFF, 0xFFFFFFFF, 0xFFFFFFFF, 0xFFFFFFFF] }

def placedFrame : Frame :=
  { cl := 0, rgn := 0, knum := 0, hdr := placedHeader, hdrVa := 0, level := .m, set := BitVec.allOnes 256,
    sems := List.replicate 256 { count := 0, poison := false },
    bars := List.replicate 16 { init := false, n := 0, counter := 0, phase := false },
    tiles := List.replicate 8 Tile.clear, scr := [], swz := [0, 0, 0, 0], cb := some Batcher.fresh, stopped := false, suspended := false, tearing := false }

def placedRegion : Region :=
  { num := 0, rcbPa := 0, parent := none, level := 1, clset := BitVec.allOnes 256, ceil := 7, allow := 24576, allowWas := 0, allowFrom := 0, modes := 0,
    dkey := 1, troot := 0, fqOwner := 0, fqbase := 0, fqnlog := 6, fsemCl := 0, fsemK := 0, fsemS := 0, msiv := 0,
    savebase := 0, ownFkey := 0, fkey := 0, apbase := 0, apsize := 0, rseq := 0, kept := [], full := false,
    failing := false, held := 0, heldCls := 0, killing := false }

/-- A word with L = 0 runs in a pair: a C-class word before an A-class word that writes nothing, an A-class word behind a
C-class word that does nothing; a word with L = 1 runs alone (10 R198). -/
def placedLine (w : Insn) : BitVec 512 :=
  if bitOf w 31 then BitVec.ofNat 512 w.toNat
  else if aClass w then BitVec.ofNat 512 (0x1C000000 + 2 ^ 32 * w.toNat)
  else BitVec.ofNat 512 w.toNat

/-- The machine with one thread whose next bundle holds the word, ready to issue it (log 6). -/
def State.placeWord (s : State) (w : Insn) : State :=
  let s1 : State := { s with
    regions := [placedRegion],
    frames := [placedFrame],
    threads := [Thread.start 0 0 0 0 32 4 64],
    cmds := [], acts := [], agenda := [], auto := true, turn := 0 }
  (s1.beginWindow 0).fillI 0 0 64 true (placedLine w)

end Sys2Proof.Machine
end

