-- ==== Sys2Proof/Machine/Step.lean ====
section
/-! DEFINITION. One step of the machine, and where the next step fetches an instruction (log 4, 6). -/

namespace Sys2Proof.Machine

/-- One step: the next entry of the agenda, else the machine's own turn, else nothing. -/
def step (s : State) : Host.Outcome State Fault Refusal :=
  match s.agenda with
  | ev :: rest => agendaTurn ev { s with agenda := rest }
  | [] => if s.auto then autoTurn s else .next s

/-- The machine in which the next step issues an instruction whose bits are w (10 R197). -/
def State.withFetchWord (s : State) (nbits w : Nat) : State := s.placeWord (BitVec.ofNat 32 (w % 2 ^ nbits))

end Sys2Proof.Machine
end

