-- ==== Sys2Proof/Safety.lean ====
section
/-! DEFINITION. The invariant of the model, and the words in which its statements speak: when an instruction executes
normally, what a register instruction leaves, and what a frame keeps. -/

namespace Sys2Proof.Machine

/-- Every memory of the machine has its canonical form. -/
def State.memsOk (s : State) : Bool :=
  Memory.wf s.hbm && Memory.wf s.hostMem && s.frames.all (fun f => Memory.wf f.scr)

/-! ### When an instruction executes -/

/-- The thread of `c` is in issue, and i passes every decode check of 10 R217 and of its own description (11 R219): it
executes normally. -/
def State.issues (s : State) (c : Ctx) (i : Instr) : Prop := s.ctx? = some c ∧ decodeChecks s c [i] = none

/-- The thread of `c` is in issue, and the first failing decode check of i is this trap. -/
def State.failsWith (s : State) (c : Ctx) (i : Instr) (tr : Trap) : Prop := s.ctx? = some c ∧ decodeChecks s c [i] = some tr

/-- The machine after the issue of the bundle word, its thread changed by a function. -/
def State.put (s : State) (c : Ctx) (f : Thread → Thread) : State := (s.begin c).modThread c.t.cl c.t.slot f

/-- The instruction's whole effect is a value in a general register; g0 keeps none (02 R24). -/
def State.setsG (s : State) (c : Ctx) (d : BitVec 5) (v : Word) : State := s.put c (fun u => u.setG d.toNat v)

/-- The instruction's whole effect is a value in a predicate. -/
def State.setsP (s : State) (c : Ctx) (p : BitVec 3) (v : Bool) : State := s.put c (fun u => u.setP p.toNat v)

/-- The instruction's whole effect is a jump. -/
def State.jumpsTo (s : State) (c : Ctx) (target : Word) : State := s.put c (fun u => { u with pc := target })

/-- Whenever i executes normally it writes register d with a function of the registers before its bundle, and nothing else. -/
def writesReg (i : Instr) (d : BitVec 5) (v : Thread → Word) : Prop := ∀ s c, s.issues c i → exec i s = .next (s.setsG c d (v c.t))

/-- Whenever i executes normally it writes predicate p, and nothing else. -/
def writesPred (i : Instr) (p : BitVec 3) (v : Thread → Bool) : Prop := ∀ s c, s.issues c i → exec i s = .next (s.setsP c p (v c.t))

/-- The record of a thread's trap (19 R363): PARKED, with the thread's names, the PC that the trap gives and the cause's words. -/
def State.parkRecord (s : State) (t : Thread) (pc : Word) (tr : Trap) : Record :=
  ⟨tr.cause, true, false, s.pstate t.cl, t.rgn, t.cl, t.slot, t.knum, pc, tr.i0, tr.i1, tr.i2, tr.i3⟩

/-- A record has been raised: it stands last in the arbiter of its region's fault queue, or behind the switch window of its
cluster's pair (19 R363, R365; 24 R440). -/
def State.recorded (s t : State) (rec : Record) : Prop :=
  if (s.pair (s.pairOf rec.lcl)).window.isSome then t.deferred = s.deferred ++ [(s.pairOf rec.lcl, rec)]
  else ∀ g, s.region? (s.fqOwner rec.rgn) = some g → ∃ g', t.region? (s.fqOwner rec.rgn) = some g' ∧ g'.kept = g.kept ++ [rec]

/-- The arbiter of a region's fault queue takes a record of a cluster, or the switch window of the cluster's pair keeps it (19 R365; 24 R440). -/
def State.takesRecords (s : State) (cl rgn : Nat) : Prop :=
  (s.pair (s.pairOf cl)).window.isSome = true ∨ ∃ o, s.region? (s.fqOwner rgn) = some o ∧ o.full = false ∧ o.failing = false

/-- A record stands in the arbiter of its region's fault queue, or behind the switch window of its cluster's pair (19 R365; 24 R440). -/
def State.holds (t : State) (rec : Record) : Prop :=
  (t.pairOf rec.lcl, rec) ∈ t.deferred ∨ ∃ g, t.region? (t.fqOwner rec.rgn) = some g ∧ rec ∈ g.kept

/-- A write of these numbers, on its way to its point of performance, holds the byte of a place. -/
def State.onItsWay (s : State) (ids : List Nat) (p : Place) (b : Byte) : Prop :=
  ∃ a ∈ s.acts, a.id ∈ ids ∧ ∃ e o bs, a.job = .flight e ∧ e.kind = .data bs ∧ (o, b) ∈ bs ∧ e.line.plus o = p

/-- The scalar accesses of 12 R250: the access kind, the address, the size and the admitted windows. -/
def scalarAcc (kind : Nat) (ea : Word) (sz : Nat) (wins : List Window) (ldc : Bool) : Acc := ⟨ea, sz, kind, 1, sz, wins, ldc⟩

/-! ### The command that an instruction leaves in a port queue (03 R60, R61; 13 R278; 14 R302) -/

/-- The last command of the state is this instruction's: its port, thread, sequence number, priority and captured values. -/
def State.queued (s t : State) (c : Ctx) (p : Port) (i : Instr) (group : List Word) (vec : Option Captured) : Prop :=
  ∃ x, t.cmds = s.cmds ++ [x] ∧ x.port = p ∧ x.cl = c.t.cl ∧ x.slot = c.t.slot ∧ x.rgn = c.t.rgn ∧ x.knum = c.t.knum ∧
    x.seq = nth c.t.seqs (portNum p) 0 ∧ x.prio = c.t.prio ∧ x.instr = i ∧ x.group = group ∧ x.swz = c.f.swz ∧ x.vec = vec

/-- Whenever the vector instruction i executes normally, it captures its values (VTYPE, group, VL, VFCSR, swizzle descriptor k, its
general registers) and register `pd` becomes pending; it enters the vector port, or behind a vector trap of its thread the replay
queue. -/
def entersVector (i : Instr) (k : Nat) (ga gb : Thread → Word) (pd : Option (BitVec 5)) : Prop :=
  ∀ s c, s.issues c i → let x := capture s c i k (ga c.t) (gb c.t) pd
    ∃ t u, exec i s = .next t ∧ t.thread? c.t.cl c.t.slot = some u ∧
      u.pendG = (match pd with | some d => (c.t.pend (.g d)).pendG | none => c.t.pendG) ∧
      (c.t.vstop = false → s.queued t c .vector i [] (some x) ∧ u.replay = c.t.replay) ∧
      (c.t.vstop = true → t.cmds = s.cmds ∧ u.replay = c.t.replay ++ [x])

/-- Whenever the command i executes normally it enters its port queue with its captured group registers, and a status
command's base register becomes pending. -/
def entersPort (i : Instr) (p : Port) (b : BitVec 3) (used : List Nat) (pend : Bool) : Prop :=
  ∀ s c, s.issues c i →
    ∃ t, exec i s = .next t ∧
      s.queued t c p i ((List.range 4).map (fun k => if used.contains k then c.t.getG (4 * b.toNat + k) else 0)) none ∧
      ∀ u, t.thread? c.t.cl c.t.slot = some u → u.pendG = (if pend then (c.t.pend (.g (groupBase b))).pendG else c.t.pendG)

/-! ### Frames -/

/-- Nothing of the package but the thread of a slot differs. -/
def State.onlyThread (s t : State) (cl slot : Nat) : Prop :=
  t = { s with threads := t.threads } ∧ ∀ c k, ¬ (c = cl ∧ k = slot) → t.thread? c k = s.thread? c k

/-- Every byte of memory reads as before: HBM under every key, host memory, every scratchpad window. -/
def State.sameMemory (s t : State) : Prop :=
  ∀ rgn knum p, t.readByte rgn knum p = s.readByte rgn knum p

/-- A thread keeps its vector, mask and random registers, its priority, VTYPE, VL, VFCSR, limits, path counters, latch,
arrival bits, allotment, join and wait. -/
def Thread.keepsSpecial (t u : Thread) : Prop :=
  u.v = t.v ∧ u.m = t.m ∧ u.key = t.key ∧ u.ctr = t.ctr ∧ u.prio = t.prio ∧ u.vtype = t.vtype ∧ u.grp = t.grp ∧ u.vl = t.vl ∧
  u.vfcsr = t.vfcsr ∧ u.swlim = t.swlim ∧ u.spwlim = t.spwlim ∧ u.wcode = t.wcode ∧ u.fpcnt = t.fpcnt ∧ u.errFab = t.errFab ∧
  u.errMem = t.errMem ∧ u.barph = t.barph ∧ u.bsarr = t.bsarr ∧ u.allot = t.allot ∧ u.join = t.join ∧ u.wait = t.wait ∧
  u.replay = t.replay ∧ u.late = t.late

/-- The instructions whose effect is one general register, with that register. -/
def regDest : Instr → Option (BitVec 5)
  | .add d _ _ | .sub d _ _ | .and d _ _ | .or d _ _ | .xor d _ _ | .andn d _ _ | .orn d _ _ | .shl d _ _ | .shr d _ _
  | .sra d _ _ | .rol d _ _ | .min d _ _ | .max d _ _ | .minu d _ _ | .maxu d _ _ | .mul d _ _ | .mulh d _ _
  | .mulhu d _ _ | .madd d _ _ | .bfx d _ _ | .bfxs d _ _ | .bfi d _ _ => some d
  | .cselT d _ _ _ | .cselF d _ _ _ => some d
  | .xshf d _ _ _ => some d
  | .pmovToG d => some d
  | .clz d _ | .ctz d _ | .popc d _ | .brev d _ | .bswap d _ => some d
  | .addi d _ _ | .andi d _ _ | .ori d _ _ | .xori d _ _ => some d
  | .shli d _ _ | .shri d _ _ | .srai d _ _ | .roli d _ _ => some d
  | .movi d _ => some d
  | .movk d _ _ | .movkZ d _ _ => some d
  | _ => none

/-- The instructions whose effect is one predicate, with that predicate. -/
def predDest : Instr → Option (BitVec 3)
  | .cmp p _ _ _ => some p
  | .cmpi p _ _ _ => some p
  | .plog p _ _ _ => some p
  | _ => none

/-- The instructions whose effect is the program counter alone; NOP has none. -/
def pcOnly : Instr → Bool
  | .brT _ _ | .brF _ _ => true
  | .jmp _ => true
  | .jr _ => true
  | .ret | .nop => true
  | _ => false

end Sys2Proof.Machine
end

