-- ==== Sys2Proof/Certificates/Slice0/Obligations.lean ====
section
/-! DEFINITION. The statements for the provers. A statement says of an instruction that it "executes normally" by
`State.issues`: its thread is in issue and no decode check of 10 R217 or of its own description fails. -/

open Sys2Proof Sys2Proof.Machine

/-! ### Words, steps and reset -/

/-- 10 R203, R204, R208 to R215: eighteen words written out bit by bit (L, S, major, then the fields) decode to what
they stand for; bit 0 is the lowest. -/
def Obligations.SpecWordsDecode : Prop :=
  decodeTableWord 32 0b10000000001010001000011000000001 = some (.sub 5 2 3) ∧
  decodeTableWord 32 0b10000010010010100000111001111111 = some (.xshf 9 8 7 63) ∧
  decodeTableWord 32 0b10000011000010001011111111111111 = some (.addi 1 2 16383) ∧
  decodeTableWord 32 0b10001011001100010011111111111111 = some (.cmpi 1 4 9 8191) ∧
  decodeTableWord 32 0b10011000101111111111111111111110 = some (.brF 3 1048574) ∧
  decodeTableWord 32 0b11011100010000000011111111111100 = some (.loop 8 16380) ∧
  decodeTableWord 32 0b10011101001010100000010000000110 = some (.spawnt 5 2 6) ∧
  decodeTableWord 32 0b11011110000110010000100110000010 = some (.qwait 3 4 1 65) ∧
  decodeTableWord 32 0b10011111000000010011000000001111 = some (.barsync 4 15) ∧
  decodeTableWord 32 0b10100001010010101001110111111000 = some (.stRel 9 10 3 2 504) ∧
  decodeTableWord 32 0b10100010000110010001110010000000 = some (.atom 3 4 1 2 8) ∧
  decodeTableWord 32 0b10100100001000011001011001100000 = some (.ratom 4 6 1 9 1) ∧
  decodeTableWord 32 0b10101001000010001001111000000100 = some (.vsetvl 1 2 7 2) ∧
  decodeTableWord 32 0b10101101001000010100110001011010 = some (.vqnt 4 5 6 1 1 2) ∧
  decodeTableWord 32 0b10110000110001000000001000100101 = some (.mpass 6 128 1 5) ∧
  decodeTableWord 32 0b10110001011000001000010000000010 = some (.cpym 3 16 2) ∧
  decodeTableWord 32 0b10110010010000000100101000000001 = some (.cbpush 2 9 1) ∧
  decodeTableWord 32 0b10110011000000110001000001010000 = some (.sysw 12 80)

/-- 10 R203 to R215: the decoder reads every operand of every well-formed instruction back from its word, whatever L
and S. -/
def Obligations.EncodedWordDecodesToItself : Prop :=
  ∀ (i : Instr) (l s : BitVec 1) (w : Insn), i.wf = true → encode l s i = some w → decodeWord w = .ok i

/-- 10 R206, R208 to R215: a word that decodes is the one word of its instruction under its bits L and S: no bit of it
is dropped, and no two words of one L and S mean the same. -/
def Obligations.DecodedWordIsTheEncodedOne : Prop :=
  ∀ (w : Insn) (i : Instr), decodeWord w = .ok i → encode (w.extractLsb' 31 1) (w.extractLsb' 30 1) i = some w

/-- 10 R208: a major that the table does not assign is refused as such, whatever the other bits. 10 R217: an
unassigned instruction traps at decode by its first failing check; a lone word of an unassigned major with 0.0.0, one
with non-zero reserved bits with 0.0.2, i0 naming them. -/
def Obligations.UnassignedInstructionsTrap : Prop :=
  (∀ w : Insn, (w.extractLsb' 24 6).toNat ∈ [0x0D, 0x0E, 0x0F, 0x10, 0x11, 0x12, 0x13, 0x14, 0x15, 0x16, 0x17, 0x25, 0x26, 0x27,
    0x34, 0x35, 0x36, 0x37, 0x38, 0x39, 0x3A, 0x3B, 0x3C, 0x3D, 0x3E, 0x3F] → decodeWord w = .error .major) ∧
  (∀ (s : State) (c : Ctx) (w0 w1 : Insn) (tr : Trap), s.ctx? = some c →
    (decodeBundle c ⟨w0, w1, s.cur.pair⟩ = .error tr →
      exec (.unassignedInstruction w0 w1) s = .next (s.park c.t.cl c.t.slot c.t.pc c.t.soloC tr)) ∧
    (bitOf w0 31 = true → decodeWord w0 = .error .major →
      decodeBundle c ⟨w0, 0, false⟩ = .error ⟨0, BitVec.ofNat 64 (field w0 24 6), c.t.prev, (⟨w0, 0, false⟩ : Bundle).words, 0⟩) ∧
    (bitOf w0 31 = true → ∀ m i, decodeWord w0 = .error (.reserved m) → bodyOf w0 = some i → isVec i = false →
      decodeBundle c ⟨w0, 0, false⟩ = .error ⟨2, BitVec.ofNat 64 m.toNat, c.t.prev, (⟨w0, 0, false⟩ : Bundle).words, 0⟩))

/-- THE MACHINE'S OWN TURN: when nothing else is due and a thread is picked, the step is exec of the one instruction
that the word at its PC decodes to, in the state in which its bundle has been taken for issue; for a pair that no
check stops it is the run of both words, which read the registers as before the bundle (10 R199). A lone word (L = 1)
decodes as a bundle to what the word decodes to (10 R198). An entry of the agenda that is an event takes place, and
one that is none is passed over (the model's own order of events, log 4). -/
def Obligations.StepRunsTheDecodedInstruction : Prop :=
  (∀ (s : State) (t : Thread) (f : Frame) (b : Bundle) (i : Instr) (c : Ctx),
    s.agenda = [] → s.auto = true → s.windowEvent = none → s.dueEvent s.acts = none → s.stateEvent = none →
    s.unitTurn = none → s.rampDone = none → s.remapTurn = none → s.expiryEvent s.threads = none →
    s.pick = some t → s.frame? t.cl t.rgn t.knum = some f → s.bundle? t f = some b →
    ((s.issued t).enter t b).ctx? = some c → decodeBundle c b = .ok [i] →
    step s = exec i ((s.issued t).enter t b)) ∧
  (∀ (c : Ctx) (w : Insn) (i : Instr), decodeWord w = .ok i → bitOf w 31 = true → (isVec i = true → typeOk c.t.vtype.toNat i = true) →
    decodeBundle c { w0 := w, w1 := 0, pair := false } = .ok [i]) ∧
  (∀ (s : State) (ev : Instr) (rest : List Instr), s.agenda = ev :: rest →
    (ev.isEvent = true → step s = exec ev { s with agenda := rest }) ∧
    (ev.isEvent = false → step s = .next { s with agenda := rest })) ∧
  (∀ (s : State) (t : Thread) (f : Frame) (b : Bundle) (i0 i1 : Instr) (c : Ctx),
    s.agenda = [] → s.auto = true → s.windowEvent = none → s.dueEvent s.acts = none → s.stateEvent = none →
    s.unitTurn = none → s.rampDone = none → s.remapTurn = none → s.expiryEvent s.threads = none →
    s.pick = some t → s.frame? t.cl t.rgn t.knum = some f → s.bundle? t f = some b →
    ((s.issued t).enter t b).ctx? = some c → decodeBundle c b = .ok [i0, i1] →
    decodeChecks ((s.issued t).enter t b) c [i0, i1] = none → step s = runPair i0 i1 ((s.issued t).enter t b))

/-- What reset leaves, of every device register to which the spec gives a reset value. Of each cluster: NEWELCFG.AGEQL
8 and MAXW 0 (03 R58, R59), SQSTAT with 64 free entries and WLSTAT 0 (04 R97, R98), CYC 0 (14 R323), IPAT all ones and
EFF all ones with no pattern to follow (24 R433), REQ, CUR and TGT P0, PSSTAT with VOLT 0x96, DUTY 32 and every other
field 0 (24 R438, R443), RGNCTL and RGNSTAT 0 (19 R372, R373). Of the package: TIME and PKGID 0 (14 R323, R325),
BOOTSTAT 0, HOSTMEM 0x4002, NBRLOST, NBRVEC, RCMD, RSTAT, CCMD, BCMD, MBCMD and MBSTAT 0 (22 R401, R404, R405, R408,
R415; 25 R451); of each die MSCCTL with every way enabled and SKIPEN, MSCSTAT and HOSTRES 0 (21 R398, R399; 22 R404);
of each Foyer lane every register 0 (22 R411). The registers of threads and frames are set where those start. The
machine runs nothing: no region, kernel, thread, command or work in flight (22 R404). That every byte of memory reads
as zero is the model's choice (log 1, 2); the memories are in canonical form. -/
def Obligations.StateAfterReset : Prop :=
  (∀ p c d k : Nat, c < 256 →
    (State.reset.phy p).ageql = 8 ∧ (State.reset.phy p).maxw = 0 ∧ (State.reset.phy p).cyc = 0 ∧ State.reset.time = 0 ∧
    (State.reset.phy p).pat = BitVec.allOnes 32 ∧ (State.reset.phy p).eff = BitVec.allOnes 32 ∧ (State.reset.phy p).patNext = none ∧
    (State.reset.phy p).duty = 32 ∧ (State.reset.phy p).ballast = 0 ∧ (State.reset.phy p).thrcnt = 0 ∧
    (State.reset.pair p).req = 0 ∧ (State.reset.pair p).cur = 0 ∧ (State.reset.pair p).tgt = 0 ∧ (State.reset.pair p).cap = 0 ∧
    State.reset.psstat c = 0x200000009600 ∧ State.reset.sqstat c = 64 ∧ State.reset.wlstat c = 0 ∧
    (State.reset.clu c).rgnctl = 0 ∧ State.reset.rgnstat c = 0 ∧ State.reset.pkgid = 0 ∧
    (State.reset.die d).mscctl = 0xFFFF04 ∧ (State.reset.die d).mscstat = 0 ∧ (State.reset.die d).hostres = 0 ∧
    State.reset.bootstat = 0 ∧ State.reset.hostmem = 0x4002 ∧ State.reset.nbrlost = 0 ∧ State.reset.nbrvec = 0 ∧
    State.reset.rcmd = 0 ∧ State.reset.rstat = 0 ∧ State.reset.ccmd = 0 ∧ State.reset.bcmd = 0 ∧
    State.reset.mbcmd = 0 ∧ State.reset.mbstat = 0 ∧
    (State.reset.lane k).seq = 0 ∧ (State.reset.lane k).drops = 0 ∧ (State.reset.lane k).detail = 0 ∧ (State.reset.lane k).code = 0 ∧
    (State.reset.lane k).semsel = 0) ∧
  (State.reset.memsOk = true ∧ State.reset.regions = [] ∧ State.reset.frames = [] ∧ State.reset.threads = [] ∧
  State.reset.cmds = [] ∧ State.reset.acts = [] ∧ ∀ rgn knum p, State.reset.readByte rgn knum p = 0)

/-- Every step keeps the canonical form of HBM, of host memory and of every scratchpad window (addresses strictly
rising, no entry equal to what an unlisted address reads as): equal memories stay equal data. -/
def Obligations.EveryStepKeepsMemoryForm : Prop :=
  ∀ s t : State, s.memsOk = true → step s = .next t → t.memsOk = true

/-! ### Integer instructions (11 R222 to R229) -/

/-- 11 R222, R223: ADD to ROL, MIN to MAXU, CSEL, PMOV and MUL to MADD complete whenever they execute normally, write
their result to d and nothing else (but the PC). 11 R224, 03 R52: DIVU and REMU complete, fix quotient and remainder
at issue, leave d pending, and the result is on its way to d alone; their divisor is not zero then. -/
def Obligations.IntegerResults : Prop :=
  (∀ d a b : BitVec 5,
    let x (t : Thread) : Word := t.getG a.toNat
    let y (t : Thread) : Word := t.getG b.toNat
    writesReg (.add d a b) d (fun t => x t + y t) ∧ writesReg (.sub d a b) d (fun t => x t - y t) ∧
    writesReg (.and d a b) d (fun t => x t &&& y t) ∧ writesReg (.or d a b) d (fun t => x t ||| y t) ∧
    writesReg (.xor d a b) d (fun t => x t ^^^ y t) ∧ writesReg (.andn d a b) d (fun t => x t &&& ~~~(y t)) ∧
    writesReg (.orn d a b) d (fun t => x t ||| ~~~(y t)) ∧
    writesReg (.shl d a b) d (fun t => x t <<< ((y t).toNat % 64)) ∧
    writesReg (.shr d a b) d (fun t => x t >>> ((y t).toNat % 64)) ∧
    writesReg (.sra d a b) d (fun t => (x t).sshiftRight ((y t).toNat % 64)) ∧
    writesReg (.rol d a b) d (fun t => (x t).rotateLeft ((y t).toNat % 64)) ∧
    writesReg (.min d a b) d (fun t => if (x t).toInt < (y t).toInt then x t else y t) ∧
    writesReg (.max d a b) d (fun t => if (x t).toInt < (y t).toInt then y t else x t) ∧
    writesReg (.minu d a b) d (fun t => if (x t).toNat < (y t).toNat then x t else y t) ∧
    writesReg (.maxu d a b) d (fun t => if (x t).toNat < (y t).toNat then y t else x t) ∧
    (∀ k : BitVec 3, writesReg (.cselT d a b k) d (fun t => if t.p.getLsbD k.toNat then x t else y t) ∧
      writesReg (.cselF d a b k) d (fun t => if t.p.getLsbD k.toNat then y t else x t)) ∧
    writesReg (.pmovToG d) d (fun t => t.p.setWidth 64) ∧
    (∀ s c, s.issues c (.pmovToP a) →
      exec (.pmovToP a) s = .next (s.put c (fun u => { u with p := (x c.t).extractLsb' 0 8 }))) ∧
    writesReg (.mul d a b) d (fun t => x t * y t) ∧
    writesReg (.mulh d a b) d (fun t => BitVec.ofInt 64 (((x t).toInt * (y t).toInt) / 2 ^ 64)) ∧
    writesReg (.mulhu d a b) d (fun t => BitVec.ofNat 64 ((x t).toNat * (y t).toNat / 2 ^ 64)) ∧
    writesReg (.madd d a b) d (fun t => t.getG d.toNat + x t * y t)) ∧
  (∀ (s : State) (c : Ctx) (d a b : BitVec 5),
    let x := (c.t.getG a.toNat).toNat
    let y := (c.t.getG b.toNat).toNat
    (s.issues c (.divu d a b) →
      exec (.divu d a b) s = .next ((s.put c (fun u => u.pend (.g d))).addAct Config.divide c.t.cl c.t.slot []
        (.result (.g d) (BitVec.ofNat 64 (x / y)) none)) ∧ y ≠ 0) ∧
    (s.issues c (.remu d a b) →
      exec (.remu d a b) s = .next ((s.put c (fun u => u.pend (.g d))).addAct Config.divide c.t.cl c.t.slot []
        (.result (.g d) (BitVec.ofNat 64 (x % y)) none)) ∧ y ≠ 0))

/-- 11 R225: the bit-manipulation instructions complete whenever they execute normally and write their result to d and
nothing else (but the PC). CLZ and CTZ answer the number of zero bits above the highest and below the lowest one, 64
for zero; POPC the number of ones; BREV and BSWAP reverse bits and bytes; a field descriptor in G[b] has its position
in bits [5:0] and its width in bits [14:8], cut off at bit 63, for BFX, BFXS and BFI; XSHF shifts the pair of
registers right. Each function has the fn code of R225's table. -/
def Obligations.BitManipulationResults : Prop :=
  (∀ d a b : BitVec 5,
    let x (t : Thread) : Word := t.getG a.toNat
    let pos (t : Thread) : Nat := (t.getG b.toNat).toNat % 64
    let wid (t : Thread) : Nat := Nat.min ((t.getG b.toNat).toNat / 256 % 128) (64 - pos t)
    let fieldOf (t : Thread) : Nat := (x t).toNat / 2 ^ pos t % 2 ^ wid t
    writesReg (.clz d a) d (fun t => if x t = 0 then 64 else BitVec.ofNat 64 (63 - Nat.log2 (x t).toNat)) ∧
    writesReg (.ctz d a) d (fun t => BitVec.ofNat 64 (((List.range 64).takeWhile (fun k => !(x t).getLsbD k)).length)) ∧
    writesReg (.popc d a) d (fun t => BitVec.ofNat 64 (((List.range 64).filter (fun k => (x t).getLsbD k)).length)) ∧
    writesReg (.brev d a) d (fun t => (x t).reverse) ∧
    writesReg (.bswap d a) d (fun t =>
      (x t).extractLsb' 0 8 ++ (x t).extractLsb' 8 8 ++ (x t).extractLsb' 16 8 ++ (x t).extractLsb' 24 8 ++
      (x t).extractLsb' 32 8 ++ (x t).extractLsb' 40 8 ++ (x t).extractLsb' 48 8 ++ (x t).extractLsb' 56 8) ∧
    writesReg (.bfx d a b) d (fun t => BitVec.ofNat 64 (fieldOf t)) ∧
    writesReg (.bfxs d a b) d (fun t =>
      if wid t = 0 then 0
      else if fieldOf t < 2 ^ (wid t - 1) then BitVec.ofNat 64 (fieldOf t) else BitVec.ofInt 64 ((fieldOf t : Int) - 2 ^ wid t)) ∧
    writesReg (.bfi d a b) d (fun t =>
      let m : Word := BitVec.ofNat 64 ((2 ^ wid t - 1) * 2 ^ pos t)
      (t.getG d.toNat &&& ~~~m) ||| BitVec.ofNat 64 ((x t).toNat % 2 ^ wid t * 2 ^ pos t)) ∧
    ∀ n : BitVec 6, writesReg (.xshf d a b n) d (fun t => ((x t ++ t.getG b.toNat) >>> n.toNat).extractLsb' 0 64)) ∧
  (∀ (l s : BitVec 1) (d a b : BitVec 5) (n : BitVec 6),
    let word (b : BitVec 5) (fn : BitVec 9) : Insn := l ++ s ++ 0x02#6 ++ d ++ a ++ b ++ fn
    decodeWord (word 0 0x000) = .ok (.clz d a) ∧ decodeWord (word 0 0x001) = .ok (.ctz d a) ∧
    decodeWord (word 0 0x002) = .ok (.popc d a) ∧ decodeWord (word 0 0x003) = .ok (.brev d a) ∧
    decodeWord (word 0 0x004) = .ok (.bswap d a) ∧ decodeWord (word b 0x008) = .ok (.bfx d a b) ∧
    decodeWord (word b 0x009) = .ok (.bfxs d a b) ∧ decodeWord (word b 0x00A) = .ok (.bfi d a b) ∧
    decodeWord (word b (1#3 ++ n)) = .ok (.xshf d a b n))

/-- 11 R226: the immediate instructions complete whenever they execute normally and write their result to d and
nothing else (but the PC); ADDI and ANDI extend their immediate by sign, ORI and XORI by zeros; the shifts and
rotation count from 0 to 63; MOVI writes its sign-extended constant; MOVK replaces one quarter of d, and MOVK.Z writes
it with zeros elsewhere. Each has the format and major of R226's tables. -/
def Obligations.ImmediateResults : Prop :=
  (∀ d a : BitVec 5,
    let x (t : Thread) : Word := t.getG a.toNat
    (∀ i : BitVec 14,
      writesReg (.addi d a i) d (fun t => x t + i.signExtend 64) ∧ writesReg (.andi d a i) d (fun t => x t &&& i.signExtend 64) ∧
      writesReg (.ori d a i) d (fun t => x t ||| i.setWidth 64) ∧ writesReg (.xori d a i) d (fun t => x t ^^^ i.setWidth 64)) ∧
    (∀ n : BitVec 6,
      writesReg (.shli d a n) d (fun t => x t <<< n.toNat) ∧ writesReg (.shri d a n) d (fun t => x t >>> n.toNat) ∧
      writesReg (.srai d a n) d (fun t => (x t).sshiftRight n.toNat) ∧ writesReg (.roli d a n) d (fun t => (x t).rotateLeft n.toNat)) ∧
    (∀ i : BitVec 19, writesReg (.movi d i) d (fun _ => i.signExtend 64)) ∧
    ∀ (h : BitVec 2) (i : BitVec 16),
      writesReg (.movk d h i) d (fun t =>
        (t.getG d.toNat &&& ~~~((0xFFFF#64) <<< (16 * h.toNat))) ||| (i.setWidth 64 <<< (16 * h.toNat))) ∧
      writesReg (.movkZ d h i) d (fun _ => i.setWidth 64 <<< (16 * h.toNat))) ∧
  (∀ (l s : BitVec 1) (d a : BitVec 5),
    let word (m : BitVec 6) (x : BitVec 24) : Insn := l ++ s ++ m ++ x
    (∀ i : BitVec 14, decodeWord (word 0x03 (d ++ a ++ i)) = .ok (.addi d a i) ∧ decodeWord (word 0x04 (d ++ a ++ i)) = .ok (.andi d a i) ∧
      decodeWord (word 0x05 (d ++ a ++ i)) = .ok (.ori d a i) ∧ decodeWord (word 0x06 (d ++ a ++ i)) = .ok (.xori d a i)) ∧
    (∀ n : BitVec 6,
      decodeWord (word 0x07 (d ++ a ++ 0#3 ++ 0#5 ++ n)) = .ok (.shli d a n) ∧ decodeWord (word 0x07 (d ++ a ++ 1#3 ++ 0#5 ++ n)) = .ok (.shri d a n) ∧
      decodeWord (word 0x07 (d ++ a ++ 2#3 ++ 0#5 ++ n)) = .ok (.srai d a n) ∧ decodeWord (word 0x07 (d ++ a ++ 3#3 ++ 0#5 ++ n)) = .ok (.roli d a n)) ∧
    (∀ i : BitVec 19, decodeWord (word 0x08 (d ++ i)) = .ok (.movi d i)) ∧
    ∀ (h : BitVec 2) (i : BitVec 16), decodeWord (word 0x09 (d ++ h ++ 0#1 ++ i)) = .ok (.movk d h i) ∧
      decodeWord (word 0x09 (d ++ h ++ 1#1 ++ i)) = .ok (.movkZ d h i))

/-- 11 R227 to R229: CMP and CMPI complete whenever they execute normally and write one of eight conditions of G[a]
and G[b] or of G[a] and the sign-extended immediate to predicate pd; PLOG writes one of eight functions of two
predicates; nothing else changes but the PC. They have the formats of R227, and PLOG's MOV and NOT with a non-zero pb
are refused as reserved. -/
def Obligations.PredicateResults : Prop :=
  (∀ p : BitVec 3,
    let cond (k : BitVec 3) (x y : Word) : Bool :=
      [x == y, x != y, decide (x.toInt < y.toInt), decide (y.toInt ≤ x.toInt), decide (x.toNat < y.toNat), decide (y.toNat ≤ x.toNat),
       x &&& y != 0, x &&& y == 0].getD k.toNat false
    let fn (k : BitVec 3) (x y : Bool) : Bool := [x && y, x || y, x ^^ y, x && !y, x || !y, x == y, x, !x].getD k.toNat false
    (∀ (k : BitVec 3) (a b : BitVec 5), writesPred (.cmp p k a b) p (fun t => cond k (t.getG a.toNat) (t.getG b.toNat))) ∧
    (∀ (k : BitVec 3) (a : BitVec 5) (i : BitVec 13), writesPred (.cmpi p k a i) p (fun t => cond k (t.getG a.toNat) (i.signExtend 64))) ∧
    ∀ k a b : BitVec 3, writesPred (.plog p k a b) p (fun t => fn k (t.p.getLsbD a.toNat) (t.p.getLsbD b.toNat))) ∧
  (∀ (l s : BitVec 1) (p k : BitVec 3) (a b : BitVec 5) (i : BitVec 13) (x y : BitVec 3),
    let plog : Insn := l ++ s ++ 0x0C#6 ++ p ++ k ++ 0#2 ++ x ++ y ++ 0#10
    decodeWord (l ++ s ++ 0x0A#6 ++ p ++ k ++ a ++ b ++ 0#8) = .ok (.cmp p k a b) ∧
    decodeWord (l ++ s ++ 0x0B#6 ++ p ++ k ++ a ++ i) = .ok (.cmpi p k a i) ∧
    (k.toNat < 6 ∨ y = 0 → decodeWord plog = .ok (.plog p k x y)) ∧
    (6 ≤ k.toNat → y ≠ 0 → ∃ m, decodeWord plog = .error (.reserved m)))

/-- 10 R201, 11 R230, with the effects of R231 and R232: the control transfers complete whenever they execute
normally. A displacement counts words from the bundle's first word (BPC), of 20 bits for BR, 24 for JMP and CALL, 14
for LOOP; CALL and CALLR leave NEXT in g7, CALLR jumping to the old value of its register; LOOP counts down and falls
through at zero; NOP has no effect. Each has its format of R230. -/
def Obligations.ControlTransfers : Prop :=
  (∀ (s : State) (c : Ctx),
    (∀ (p : BitVec 3) (n : BitVec 20),
      (s.issues c (.brT p n) → exec (.brT p n) s =
        .next (if c.t.p.getLsbD p.toNat then s.jumpsTo c (c.bpc + 4 * n.signExtend 64) else s.begin c)) ∧
      (s.issues c (.brF p n) → exec (.brF p n) s =
        .next (if c.t.p.getLsbD p.toNat then s.begin c else s.jumpsTo c (c.bpc + 4 * n.signExtend 64)))) ∧
    (∀ n : BitVec 24,
      (s.issues c (.jmp n) → exec (.jmp n) s = .next (s.jumpsTo c (c.bpc + 4 * n.signExtend 64))) ∧
      (s.issues c (.call n) → exec (.call n) s =
        .next ((s.setsG c 7 (c.next s)).modThread c.t.cl c.t.slot (fun u => { u with pc := c.bpc + 4 * n.signExtend 64 })))) ∧
    (∀ a : BitVec 5,
      (s.issues c (.jr a) → exec (.jr a) s = .next (s.jumpsTo c (c.t.getG a.toNat))) ∧
      (s.issues c (.callr a) → exec (.callr a) s =
        .next ((s.setsG c 7 (c.next s)).modThread c.t.cl c.t.slot (fun u => { u with pc := c.t.getG a.toNat })))) ∧
    (s.issues c .ret → exec .ret s = .next (s.jumpsTo c (c.t.getG 7))) ∧
    (s.issues c .nop → exec .nop s = .next (s.begin c)) ∧
    ∀ (d : BitVec 5) (n : BitVec 14), s.issues c (.loop d n) →
      let k := c.t.getG d.toNat
      exec (.loop d n) s = .next (
        if k = 0 then s.begin c
        else if k = 1 then s.setsG c d 0
        else (s.setsG c d (k - 1)).modThread c.t.cl c.t.slot (fun u => { u with pc := c.bpc + 4 * n.signExtend 64 }))) ∧
  (∀ (l s : BitVec 1) (p : BitVec 3) (a d : BitVec 5) (n20 : BitVec 20) (n24 : BitVec 24) (n14 : BitVec 14),
    let word (m : BitVec 6) (x : BitVec 24) : Insn := l ++ s ++ m ++ x
    decodeWord (word 0x18 (0#1 ++ p ++ n20)) = .ok (.brT p n20) ∧ decodeWord (word 0x18 (1#1 ++ p ++ n20)) = .ok (.brF p n20) ∧
    decodeWord (word 0x19 n24) = .ok (.jmp n24) ∧ decodeWord (word 0x1A n24) = .ok (.call n24) ∧
    decodeWord (word 0x1B (0#5 ++ a ++ 0#14)) = .ok (.jr a) ∧ decodeWord (word 0x1B (0#5 ++ a ++ 1#14)) = .ok (.callr a) ∧
    decodeWord (word 0x1B (0#10 ++ 2#14)) = .ok .ret ∧
    (d ≠ 0 → decodeWord (word 0x1C (d ++ 0#5 ++ n14)) = .ok (.loop d n14)) ∧ decodeWord (word 0x1C 0) = .ok .nop)

/-- The frame of the instructions of `regDest` (ADD to MOVK.Z but for DIVU and REMU): they complete; of the thread
only the destination (unless it is g0) and the PC, which is NEXT, change among registers, predicates, pending bits and
special registers; every other thread, everything else of the package and every byte of memory stays. -/
def Obligations.RegisterInstructionFrame : Prop :=
  ∀ (s : State) (c : Ctx) (i : Instr) (d : BitVec 5), regDest i = some d → s.issues c i →
    ∃ t u, exec i s = .next t ∧ t.thread? c.t.cl c.t.slot = some u ∧
      (∀ r, r ≠ d.toNat → u.getG r = c.t.getG r) ∧ u.getG 0 = 0 ∧ u.p = c.t.p ∧ u.pendG = c.t.pendG ∧ u.pendP = c.t.pendP ∧
      u.pc = c.next s ∧ c.t.keepsSpecial u ∧ s.onlyThread t c.t.cl c.t.slot ∧ s.sameMemory t

/-- The frame of CMP, CMPI and PLOG: only the destination predicate and the PC change. The frame of BR.T, BR.F, JMP,
JR, RET and NOP, and of CALL and CALLR but for g7 and LOOP but for its counter: no other register, no predicate,
special register or byte of memory changes. -/
def Obligations.PredicateAndControlFrame : Prop :=
  (∀ (s : State) (c : Ctx) (i : Instr) (p : BitVec 3), predDest i = some p → s.issues c i →
    ∃ t u, exec i s = .next t ∧ t.thread? c.t.cl c.t.slot = some u ∧
      (∀ k, k ≠ p.toNat → u.p.getLsbD k = c.t.p.getLsbD k) ∧ (∀ r, u.getG r = c.t.getG r) ∧ u.pendG = c.t.pendG ∧
      u.pendP = c.t.pendP ∧ u.pc = c.next s ∧ c.t.keepsSpecial u ∧ s.onlyThread t c.t.cl c.t.slot ∧ s.sameMemory t) ∧
  (∀ (s : State) (c : Ctx) (i : Instr), s.issues c i →
    (pcOnly i = true ∨ (∃ n, i = .call n) ∨ (∃ a, i = .callr a) ∨ (∃ d n, i = .loop d n)) →
    ∃ t u, exec i s = .next t ∧ t.thread? c.t.cl c.t.slot = some u ∧
      (∀ r, (pcOnly i = true ∨ r ≠ (match i with | .loop d _ => d.toNat | _ => 7)) → u.getG r = c.t.getG r) ∧
      u.p = c.t.p ∧ u.pendG = c.t.pendG ∧ u.pendP = c.t.pendP ∧ c.t.keepsSpecial u ∧
      s.onlyThread t c.t.cl c.t.slot ∧ s.sameMemory t)

/-! ### Taking a trap and returning from one (10 R216 to R218; 19 R361 to R364; 14 R326, R329) -/

/-- A TRAP AT DECODE: the instruction has no effect; its thread parks with the PC of its bundle and keeps its
registers (the one register of 7.0.0 reads as zero, 19 R362), memory and every frame stay, and the record with the
cause and its words stands last in the region's fault queue arbiter, or behind the switch window of its cluster's pair
(24 R440). -/
def Obligations.DecodeTrapParksTheThread : Prop :=
  ∀ (s : State) (c : Ctx) (i : Instr) (tr : Trap), i.isEvent = false → s.failsWith c i tr →
    ∃ t u, exec i s = .next t ∧ t.thread? c.t.cl c.t.slot = some u ∧ u.wait = .parked ∧ u.pc = c.t.pc ∧ u.soloC = c.t.soloC ∧
      u.p = c.t.p ∧ u.pendG = c.t.pendG ∧ u.pendP = c.t.pendP ∧
      (∀ r, (tr.cause ≠ 448 ∨ r ≠ tr.i0.toNat) → u.getG r = c.t.getG r) ∧ (tr.cause = 448 → u.getG tr.i0.toNat = 0) ∧
      t.frames = s.frames ∧ s.sameMemory t ∧ s.recorded t (s.parkRecord c.t c.t.pc tr)

/-- 10 R216, R217 check 7: at U level the six context and bind instructions and an access to a register from 0x40 on
trap with 0.0.4 whatever their operands; above U level nothing is refused for its privilege. 14 R321 with 10 R217
check 6: SYSR and SYSW of an unassigned register trap with 0.0.6 at every level. -/
def Obligations.PrivilegeAndSystemRegisterTraps : Prop :=
  (∀ (s : State) (c : Ctx), s.ctx? = some c →
    (c.f.level = .u →
      (∀ a : BitVec 5, ∀ i ∈ [Instr.tresume a, .tctxr a, .tctxw a, .tkill a, .kbind a, .kunbind a],
        s.failsWith c i ⟨4, 1, c.t.prev, s.cur.words, 0⟩) ∧
      ∀ (a : BitVec 5) (r : BitVec 12), sysAssigned r.toNat = true → 0x40 ≤ r.toNat →
        s.failsWith c (.sysr a r) ⟨4, BitVec.ofNat 64 (1 + 65536 * r.toNat), c.t.prev, s.cur.words, 0⟩ ∧
        s.failsWith c (.sysw a r) ⟨4, BitVec.ofNat 64 (1 + 65536 * r.toNat), c.t.prev, s.cur.words, 0⟩) ∧
    (c.f.level ≠ .u → ∀ w k i, checkPriv c w k i = none)) ∧
  (∀ (s : State) (c : Ctx) (a : BitVec 5) (r : BitVec 12), s.ctx? = some c → sysAssigned r.toNat = false →
    s.failsWith c (.sysr a r) ⟨6, BitVec.ofNat 64 r.toNat, c.t.prev, s.cur.words, 0⟩ ∧
    s.failsWith c (.sysw a r) ⟨6, BitVec.ofNat 64 (r.toNat + 0x10000), c.t.prev, s.cur.words, 0⟩)

/-- 03 R53 and 02 R35 on a three-register instruction: a register at or above the allotment traps with 1.0.0 that
names the lowest such register; else a pending one traps with 0.0.5 that names the lowest pending one (that one first:
log 17). 11 R224, 10 R202 and 11 R248: where the checks of R217 pass, a division by zero traps with 3.0.0, a jump to a
register that is no multiple of 4 with 2.0.5, and an arrival at an uninitialised barrier with 4.0.0, at decode. -/
def Obligations.OperandTrapsAtDecode : Prop :=
  (∀ (s : State) (c : Ctx) (d a b : BitVec 5) (r : Nat), s.ctx? = some c → r ∈ [a.toNat, b.toNat, d.toNat] →
    (c.allot ≤ r → (∀ x ∈ [a.toNat, b.toNat, d.toNat], c.allot ≤ x → r ≤ x) →
      s.failsWith c (.add d a b) ⟨64, BitVec.ofNat 64 r, BitVec.ofNat 64 c.allot, s.cur.words, 0⟩) ∧
    ((∀ x ∈ [a.toNat, b.toNat, d.toNat], x < c.allot) → c.t.pendG.getLsbD r = true →
      (∀ x ∈ [a.toNat, b.toNat, d.toNat], c.t.pendG.getLsbD x = true → r ≤ x) →
      s.failsWith c (.add d a b) ⟨5, BitVec.ofNat 64 r, BitVec.ofNat 64 (c.t.pendG.toNat + 2 ^ 32 * c.t.pendP.toNat), s.cur.words, 0⟩)) ∧
  (∀ (s : State) (c : Ctx) (d a b : BitVec 5) (n : BitVec 4), s.ctx? = some c →
    let earlier (i : Instr) : Prop := checkAllots c s.cur.words [i] = none ∧ checkPending c s.cur.words 0 i = none ∧ checkEcc s c s.cur.words 0 i = none
    (c.t.getG b.toNat = 0 →
      (earlier (.divu d a b) → s.failsWith c (.divu d a b) ⟨192, c.t.getG a.toNat, 0, s.cur.words, 0⟩) ∧
      (earlier (.remu d a b) → s.failsWith c (.remu d a b) ⟨192, c.t.getG a.toNat, 0, s.cur.words, 0⟩)) ∧
    ((c.t.getG a.toNat).toNat % 4 ≠ 0 →
      (earlier (.jr a) → s.failsWith c (.jr a) ⟨133, c.t.getG a.toNat, 0, s.cur.words, 0⟩) ∧
      (earlier (.callr a) → s.failsWith c (.callr a) ⟨133, c.t.getG a.toNat, 0, s.cur.words, 0⟩)) ∧
    ((c.t.getG 7).toNat % 4 ≠ 0 → earlier .ret → s.failsWith c .ret ⟨133, c.t.getG 7, 0, s.cur.words, 0⟩) ∧
    ((c.f.bar n.toNat).init = false → earlier (.barrive n) →
      s.failsWith c (.barrive n) ⟨256, BitVec.ofNat 64 n.toNat, 0xFFFFFFFF, 0, 0⟩))

/-- 14 R326: TRAP takes the software trap 0.0.7: the thread parks with the PC of its next bundle, its registers as
they were, and the record carries the immediate. 14 R329, 02 R34: the return from a trap makes the thread ready with W
= 0 and its priority clamped to the ceiling, and keeps its PC, its registers and every other thread. -/
def Obligations.TrapParksAndResumeReturns : Prop :=
  (∀ (s : State) (c : Ctx) (k : BitVec 8), s.issues c (.trap k) →
    ∃ t u, exec (.trap k) s = .next t ∧ t.thread? c.t.cl c.t.slot = some u ∧ u.wait = .parked ∧ u.pc = c.next s ∧
      (∀ r, u.getG r = c.t.getG r) ∧ u.p = c.t.p ∧ u.pendG = c.t.pendG ∧ u.pendP = c.t.pendP ∧ t.frames = s.frames ∧ s.sameMemory t ∧
      s.recorded t (s.parkRecord c.t (c.next s) ⟨7, k.setWidth 64, c.t.prev, s.cur.words, 0⟩)) ∧
  (∀ (s : State) (t : Thread) (g : Region), s.thread? t.cl t.slot = some t → s.region? t.rgn = some g → t.late = [] → t.replay = [] →
    ∃ u, (s.resumeThread t).thread? t.cl t.slot = some u ∧ u.wait = .none ∧ u.w = 0 ∧ u.prio = BitVec.ofNat 3 (Nat.min t.prio.toNat g.ceil) ∧
      u.pc = t.pc ∧ (∀ r, u.getG r = t.getG r) ∧ u.p = t.p ∧ s.onlyThread (s.resumeThread t) t.cl t.slot)

/-! ### Loads, stores, atomics and fences (12 R249 to R264) -/

/-- 12 R252, R253: LD, LD.ACQ and LDC of an address that passes the checks of 04 R70 leave d pending and a load in
flight from the place that the checks found, behind the thread's acquires and, for LD and LD.ACQ, its earlier accesses
of the same bytes (05 R103, R109); LD.ACQ is an acquire too; LD of a fabric address is a remote load (12 R252). -/
def Obligations.LoadsAreStarted : Prop :=
  ∀ (s : State) (c : Ctx) (d b : BitVec 5) (z : BitVec 3) (i : BitVec 9) (pl : Place),
    let sz := 2 ^ (z.toNat % 4)
    let ea := c.t.getG b.toNat + i.signExtend 64 * BitVec.ofNat 64 sz
    let acc (wins : List Window) (ldc : Bool) : Acc := scalarAcc 0 ea sz wins ldc
    let started (kind : Nat) (wins : List Window) (acq after : List Nat) : State :=
      (s.put c (fun u => { u.pend (.g d) with acq := u.acq ++ acq })).addLoad c.t.cl c.t.slot c.t.rgn after pl kind
        (.load d pl sz (decide (4 ≤ z.toNat)) kind ea (acc wins (kind == 2)).i1 s.cur.words)
    (s.issues c (.ld d b z i) → s.checkAccess c.t.cl c.f c.r s.cur.words (acc [.localW, .peer, .global, .host, .fabric] false) = .ok pl →
      (∀ a, pl ≠ .fabric a) → exec (.ld d b z i) s =
        .next (started 0 [.localW, .peer, .global, .host, .fabric] [] ((s.begin c).accessWaits c.t pl sz))) ∧
    (s.issues c (.ld d b z i) → ∀ a, s.checkAccess c.t.cl c.f c.r s.cur.words (acc [.localW, .peer, .global, .host, .fabric] false) = .ok (.fabric a) →
      exec (.ld d b z i) s = .next ((s.begin c).fabricOp c (some (.g d)) (remoteOf 1 ea 0 0 0 sz (decide (4 ≤ z.toNat)) d false))) ∧
    (s.issues c (.ldAcq d b z i) → s.checkAccess c.t.cl c.f c.r s.cur.words (acc [.localW, .peer, .global, .host] false) = .ok pl →
      (∀ a, pl ≠ .fabric a) → exec (.ldAcq d b z i) s =
        .next (started 1 [.localW, .peer, .global, .host] [s.seq] ((s.begin c).accessWaits c.t pl sz))) ∧
    (s.issues c (.ldc d b z i) → s.checkAccess c.t.cl c.f c.r s.cur.words (acc [.global] true) = .ok pl →
      (∀ a, pl ≠ .fabric a) → exec (.ldc d b z i) s = .next (started 2 [.global] [] (s.openAcq c.t)))

/-- 12 R249, R250; 04 R70: a scalar load, store or atomic that fails its checks writes nothing and parks its thread
with the trap of the check, the PC being the one that 10 R200 gives; its record, with the cause and the words of the
check, is raised. 12 R249, 04 R70: an address that is no multiple of the access size, in a window that the access
admits, traps with kind 5; an address in no window with kind 3. -/
def Obligations.AccessChecksTrap : Prop :=
  (∀ (s : State) (c : Ctx) (d b : BitVec 5) (q : BitVec 4) (z : BitVec 3) (y o : BitVec 2) (w : BitVec 1) (op : BitVec 5) (i : BitVec 9) (tr : Trap),
    let pc := if s.cur.pair then c.t.pc + 4 else c.t.pc
    let traps (x : Instr) (a : Acc) : Prop := s.issues c x → s.checkAccess c.t.cl c.f c.r s.cur.words a = .error tr →
      ∃ t u, exec x s = .next t ∧ t.thread? c.t.cl c.t.slot = some u ∧ u.wait = .parked ∧ u.pc = pc ∧ (∀ r, u.getG r = c.t.getG r) ∧
        u.p = c.t.p ∧ u.pendG = c.t.pendG ∧ t.frames = s.frames ∧ s.sameMemory t ∧ s.recorded t (s.parkRecord c.t pc tr)
    let ld (wins : List Window) (ldc : Bool) : Acc :=
      scalarAcc 0 (c.t.getG b.toNat + i.signExtend 64 * BitVec.ofNat 64 (2 ^ (z.toNat % 4))) (2 ^ (z.toNat % 4)) wins ldc
    let atom : Acc := scalarAcc 2 (c.t.getG b.toNat) (if w.toNat = 0 then 4 else 8)
      (if o.toNat = 0 then [.localW, .peer, .global, .fabric] else [.localW, .peer, .global]) false
    traps (.ld d b z i) (ld [.localW, .peer, .global, .host, .fabric] false) ∧
    traps (.ldAcq d b z i) (ld [.localW, .peer, .global, .host] false) ∧
    traps (.ldc d b z i) (ld [.global] true) ∧
    traps (.st d b y i) (storeAcc c b i (2 ^ y.toNat) [.localW, .peer, .global, .host, .fabric]) ∧
    traps (.stRel d b y o i) (storeAcc c b i (2 ^ y.toNat) [.localW, .peer, .global, .host]) ∧
    traps (.stNlo d b i) (storeAcc c b i 1 [.localW, .peer]) ∧ traps (.stNhi d b i) (storeAcc c b i 1 [.localW, .peer]) ∧
    traps (.atom d b w o op) atom ∧ traps (.acas q b w o) atom) ∧
  (∀ (s : State) (cl : Nat) (f : Frame) (r : Region) (words : Word) (a : Acc),
    (window a.ea = .none → s.checkAccess cl f r words a = .error (a.trap words 3 0 0)) ∧
    (window a.ea ≠ .none → a.wins.contains (window a.ea) = true → flagOk f (window a.ea) = true →
      (window a.ea = .peer → inSet f.set (winField a.ea) = true) →
      window (a.ea + BitVec.ofNat 64 (a.size - 1)) = window a.ea → winField (a.ea + BitVec.ofNat 64 (a.size - 1)) = winField a.ea →
      a.ea.toNat % a.align ≠ 0 → s.checkAccess cl f r words a = .error (a.trap words 5 0 0)))

/-- 12 R251; 04 R87: a load that no write of its own thread precedes reads the bytes at its place, least significant
first. 12 R251, R252; 03 R52, R55: the write-back of a load from a scratchpad or from HBM that may perform and meets
no error, its thread's region not being saved, puts the loaded value, sign-extended where the load says so, into d
(into none where d is g0) and clears its pending bit; no other register, no predicate and no byte of memory changes.
-/
def Obligations.LoadsReadAndWriteBack : Prop :=
  (∀ (s : State) (t : Thread) (a : Act) (d : BitVec 5) (pl : Place) (sz : Nat) (sx : Bool) (ea i1 words : Word),
    a.job = .load d pl sz sx 0 ea i1 words → s.placeUp t.rgn t.knum pl = true → (∀ q, s.ownWrites t.cl t.slot a.id q = []) →
    s.loadNow t a = some (if sx then BitVec.ofInt 64 (sextNat (8 * sz) (fromLE (s.readAt t.rgn t.knum pl sz)))
      else BitVec.ofNat 64 (fromLE (s.readAt t.rgn t.knum pl sz)))) ∧
  (∀ (s : State) (id : Nat) (a : Act) (t : Thread) (d : BitVec 5) (pl : Place) (sz kind : Nat) (sx : Bool) (ea i1 words v : Word),
    s.act? id = some a → a.job = .load d pl sz sx kind ea i1 words → (∀ h, pl ≠ .host h) → (∀ h, pl ≠ .fabric h) →
    s.thread? a.cl a.slot = some t → s.doneAll a.after = true → s.absent a = false → s.loadNow t a = some v → s.loadBad t a = none →
    ∃ n u, exec (.resultWriteback id) s = .next n ∧ n.thread? a.cl a.slot = some u ∧
      (∀ r, u.getG r = if r = d.toNat ∧ r ≠ 0 ∧ r < t.g.length then v else t.getG r) ∧ u.pendG.getLsbD d.toNat = false ∧
      (∀ r, r ≠ d.toNat → u.pendG.getLsbD r = t.pendG.getLsbD r) ∧ u.p = t.p ∧ u.pc = t.pc ∧ t.keepsSpecial u ∧
      (∀ x ∈ n.acts, x.id ≠ id) ∧ s.sameMemory n)

/-- 12 R255; 00 R1: ST to the thread's own scratchpad window, behind no acquire and no access of its bytes that has
still to perform, has written its bytes, least significant first, when it completes, and every byte of memory outside
them reads as before; no register changes. Behind one, its thread is not ready until the write, which waits for it, is
done (05 R103, R109). 12 R256: ST.NLO and ST.NHI, behind no acquire and no access of the byte that has still to
perform, replace the low and the high four bits of one byte of the thread's own scratchpad window by bits [3:0] of the
register; every other byte of memory and every register stays. Behind one, the thread is not ready until the byte's
change, which waits for it, is done. -/
def Obligations.LocalStoresWriteTheirBytes : Prop :=
  (∀ (s : State) (c : Ctx) (r b : BitVec 5) (z : BitVec 2) (i : BitVec 9) (cl off : Nat), s.memsOk = true →
    s.issues c (.st r b z i) →
    s.checkAccess c.t.cl c.f c.r s.cur.words (storeAcc c b i (2 ^ z.toNat) [.localW, .peer, .global, .host, .fabric]) =
      .ok (.scratch cl off false) → s.frame? cl c.t.rgn c.t.knum ≠ none →
    let s1 := (s.begin c).fixLoads c.t.cl c.t.slot s.seq (.scratch cl off false) (2 ^ z.toNat)
    let after := s1.accessWaits c.t (.scratch cl off false) (2 ^ z.toNat)
    ∃ t u, exec (.st r b z i) s = .next t ∧ t.thread? c.t.cl c.t.slot = some u ∧
      (after = [] →
        (∀ k, k < 2 ^ z.toNat → t.readByte c.t.rgn c.t.knum (.scratch cl (off + k) false) = (c.t.getG r.toNat).extractLsb' (8 * k) 8) ∧
        (∀ rgn knum p, ¬ (rgn = c.t.rgn ∧ knum = c.t.knum ∧ ∃ o q, p = .scratch cl o q ∧ off ≤ o ∧ o < off + 2 ^ z.toNat) →
          t.readByte rgn knum p = s.readByte rgn knum p) ∧ c.t.keepsSpecial u) ∧
      (after ≠ [] → s.sameMemory t ∧ u.wait = .release [s1.seq] ∧ ∃ x ∈ t.acts, x.id = s1.seq ∧ x.after = after ∧
        ∃ e, x.job = .flight e ∧ e.line = (Place.scratch cl off false).line.1 ∧
          e.kind = .data (offBytes (off % 64) (leBytes (2 ^ z.toNat) (c.t.getG r.toNat).toNat))) ∧
      (∀ k, u.getG k = c.t.getG k) ∧ u.p = c.t.p ∧ u.pendG = c.t.pendG ∧ u.pc = c.next s) ∧
  (∀ (s : State) (c : Ctx) (r b : BitVec 5) (i : BitVec 9) (cl off : Nat) (hi : Bool), s.memsOk = true →
    let instr : Instr := if hi then .stNhi r b i else .stNlo r b i
    let old := s.readByte c.t.rgn c.t.knum (.scratch cl off false)
    let v := (c.t.getG r.toNat).extractLsb' 0 4
    s.issues c instr →
    s.checkAccess c.t.cl c.f c.r s.cur.words (storeAcc c b i 1 [.localW, .peer]) = .ok (.scratch cl off false) →
    s.frame? cl c.t.rgn c.t.knum ≠ none →
    let s1 := (s.begin c).fixLoads c.t.cl c.t.slot s.seq (.scratch cl off false) 1
    let after := s1.accessWaits c.t (.scratch cl off false) 1
    ∃ t u, exec instr s = .next t ∧ t.thread? c.t.cl c.t.slot = some u ∧
      (after = [] →
        t.readByte c.t.rgn c.t.knum (.scratch cl off false) = (if hi then v ++ old.extractLsb' 0 4 else old.extractLsb' 4 4 ++ v) ∧
        (∀ rgn knum p, ¬ (rgn = c.t.rgn ∧ knum = c.t.knum ∧ ∃ q, p = .scratch cl off q) → t.readByte rgn knum p = s.readByte rgn knum p) ∧
        c.t.keepsSpecial u) ∧
      (after ≠ [] → s.sameMemory t ∧ u.wait = .release [s1.seq] ∧ ∃ x ∈ t.acts, x.id = s1.seq ∧ x.after = after ∧
        ∃ e, x.job = .flight e ∧ e.line = (Place.scratch cl off false).line.1 ∧
          e.kind = .atomic (off % 64) 1 (if hi then 11 else 10) (c.t.getG r.toNat) 0 0) ∧
      (∀ k, u.getG k = c.t.getG k) ∧ u.p = c.t.p ∧ u.pendG = c.t.pendG ∧ u.pc = c.next s)

/-- 12 R255; 05 R108: ST.REL to the thread's own window with none of its scope's accesses, no acquire and no access of
its bytes outstanding has written its bytes when it completes; with some outstanding, the thread is not ready until
they have performed and the bytes are written. 12 R255 to R258; 04 R87, R88, R90: a store (ST, ST.REL, ST.NLO, ST.NHI)
or atomic (ATOM, ACAS) outside the thread's own window that passes its checks completes by entering the cluster's
store queue behind the accesses that it waits for: no byte of memory changes yet. A plain store that may merge adds
its bytes to its thread's youngest entry; any other takes an entry of its own where one is free, and an atomic leaves
its destination pending; where none is free, its thread waits for one. -/
def Obligations.QueuedAndReleaseStores : Prop :=
  (∀ (s : State) (c : Ctx) (r b : BitVec 5) (z o : BitVec 2) (i : BitVec 9) (cl off : Nat), s.issues c (.stRel r b z o i) →
    s.checkAccess c.t.cl c.f c.r s.cur.words (storeAcc c b i (2 ^ z.toNat) [.localW, .peer, .global, .host]) = .ok (.scratch cl off false) →
    let pl : Place := .scratch cl off false
    let s1 := ((s.begin c).fixLocal c.t.cl c.t.slot).fixLoads c.t.cl c.t.slot s.seq pl (2 ^ z.toNat)
    let after := s1.scopeSet c.t.cl c.t.slot o.toNat ++ s1.accessWaits c.t pl (2 ^ z.toNat)
    let bytes := leBytes (2 ^ z.toNat) (c.t.getG r.toNat).toNat
    (after = [] → exec (.stRel r b z o i) s =
      .next ((s1.seal c.t.cl c.t.slot).writeAt c.t.rgn c.t.knum pl bytes)) ∧
    (after ≠ [] → ∃ t u, exec (.stRel r b z o i) s = .next t ∧ s.sameMemory t ∧ t.thread? c.t.cl c.t.slot = some u ∧
      u.wait = .release [s1.seq] ∧ (∀ k, u.getG k = c.t.getG k) ∧ u.p = c.t.p ∧ u.pendG = c.t.pendG ∧ u.pc = c.next s ∧
      ∃ x ∈ t.acts, x.id = s1.seq ∧ x.after = after ∧ ∃ e, x.job = .flight e ∧ e.line = pl.line.1 ∧
        e.kind = .data (offBytes (off % 64) bytes))) ∧
  ((∀ (s : State) (c : Ctx) (r b d : BitVec 5) (q : BitVec 4) (z o w : BitVec 2) (y : BitVec 1) (op : BitVec 5) (j : BitVec 9) (pl : Place),
    (∀ k n, pl ≠ .scratch k n false) → (∀ a, pl ≠ .fabric a) →
    let cl := c.t.cl
    let slot := c.t.slot
    let entry (bs : List Byte) (rel : Bool) (a : Acc) : Entry :=
      { cls := 0, line := pl.line.1, mask := maskOf (offBytes pl.line.2 bs), kind := .data (offBytes pl.line.2 bs), release := rel, ea := a.ea,
        i1 := a.i1, words := s.cur.words, rgn := c.t.rgn, knum := c.t.knum, ack := none, mcast := [], note := none, sealed := false, queued := true }
    let plain := s.begin c
    let swlim := c.t.limit c.t.swlim
    let bytes := leBytes (2 ^ z.toNat) (c.t.getG r.toNat).toNat
    let sz := if y.toNat = 0 then 4 else 8
    let aSt := storeAcc c b j (2 ^ z.toNat) [.localW, .peer, .global, .host, .fabric]
    let aRel := storeAcc c b j (2 ^ z.toNat) [.localW, .peer, .global, .host]
    let aNib := storeAcc c b j 1 [.localW, .peer]
    let aAtom := scalarAcc 2 (c.t.getG b.toNat) sz (if w.toNat = 0 then [.localW, .peer, .global, .fabric] else [.localW, .peer, .global]) false
    let atomic (d : BitVec 5) (n : Nat) (x y : Word) : State :=
      let s1 := s.begin c
      s1.storeEnter cl slot (s1.scopeSet cl slot w.toNat ++ s1.accessWaits c.t pl sz)
        { entry (leBytes sz 0) (decide (w.toNat ≠ 0)) aAtom with kind := .atomic pl.line.2 sz n x y d } (some d) swlim
    let found (a : Acc) : Prop := s.checkAccess cl c.f c.r s.cur.words a = .ok pl
    (s.issues c (.st r b z j) → found aSt → exec (.st r b z j) s =
      .next (plain.storeEnter cl slot (plain.accessWaits c.t pl (2 ^ z.toNat)) (entry bytes false aSt) none swlim)) ∧
    (s.issues c (.stRel r b z o j) → found aRel → exec (.stRel r b z o j) s =
      .next (plain.storeEnter cl slot (plain.scopeSet cl slot o.toNat ++ plain.accessWaits c.t pl (2 ^ z.toNat)) (entry bytes true aRel) none swlim)) ∧
    (s.issues c (.stNlo r b j) → found aNib → exec (.stNlo r b j) s = .next (plain.storeEnter cl slot (plain.accessWaits c.t pl 1)
      { entry [0] false aNib with kind := .atomic pl.line.2 1 10 (c.t.getG r.toNat) 0 0 } none swlim)) ∧
    (s.issues c (.stNhi r b j) → found aNib → exec (.stNhi r b j) s = .next (plain.storeEnter cl slot (plain.accessWaits c.t pl 1)
      { entry [0] false aNib with kind := .atomic pl.line.2 1 11 (c.t.getG r.toNat) 0 0 } none swlim)) ∧
    (s.issues c (.atom d b y w op) → found aAtom → exec (.atom d b y w op) s = .next (atomic d op.toNat (c.t.getG d.toNat) 0)) ∧
    (s.issues c (.acas q b y w) → found aAtom → exec (.acas q b y w) s =
      .next (atomic (q ++ 0#1) 9 (c.t.getG (2 * q.toNat)) (c.t.getG (2 * q.toNat + 1))))) ∧
  ∀ (s : State) (cl slot lim : Nat) (after : List Nat) (e : Entry) (d : Option (BitVec 5)),
    let t := s.storeEnter cl slot after e d lim
    let alone := e.release = true ∨ (∀ bs, e.kind ≠ .data bs) ∨ s.mergeTarget cl slot after e = none
    s.sameMemory t ∧
    (∀ id bs, e.release = false → e.kind = .data bs → s.mergeTarget cl slot after e = some id → t.threads = s.threads ∧ t.acts.length = s.acts.length ∧
      ∀ x ∈ s.acts, x.id = id → ∀ y old, x.job = .entry y → y.kind = .data old → ∃ n ∈ t.acts, n.id = id ∧ n.after = x.after ++ after ∧
        n.job = .entry (y.merge old e.mask bs s.seq) ∧ (y.merge old e.mask bs s.seq).mask = y.mask ||| e.mask ∧
        (y.merge old e.mask bs s.seq).kind = .data (mergeBytes old bs)) ∧
    (alone → s.sqFree cl 0 = true → t.acts.length = s.acts.length + 1 ∧
      (∃ x ∈ t.acts, x.id = s.seq ∧ x.cl = cl ∧ x.slot = slot ∧ x.after = after ∧ x.job = .entry { e with sealed := false }) ∧
      ∀ u, s.thread? cl slot = some u → ∃ v, t.thread? cl slot = some v ∧ (∀ r, v.getG r = u.getG r) ∧ v.p = u.p ∧ v.pc = u.pc ∧ u.keepsSpecial v ∧
        v.pendG = (match d with | some r => (u.pend (.g r)).pendG | none => u.pendG)) ∧
    (alone → s.sqFree cl 0 = false → t = (s.walkedAt cl e.rgn e.line).bump.startWait cl slot (.store e d (limitAt (s.pulse cl) lim) s.seq)))

/-- 12 R257, R258; 05 R105, R108: ATOM and ACAS on the thread's own window, of every scope and whatever is in flight:
with none of the scope's accesses, no acquire and no access of the bytes outstanding, the bytes at the address are
replaced by the result of the operation on the old value, in one step, and d becomes pending for the old value; a line
in error writes nothing and d's failure is on its way; behind outstanding accesses d becomes pending for the
operation, which waits for them, a scoped one as an acquire too, and is then performed in one step. -/
def Obligations.LocalAtomics : Prop :=
  (∀ (s : State) (c : Ctx) (b : BitVec 5) (z : BitVec 1) (w : BitVec 2) (cl off : Nat),
    let sz := if z.toNat = 0 then 4 else 8
    let pl : Place := .scratch cl off false
    let acc : Acc := scalarAcc 2 (c.t.getG b.toNat) sz (if w.toNat = 0 then [.localW, .peer, .global, .fabric] else [.localW, .peer, .global]) false
    let s1 := s.begin c
    let after := s1.scopeSet c.t.cl c.t.slot w.toNat ++ s1.accessWaits c.t pl sz
    let old := fromLE (s1.readAt c.t.rgn c.t.knum pl sz)
    let pend (x : State) (d : BitVec 5) : State := x.modThread c.t.cl c.t.slot (fun u => u.pend (.g d))
    let writes (i : Instr) (d : BitVec 5) (new : Option Nat) : Prop := s1.badAt c.t.rgn c.t.knum pl = none →
      exec i s = .next ((pend (match new with | some v => s1.writeAt c.t.rgn c.t.knum pl (leBytes sz v) | none => s1) d).addAct Config.atomLocal
        c.t.cl c.t.slot [] (.result (.g d) (BitVec.ofNat 64 old) none))
    let fails (i : Instr) (d : BitVec 5) : Prop := ∀ crc, s1.badAt c.t.rgn c.t.knum pl = some crc →
      exec i s = .next ((pend (s1.countRead c.r c.t.cl crc acc.ea) d).addAct Config.atomLocal c.t.cl c.t.slot []
        (.failed d (if crc then 457 else 456) acc.ea acc.i1 s.cur.words))
    let waits (i : Instr) (d : BitVec 5) (n : Nat) (x y : Word) : Prop := exec i s =
      .next ((s1.modThread c.t.cl c.t.slot (fun u =>
        if w.toNat = 0 then u.pend (.g d) else { u.pend (.g d) with acq := (u.pend (.g d)).acq ++ [s1.seq] })).addAct Config.atomLocal
        c.t.cl c.t.slot after (.atomic d pl sz n x y acc.ea acc.i1 s.cur.words))
    s.checkAccess c.t.cl c.f c.r s.cur.words acc = .ok pl →
    (∀ (d o : BitVec 5), s.issues c (.atom d b z w o) → o.toNat ≤ 8 →
      let x := (c.t.getG d.toNat).toNat % 2 ^ (8 * sz)
      let lt := sextNat (8 * sz) old < sextNat (8 * sz) x
      let new := [(old + x) % 2 ^ (8 * sz), old &&& x, old ||| x, old ^^^ x, if lt then old else x, if lt then x else old,
        Nat.min old x, Nat.max old x, x].getD o.toNat 0
      (after = [] → writes (.atom d b z w o) d (some new) ∧ fails (.atom d b z w o) d) ∧
      (after ≠ [] → waits (.atom d b z w o) d o.toNat (c.t.getG d.toNat) 0)) ∧
    (∀ d : BitVec 4, s.issues c (.acas d b z w) →
      let x := (c.t.getG (2 * d.toNat)).toNat % 2 ^ (8 * sz)
      let y := (c.t.getG (2 * d.toNat + 1)).toNat % 2 ^ (8 * sz)
      (after = [] → writes (.acas d b z w) (d ++ 0#1) (if old = x then some y else none) ∧ fails (.acas d b z w) (d ++ 0#1)) ∧
      (after ≠ [] → waits (.acas d b z w) (d ++ 0#1) 9 (c.t.getG (2 * d.toNat)) (c.t.getG (2 * d.toNat + 1))))) ∧
  ∀ (s : State) (id : Nat) (a : Act) (t : Thread) (d : BitVec 5) (pl : Place) (sz op : Nat) (x y ea i1 words : Word), s.act? id = some a →
    a.job = .atomic d pl sz op x y ea i1 words → s.thread? a.cl a.slot = some t → s.doneAll a.after = true → s.absent a = false →
    s.badAt t.rgn t.knum pl = none →
    let r := s.atomicAt t.rgn t.knum pl sz op x y
    r.1 = fromLE (s.readAt t.rgn t.knum pl sz) ∧
    exec (.resultWriteback id) s = .next ((r.2.modThread a.cl a.slot (fun u => u.deliver (.g d) (BitVec.ofNat 64 r.1))).dropAct id)

/-- 12 R260, R263, R264: FENCE with none of its scope's accesses outstanding goes on at once where the halves of the
latch that it reads are empty, whatever else is in flight; with a failure kept there it parks its thread at once with
the failure's cause and words, and that half is cleared (of two halves the earlier one: log 77); with some of its
scope outstanding its thread waits for them. ICINV.I leaves of the cluster's instruction cache the pins of its pinned
lines and no bytes, ICINV.C no line of its constant cache. No memory and no register changes. -/
def Obligations.FencesAndInvalidation : Prop :=
  ∀ (s : State) (c : Ctx),
    (∀ k : BitVec 3, s.issues c (.fence k) →
      let s1 := (if k.toNat = 0 then s.begin c else (s.begin c).fixLocal c.t.cl c.t.slot).seal c.t.cl c.t.slot
      let pc := if s.cur.pair then c.t.pc + 4 else c.t.pc
      let mem := 2 ≤ k.toNat ∧ c.t.errMem.n ≠ 0
      let fab := k.toNat = 4 ∧ c.t.errFab.n ≠ 0
      let words (h : ErrHalf) : Trap :=
        ⟨h.cause.toNat, h.i0, (h.i1 &&& 0x0000FFFFFFFFFFFF#64) ||| BitVec.ofNat 64 (h.n.toNat * 2 ^ 48), s.cur.words, h.i3⟩
      let traps (tr : Trap) (left : Thread → ErrHalf) : Prop := ∃ t u, exec (.fence k) s = .next t ∧ t.thread? c.t.cl c.t.slot = some u ∧
        u.wait = .parked ∧ u.pc = pc ∧ (left u).n = 0 ∧ (∀ r, u.getG r = c.t.getG r) ∧ u.p = c.t.p ∧ t.frames = s.frames ∧
        s.sameMemory t ∧ s.recorded t (s.parkRecord c.t pc tr)
      (s1.scopeSet c.t.cl c.t.slot k.toNat = [] →
        (¬ mem → ¬ fab → c.t.late = [] → ∃ t u, exec (.fence k) s = .next t ∧ t.thread? c.t.cl c.t.slot = some u ∧ u.wait = .none ∧
          u.pc = c.next s ∧ (∀ r, u.getG r = c.t.getG r) ∧ u.p = c.t.p ∧ s.sameMemory t) ∧
        (mem → (fab → c.t.errMem.ord ≤ c.t.errFab.ord) → traps (words c.t.errMem) Thread.errMem) ∧
        (fab → (mem → c.t.errFab.ord < c.t.errMem.ord) → traps (words c.t.errFab) Thread.errFab)) ∧
      (s1.scopeSet c.t.cl c.t.slot k.toNat ≠ [] →
        exec (.fence k) s = .next (s1.modThread c.t.cl c.t.slot (fun u =>
          { u with wait := .fence k.toNat (s1.scopeSet c.t.cl c.t.slot k.toNat) s.cur.words })))) ∧
    (s.issues c .icinvI → exec .icinvI s = .next ((s.begin c).modClu c.t.cl (fun x =>
      { x with icache := x.icache.filterMap (fun e => if e.2.2.1 then some (e.1, e.2.1, true, none) else none) }))) ∧
    (s.issues c .icinvC → exec .icinvC s = .next ((s.begin c).modClu c.t.cl (fun x => { x with ccache := [] })))

/-! ### Threads, semaphores and barriers (02 R24 to R41; 11 R233 to R248) -/

/-- 11 R234, R235; 03 R66: SPAWN sends its request (target, entry, four arguments, join, the parent's priority and
limits) and its thread waits for the queue's answer; SPAWNT sends it and leaves its predicate pending. -/
def Obligations.SpawnsSendTheirRequest : Prop :=
  ∀ (s : State) (c : Ctx) (d : BitVec 5) (a p : BitVec 3),
    let desc := c.t.getG d.toNat
    let req : SpawnReq := ⟨c.t.rgn, c.t.knum,
      if bitOf desc 8 then (s.begin c).resolveAny c.t.rgn c.t.knum c.f.set else field desc 0 8, field desc 9 3,
      [0, 1, 2, 3].map (fun k => c.t.getG (4 * a.toNat + k)),
      if bitOf desc 15 then some (field desc 24 8, field desc 16 8) else none, c.t.prio, c.t.swlim, c.t.spwlim, 0⟩
    (s.issues c (.spawn d a) → ∃ t x, exec (.spawn d a) s = .next t ∧ x ∈ t.acts ∧ x.id = s.seq ∧ x.job = .spawn req none ∧
      (∀ u, t.thread? c.t.cl c.t.slot = some u →
        u.wait = .spawn s.seq (limitAt (s.pulse c.t.cl) (c.t.limit c.t.spwlim)) ∧ u.pc = c.next s ∧
        (∀ r, u.getG r = c.t.getG r) ∧ u.p = c.t.p ∧ u.pendP = c.t.pendP) ∧ s.sameMemory t) ∧
    (s.issues c (.spawnt d a p) → ∃ t x, exec (.spawnt d a p) s = .next t ∧ x ∈ t.acts ∧ x.id = s.seq ∧ x.job = .spawn req (some p) ∧
      (∀ u, t.thread? c.t.cl c.t.slot = some u →
        u.wait = c.t.wait ∧ u.pendP.getLsbD p.toNat = true ∧ u.pc = c.next s ∧ (∀ r, u.getG r = c.t.getG r) ∧ u.p = c.t.p) ∧ s.sameMemory t)

/-- 11 R236 to R239; 02 R33, R34: QUIT begins to wait for its thread's pending work; SETPRI sets the priority, clamped
to the region's ceiling; RSHRINK sets the allotment and released registers read as zero; SLEEP waits for G[a] pulses
of its cluster, and fewer than eight are none. Nothing but the thread changes. -/
def Obligations.ThreadControl : Prop :=
  ∀ (s : State) (c : Ctx),
    (s.issues c .quit → c.t.late = [] → ∃ t u, exec .quit s = .next t ∧ t.thread? c.t.cl c.t.slot = some u ∧ u.wait = .quit ∧
      (∀ r, u.getG r = c.t.getG r) ∧ s.onlyThread t c.t.cl c.t.slot) ∧
    (∀ k : BitVec 3, s.issues c (.setpri k) →
      exec (.setpri k) s = .next (s.put c (fun u => { u with prio := BitVec.ofNat 3 (Nat.min k.toNat c.r.ceil) }))) ∧
    (∀ n : BitVec 2, s.issues c (.rshrink n) → c.t.g.length = 32 →
      ∃ t u, exec (.rshrink n) s = .next t ∧ t.thread? c.t.cl c.t.slot = some u ∧ u.allot = 8 * (n.toNat + 1) ∧
        (∀ r, u.getG r = if r < 8 * (n.toNat + 1) then c.t.getG r else 0) ∧ u.p = c.t.p ∧ u.pc = c.next s ∧
        s.onlyThread t c.t.cl c.t.slot ∧ s.sameMemory t) ∧
    (∀ a : BitVec 5, s.issues c (.sleep a) →
      exec (.sleep a) s = .next (if (c.t.getG a.toNat).toNat < 8 then s.begin c
        else s.put c (fun u => { u with wait := .sleep (s.pulse c.t.cl + (c.t.getG a.toNat).toNat) })))

/-- 02 R38; 11 R242, R243: SWAIT on a semaphore without poison whose count suffices takes the amount and its thread
goes on; one whose count does not suffice leaves the count and waits, to its limit in pulses; poison traps the waiter
with 4.0.3 and takes nothing. QWAIT tries semaphore 2e, then 2e + 1, and its predicate says which served it; it waits
where neither suffices, and poison of 2e, else of 2e + 1, traps it. -/
def Obligations.SemaphoreWaits : Prop :=
  ∀ (s : State) (c : Ctx) (d a : BitVec 5), c.t.late = [] →
    let n := (c.t.getG a.toNat).toNat
    let lim := c.t.getG d.toNat
    let limit := limitAt (s.pulse c.t.cl) lim.toNat
    let pc := if s.cur.pair then c.t.pc + 4 else c.t.pc
    let sem (t : State) (k : Nat) (v : Sem) : Prop := ∃ f, t.frame? c.t.cl c.t.rgn c.t.knum = some f ∧ f.sem k = v
    let goesOn (t : State) (p : BitVec 8) : Prop := ∃ u, t.thread? c.t.cl c.t.slot = some u ∧ u.wait = .none ∧ u.p = p ∧
      u.pc = c.next s ∧ (∀ r, u.getG r = c.t.getG r) ∧ u.pendG = c.t.pendG
    let waits (t : State) (w : Wait) : Prop := t.frames = s.frames ∧ ∃ u, t.thread? c.t.cl c.t.slot = some u ∧ u.wait = w ∧ u.p = c.t.p ∧
      u.pc = c.next s ∧ (∀ r, u.getG r = c.t.getG r) ∧ u.pendG = c.t.pendG
    let traps (t : State) (k : Nat) (v : Sem) : Prop := t.frames = s.frames ∧
      s.recorded t (s.parkRecord c.t pc ⟨259, BitVec.ofNat 64 (c.t.cl * 65536 + k), BitVec.ofNat 64 v.count.toNat, BitVec.ofNat 64 n, 0⟩) ∧
      ∃ u, t.thread? c.t.cl c.t.slot = some u ∧ u.wait = .parked ∧ u.p = c.t.p ∧ u.pc = pc ∧ (∀ r, u.getG r = c.t.getG r) ∧ u.pendG = c.t.pendG
    (∀ e : BitVec 8, s.issues c (.swait d a e) → e.toNat < c.f.sems.length →
      let v := c.f.sem e.toNat
      (v.poison = false → n ≤ v.count.toNat → ∃ t, exec (.swait d a e) s = .next t ∧ s.sameMemory t ∧
        sem t e.toNat { v with count := v.count - BitVec.ofNat 16 n } ∧ (∀ k, k ≠ e.toNat → sem t k (c.f.sem k)) ∧ goesOn t c.t.p) ∧
      (v.poison = false → v.count.toNat < n → ∃ t, exec (.swait d a e) s = .next t ∧ s.sameMemory t ∧ waits t (.sem e.toNat n lim limit s.seq)) ∧
      (v.poison = true → ∃ t, exec (.swait d a e) s = .next t ∧ s.sameMemory t ∧ traps t e.toNat v)) ∧
    (∀ (p : BitVec 3) (e : BitVec 7), s.issues c (.qwait d a p e) → 2 * e.toNat + 1 < c.f.sems.length →
      let v := c.f.sem (2 * e.toNat)
      let w := c.f.sem (2 * e.toNat + 1)
      (v.poison = false → w.poison = false → n ≤ v.count.toNat → ∃ t, exec (.qwait d a p e) s = .next t ∧ s.sameMemory t ∧
        sem t (2 * e.toNat) { v with count := v.count - BitVec.ofNat 16 n } ∧ (∀ k, k ≠ 2 * e.toNat → sem t k (c.f.sem k)) ∧
        goesOn t (setBit c.t.p p.toNat false)) ∧
      (v.poison = false → w.poison = false → v.count.toNat < n → n ≤ w.count.toNat → ∃ t, exec (.qwait d a p e) s = .next t ∧ s.sameMemory t ∧
        sem t (2 * e.toNat + 1) { w with count := w.count - BitVec.ofNat 16 n } ∧ (∀ k, k ≠ 2 * e.toNat + 1 → sem t k (c.f.sem k)) ∧
        goesOn t (setBit c.t.p p.toNat true)) ∧
      (v.poison = false → w.poison = false → v.count.toNat < n → w.count.toNat < n → ∃ t, exec (.qwait d a p e) s = .next t ∧ s.sameMemory t ∧
        waits t (.ring p (2 * e.toNat) n lim limit s.seq)) ∧
      (v.poison = true → ∃ t, exec (.qwait d a p e) s = .next t ∧ s.sameMemory t ∧ traps t (2 * e.toNat) v) ∧
      (v.poison = false → w.poison = true → ∃ t, exec (.qwait d a p e) s = .next t ∧ s.sameMemory t ∧ traps t (2 * e.toNat + 1) w))

/-- 11 R244 to R246: SSIG and SSIG.G send a signal of G[a] to the semaphore, SSIG.R and SSIG.G.R to the one of cluster
G[d], after the accesses of the release's scope; SSET sets count and poison and SPOIS the poison, after which the
semaphore serves its waiters, if it has any; SREAD and STRY leave their destination pending for the semaphore's value
and for its try. 02 R37: a signal adds its increment to the count; past 65,535 the count stays there and the semaphore
is poisoned; an increment of zero changes nothing; poison once set stays. 02 R38: a signal serves the waiters of its
semaphore in the order in which their waits began: the earlier one takes its amount where the count suffices, then the
later one what is left; one whose amount does not suffice goes on waiting and holds no later one up; under poison each
waiter parks and nothing is taken. -/
def Obligations.SemaphoreOperations : Prop :=
  (∀ (s : State) (c : Ctx) (d a : BitVec 5) (p : BitVec 3) (e : BitVec 8),
    let v := c.t.getG a.toNat
    let s1 := (s.begin c).fixLocal c.t.cl c.t.slot
    let sent (cl scope : Nat) : State :=
      s1.addAct (signalDelay c.t.cl cl) c.t.cl c.t.slot (s1.scopeSet c.t.cl c.t.slot scope) (.signal cl c.t.rgn c.t.knum e.toNat v true)
    let far := (c.t.getG d.toNat).toNat
    let served (x : State) : State := x.serve c.t.cl c.t.rgn c.t.knum e.toNat
    (s.issues c (.ssig a e) → exec (.ssig a e) s = .next (sent c.t.cl 1)) ∧
    (s.issues c (.ssigRemote d a e) → exec (.ssigRemote d a e) s = .next (sent far 1)) ∧
    (s.issues c (.ssigG a e) → exec (.ssigG a e) s = .next (sent c.t.cl 2)) ∧
    (s.issues c (.ssigGRemote d a e) → exec (.ssigGRemote d a e) s = .next (sent far (if dieOf c.t.cl = dieOf far then 2 else 3))) ∧
    (s.issues c (.sset a e) →
      exec (.sset a e) s = .next (served ((s.begin c).setSem c.t.cl c.t.rgn c.t.knum e.toNat ⟨v.extractLsb' 0 16, v.getLsbD 16⟩))) ∧
    (s.issues c (.sread d e) → exec (.sread d e) s =
      .next ((s.put c (fun u => u.pend (.g d))).addAct Config.semRead c.t.cl c.t.slot [] (.sread d e.toNat))) ∧
    (s.issues c (.stry a p e) → exec (.stry a p e) s =
      .next ((s.put c (fun u => { u.pend (.p p) with acq := u.acq ++ [s.seq] })).addAct Config.semRead c.t.cl c.t.slot
        ((s.begin c).ownSemOps c.t.cl c.t.slot e.toNat) (.stry p e.toNat v))) ∧
    (s.issues c (.spois e) →
      exec (.spois e) s = .next (served ((s.begin c).setSem c.t.cl c.t.rgn c.t.knum e.toNat { c.f.sem e.toNat with poison := true }))) ∧
    (∀ x : State, x.semWaiters c.t.cl c.t.rgn c.t.knum e.toNat = [] → served x = x)) ∧
  (∀ (s : State) (cl rgn knum k inc : Nat) (f : Frame), s.frame? cl rgn knum = some f → k < f.sems.length →
    s.semWaiters cl rgn knum k = [] →
    ∃ g, (s.signal cl rgn knum k inc).frame? cl rgn knum = some g ∧
      ((f.sem k).count.toNat + inc ≤ 65535 → (g.sem k).count.toNat = (f.sem k).count.toNat + inc ∧ (g.sem k).poison = (f.sem k).poison) ∧
      (65535 < (f.sem k).count.toNat + inc → 0 < inc → (g.sem k).count.toNat = 65535 ∧ (g.sem k).poison = true) ∧
      (∀ q, q ≠ k → g.sem q = f.sem q) ∧ (s.signal cl rgn knum k inc).threads = s.threads) ∧
  (∀ (s : State) (cl rgn knum k inc n m l1 l2 o1 o2 : Nat) (w1 w2 : Word) (f : Frame) (t u : Thread), s.frame? cl rgn knum = some f → k < f.sems.length →
    0 < inc → o1 < o2 → t.slot ≠ u.slot → s.thread? cl t.slot = some t → s.thread? cl u.slot = some u → t.late = [] → u.late = [] →
    t.wait = .sem k n w1 l1 o1 → u.wait = .sem k m w2 l2 o2 →
    (s.semWaiters cl rgn knum k = [(o1, t.slot), (o2, u.slot)] ∨ s.semWaiters cl rgn knum k = [(o2, u.slot), (o1, t.slot)]) →
    let x := s.signal cl rgn knum k inc
    let c := (f.sem k).count.toNat + inc
    let waits (a b : Wait) (left : Nat) : Prop := ∃ p q g, x.thread? cl t.slot = some p ∧ x.thread? cl u.slot = some q ∧ p.wait = a ∧ q.wait = b ∧
      x.frame? cl rgn knum = some g ∧ (g.sem k).count.toNat = left ∧ (g.sem k).poison = (f.sem k).poison ∧ ∀ j, j ≠ k → g.sem j = f.sem j
    ((f.sem k).poison = false → c ≤ 65535 →
      (n ≤ c → m ≤ c - n → waits .none .none (c - n - m)) ∧ (n ≤ c → c - n < m → waits .none u.wait (c - n)) ∧
      (c < n → m ≤ c → waits t.wait .none (c - m)) ∧ (c < n → c < m → waits t.wait u.wait c)) ∧
    ((f.sem k).poison = true → c ≤ 65535 → waits .parked .parked c))

/-- 02 R41; 11 R248: BARINIT sets N, clears the arrivals and keeps the phase. An arrival with none of the accesses
that SSIG would wait for outstanding counts at once: below N it counts, and the N-th clears the count and turns the
phase; behind outstanding ones it waits for them and then counts so (log 65). A thread whose arrival phase has passed
does not wait, one whose phase is current, or whose arrival is on its way, does; a BARSYNC that is issued again after
its limit makes no second arrival. -/
def Obligations.BarrierOperations : Prop :=
  (∀ (s : State) (c : Ctx) (a : BitVec 5) (b : BitVec 4), b.toNat < c.f.bars.length → b.toNat < 16 → c.t.wait = .none → c.t.late = [] →
    let v := c.f.bar b.toNat
    let lim := c.t.getG a.toNat
    let limit := limitAt (s.pulse c.t.cl) lim.toNat
    let bar (t : State) (w : Bar) : Prop := ∃ f, t.frame? c.t.cl c.t.rgn c.t.knum = some f ∧ f.bar b.toNat = w
    let thr (t : State) (P : Thread → Prop) : Prop := ∃ u, t.thread? c.t.cl c.t.slot = some u ∧ P u
    let s1 := (s.begin c).fixLocal c.t.cl c.t.slot
    let late := s.arriving c.t.cl c.t.slot b.toNat
    let held := s1.scopeSet c.t.cl c.t.slot 1 ≠ [] ∨ late = true
    let onItsWay (t : State) : Prop := bar t v ∧ ∃ x ∈ t.acts, x.id = s1.seq ∧ x.cl = c.t.cl ∧ x.slot = c.t.slot ∧
      x.job = .arrive c.t.rgn c.t.knum b.toNat ∧ (∀ k ∈ s1.scopeSet c.t.cl c.t.slot 1, k ∈ x.after) ∧ x.after ≠ []
    (s.issues c (.barinit a b) → ∃ t, exec (.barinit a b) s = .next t ∧ bar t ⟨true, lim.toNat, 0, v.phase⟩ ∧ s.sameMemory t) ∧
    (s.issues c (.barrive b) → ∃ t, exec (.barrive b) s = .next t ∧ s.sameMemory t ∧
      (¬ held → (v.counter + 1 ≠ v.n → bar t { v with counter := v.counter + 1 }) ∧
        (v.counter + 1 = v.n → bar t { v with counter := 0, phase := !v.phase }) ∧
        thr t (fun u => u.barph.getLsbD b.toNat = v.phase ∧ u.wait = .none ∧ u.pc = c.next s ∧ ∀ r, u.getG r = c.t.getG r)) ∧
      (held → onItsWay t ∧ thr t (fun u => u.barph = c.t.barph ∧ u.wait = .none ∧ u.pc = c.next s ∧ ∀ r, u.getG r = c.t.getG r))) ∧
    (s.issues c (.barwait a b) → ∃ t, exec (.barwait a b) s = .next t ∧ bar t v ∧ s.sameMemory t ∧
      (v.phase ≠ c.t.barph.getLsbD b.toNat → late = false → thr t (fun u => u.wait = .none)) ∧
      (v.phase = c.t.barph.getLsbD b.toNat ∨ late = true →
        thr t (fun u => u.wait = .bar b.toNat false lim limit s.seq))) ∧
    (s.issues c (.barsync a b) → c.t.bsarr = true → ∃ t, exec (.barsync a b) s = .next t ∧ bar t v ∧ s.sameMemory t ∧
      (v.phase ≠ c.t.barph.getLsbD b.toNat → late = false → thr t (fun u => u.wait = .none ∧ u.bsarr = false)) ∧
      (v.phase = c.t.barph.getLsbD b.toNat ∨ late = true →
        thr t (fun u => u.bsarr = false ∧ ∃ o, u.wait = .bar b.toNat true lim limit o))) ∧
    (s.issues c (.barsync a b) → c.t.bsarr = false → ∃ t, exec (.barsync a b) s = .next t ∧ s.sameMemory t ∧
      (¬ held → (v.counter + 1 = v.n → bar t { v with counter := 0, phase := !v.phase } ∧ thr t (fun u => u.wait = .none)) ∧
        (v.counter + 1 ≠ v.n → bar t { v with counter := v.counter + 1 } ∧
          thr t (fun u => u.barph.getLsbD b.toNat = v.phase ∧ ∃ o, u.wait = .bar b.toNat true lim limit o))) ∧
      (held → onItsWay t ∧ thr t (fun u => u.barph = c.t.barph ∧ ∃ o, u.wait = .bar b.toNat true lim limit o)))) ∧
  ∀ (s : State) (id : Nat) (a : Act) (rgn knum b : Nat) (f : Frame), s.act? id = some a → a.job = .arrive rgn knum b →
    s.frame? a.cl rgn knum = some f → b < f.bars.length →
    (s.doneAll a.after = false → exec (.semaphoreSignal id) s = .next s) ∧
    (s.doneAll a.after = true → ∃ t g, exec (.semaphoreSignal id) s = .next t ∧ t.frame? a.cl rgn knum = some g ∧ s.sameMemory t ∧
      g.bar b = (if (f.bar b).counter + 1 = (f.bar b).n then { f.bar b with counter := 0, phase := !(f.bar b).phase }
        else { f.bar b with counter := (f.bar b).counter + 1 }))

/-! ### Fabric operations at their source, vector instructions and engine commands -/

/-- 12 R266 to R270: RST, RLD, RATOM, RSIG and RSPAWN complete by entering the fabric port, where the region has a
fabric key: with the next SEQ of their stream, their path, address or descriptor and operands; RLD and RATOM leave d
pending. Without a key each traps with 6.6.0, and before that an address of RST, RLD or RATOM outside the fabric
window traps with 2.6.3 and a misaligned one with 2.6.5. FPATH sets the spray width. No byte of memory changes. -/
def Obligations.RemoteOperationsAreIssued : Prop :=
  (∀ (s : State) (c : Ctx) (d a : BitVec 5) (z : BitVec 2) (y f : BitVec 1) (o : BitVec 4) (g w : BitVec 3),
    let s1 := s.begin c
    let ad := c.t.getG a.toNat
    let v := c.t.getG d.toNat
    let asz := if y = 1 then 8 else 4
    let fails (cause sz kind : Nat) : State := s1.trapIssued c.t.cl c.t.slot ⟨cause, ad, BitVec.ofNat 64 (sz + 65536 * kind), s.cur.words, 0⟩
    let checked (i : Instr) (sz kind : Nat) (t : State) : Prop := s.issues c i →
      (bitOf ad 63 = true → ad.toNat % sz = 0 → exec i s = .next t) ∧ (bitOf ad 63 = false → exec i s = .next (fails 179 sz kind)) ∧
      (bitOf ad 63 = true → ad.toNat % sz ≠ 0 → exec i s = .next (fails 181 sz kind))
    checked (.rst d a z f) (2 ^ z.toNat) 1 (s1.fabricOp c none (remoteOf 0 ad v 0 z.toNat (2 ^ z.toNat) false 0 (f == 1))) ∧
    checked (.rld d a z) (2 ^ z.toNat) 0 (s1.fabricOp c (some (.g d)) (remoteOf 1 ad 0 0 z.toNat (2 ^ z.toNat) false d false)) ∧
    checked (.ratom d a y o f) asz 2 (s1.fabricOp c (some (.g d)) (remoteOf 2 ad v (c.t.getG (d.toNat + 1)) o.toNat asz false d (f == 1))) ∧
    (s.issues c (.rsig d a f) → exec (.rsig d a f) s = .next (s1.fabricOp c none (remoteOf 3 ad v 0 0 8 false 0 (f == 1)))) ∧
    (s.issues c (.rspawn d g) → exec (.rspawn d g) s = .next (s1.fabricOp c none { remoteOf 4 v 0 0 0 8 false 0 false with
      args := [0, 1, 2, 3].map (fun k => c.t.getG (4 * g.toNat + k)) ++ [c.t.prio.setWidth 64, c.t.swlim.setWidth 64, c.t.spwlim.setWidth 64] })) ∧
    (s.issues c (.fpath w) → exec (.fpath w) s = .next (s.put c (fun u => { u with wcode := w })))) ∧
  ∀ (s : State) (c : Ctx) (dst : Option Dst) (r : Remote),
    let t := s.fabricOp c dst r
    let st := s.stream c.t.rgn c.t.cl c.t.slot r.target
    s.sameMemory t ∧
    (c.r.fkey = 0 → t = s.trapIssued c.t.cl c.t.slot ⟨432, if r.opc = 4 then nth r.args 0 0 else r.addr, 0, s.cur.words, 0⟩) ∧
    (c.r.fkey ≠ 0 → t.cmds = s.cmds ∧
      (∃ due cyc, t.acts = s.acts ++ [⟨s.seq, due, c.t.cl, c.t.slot, s.openAcq c.t, .remote { r with
        seq := st.next, path := st.next.toNat % 2 ^ c.t.wcode.toNat, bundle := c.bpc, rgn := c.t.rgn, knum := c.t.knum, prio := c.t.prio,
        since := s.pulse c.t.cl, tag := nth c.t.seqs 3 0, fkey := c.r.fkey }, cyc⟩]) ∧
      (t.stream c.t.rgn c.t.cl c.t.slot r.target).next = st.next + 1 ∧
      ∀ u, s.thread? c.t.cl c.t.slot = some u → ∃ q, t.thread? c.t.cl c.t.slot = some q ∧ (∀ k, q.getG k = u.getG k) ∧ q.p = u.p ∧ q.pc = u.pc ∧
        u.keepsSpecial q ∧ q.pendG = (match dst with | some (.g k) => (u.pend (.g k)).pendG | _ => u.pendG))

/-- 13 R278, R281, R286 to R289: the vector memory instructions and VSIG enter the vector port with the values they
captured. 13 R278, R290 to R301: the instructions that compute in the vector engine enter its port with the values
they captured; those that write a general register leave it pending. -/
def Obligations.VectorInstructionsAreIssued : Prop :=
  (∀ (d a b : BitVec 5) (m : BitVec 3) (k : BitVec 2) (e : BitVec 8),
    entersVector (.vld d a m k) k.toNat (fun t => t.getG a.toNat) (fun _ => 0) none ∧
    entersVector (.vlds d a b m k) k.toNat (fun t => t.getG a.toNat) (fun t => t.getG b.toNat) none ∧
    entersVector (.vldx d a b m k) k.toNat (fun t => t.getG a.toNat) (fun _ => 0) none ∧
    entersVector (.vldt d a m k) k.toNat (fun t => t.getG a.toNat) (fun _ => 0) none ∧
    entersVector (.vst d a m k) k.toNat (fun t => t.getG a.toNat) (fun _ => 0) none ∧
    entersVector (.vsts d a b m k) k.toNat (fun t => t.getG a.toNat) (fun t => t.getG b.toNat) none ∧
    entersVector (.vstx d a b m k) k.toNat (fun t => t.getG a.toNat) (fun _ => 0) none ∧
    entersVector (.vsig e k) 0 (fun _ => 0) (fun _ => 0) none) ∧
  (∀ (d a b t : BitVec 5) (m k o p : BitVec 3) (r q : BitVec 1),
    let z : Thread → Word := fun _ => 0
    let plain (i : Instr) : Prop := entersVector i 0 z z none
    (∀ i ∈ [Instr.vadd d a b m, .vsub d a b m, .vmul d a b m, .vfma d a b m, .vfms d a b m, .vfnma d a b m, .vmin d a b m, .vmax d a b m,
      .vabs d a m, .vneg d a m, .vclass d a m], plain i) ∧
    (∀ i ∈ [Instr.viadd d a b m, .visub d a b m, .vimul d a b m, .vimad d a b m, .vimin d a b m, .vimax d a b m, .vand d a b m, .vor d a b m,
      .vxor d a b m, .vshl d a b m, .vshr d a b m, .vsra d a b m], plain i) ∧
    (∀ i ∈ [Instr.vexp2 d a m, .vlog2 d a m, .vrcp d a m, .vrsq d a m, .vsqrt d a m, .vtanh d a m], plain i) ∧
    (∀ i ∈ [Instr.vcvt d a t m r q, .vqnt d a b m r o, .vdq d a b m o, .vrseed a b m, .vrng d m, .vred d a m o, .vscan d a m o], plain i) ∧
    (∀ i ∈ [Instr.vperm d a b m, .vshuf d a b m, .vcmp k a b m o, .vicmp k a b m o, .vsel d a b m, .vmlog k o p m, .viota d m], plain i) ∧
    entersVector (.vrot d a b m) 0 z (fun t => t.getG b.toNat) none ∧ entersVector (.vbcast d a m) 0 (fun t => t.getG a.toNat) z none ∧
    entersVector (.vmovsToV d a) 0 (fun t => t.getG a.toNat) z none ∧ entersVector (.vmovsToG d a) 0 z z (some d) ∧
    entersVector (.vext d a b) 0 z (fun t => t.getG b.toNat) (some d) ∧ entersVector (.vmpop d k) 0 z z (some d))

/-- 13 R276, R281: VSETVL sets VTYPE, the group and VL = min(G[a], VLMAX) and writes VL to d; VWAIT goes on with no
vector instruction of its thread unretired, and waits with one. -/
def Obligations.VectorLengthAndWait : Prop :=
  ∀ (s : State) (c : Ctx),
    (∀ (d a : BitVec 5) (t : BitVec 4) (g : BitVec 2), s.issues c (.vsetvl d a t g) → t.toNat ≤ 7 →
      let vlmax := 4096 / [4, 2, 2, 1, 1, 4, 2, 1].getD t.toNat 1 * 2 ^ g.toNat
      let vl := Nat.min (c.t.getG a.toNat).toNat vlmax
      ∃ n u, exec (.vsetvl d a t g) s = .next n ∧ n.thread? c.t.cl c.t.slot = some u ∧ u.vtype = t ∧ u.grp = g ∧ u.vl = vl ∧
        (∀ r, u.getG r = if r = d.toNat ∧ r ≠ 0 ∧ r < c.t.g.length then BitVec.ofNat 64 vl else c.t.getG r) ∧ u.p = c.t.p ∧
        u.v = c.t.v ∧ u.m = c.t.m ∧ u.vfcsr = c.t.vfcsr ∧ u.pc = c.next s ∧ s.onlyThread n c.t.cl c.t.slot ∧ s.sameMemory n) ∧
    (s.issues c .vwait →
      exec .vwait s = .next (if (s.begin c).unretired c.t.cl c.t.slot = 0 then s.begin c else s.put c (fun u => { u with wait := .vwait })))

/-- 13 R275, R279, R290 to R301: what a vector computation leaves (that a started command has this effect is said at
VectorCommandTakesEffect). Integer instructions: each active element below VL modulo 2^(8w), every other element of
the destination group as it was. Floating point (06 R123 to R127, R131): the exact sum, product or fused sum of the
operands' values rounded once under VFCSR, the canonical NaN where an operand is one, the infinities' cases, with the
flags charged to the element; VMIN and VMAX keep an operand's bits, with -0 below +0; VABS, VNEG, VCLASS. Moves,
permutations and masks: the element or value that the instruction names, the answers of VMOVS, VEXT and VMPOP, the
mask bits of VCMP, VICMP and VMLOG with the others kept and m0 keeping none; VRNG and VRSEED on one register of 32-bit
elements. Functions (R132): the table at the special operands, and 1/x, the roots, whole powers of two and their
logarithms rounded once from the exact value (an irrational one from its digits and a sticky part). VCVT (R133 to
R135) rounds into the target format or to an integer, with saturation; VRED and VSCAN (R146, R147) the root of the
tree, with sums, minima and maxima of integers, and prefix sums; VDQ and VQNT (R138 to R142) block values, and codes
under the scale of the largest magnitude, for the formats of one element code. -/
def Obligations.IntegerElementsAndInactiveOnes : Prop :=
  (∀ (c : Captured) (t : Thread) (d a b : BitVec 5) (m : BitVec 3) (i : Nat),
    c.vl ≤ c.vlmax → i < c.vlmax → d.toNat + c.g ≤ t.v.length →
    let w := c.w
    let el (u : Thread) (r : BitVec 5) (k : Nat) : Nat := elemAt (vget u.v r.toNat c.g) w k
    let active := i < c.vl ∧ (t.getM m.toNat).getLsbD i = true
    let x := el t a i
    let y := el t b i
    let res (u : Thread) (v : Nat) : Prop := el u d i = if active then v % 2 ^ (8 * w) else el t d i
    let n := y % (8 * w)
    let run (j : Instr) : Thread := (vecCompute { c with instr := j } t).t
    res (run (.vimad d a b m)) (el t d i + x * y) ∧ res (run (.vshl d a b m)) (x * 2 ^ n) ∧ res (run (.vshr d a b m)) (x / 2 ^ n) ∧
    res (run (.vsra d a b m)) ((sextNat (8 * w) x / 2 ^ n % 2 ^ (8 * w) : Int).toNat) ∧
    res (run (.viadd d a b m)) (x + y) ∧ res (run (.visub d a b m)) (x + (2 ^ (8 * w) - y)) ∧ res (run (.vimul d a b m)) (x * y) ∧
    res (run (.vand d a b m)) (x &&& y) ∧ res (run (.vor d a b m)) (x ||| y) ∧ res (run (.vxor d a b m)) (x ^^^ y) ∧
    res (run (.vimin d a b m)) (if sextNat (8 * w) x < sextNat (8 * w) y then x else y) ∧
    res (run (.vimax d a b m)) (if sextNat (8 * w) x < sextNat (8 * w) y then y else x)) ∧
  (∀ (c : Captured) (t : Thread) (d a b : BitVec 5) (m : BitVec 3) (i : Nat), c.vl ≤ c.vlmax → i < c.vlmax → d.toNat + c.g ≤ t.v.length →
    let run (j : Instr) : VRes := vecCompute { c with instr := j } t
    let el (u : Thread) (r : BitVec 5) : Nat := elemAt (vget u.v r.toNat c.g) c.w i
    let active := i < c.vl ∧ (t.getM m.toNat).getLsbD i = true
    let leaves (j : Instr) (v : Nat) : Prop := el (run j).t d = if active then v % 2 ^ (8 * c.w) else el t d
    let out (j : Instr) (r : Nat × Fl) : Prop := leaves j r.1 ∧ ∀ g, (i, g) ∈ (run j).fl ↔ active ∧ g = r.2 ∧ r.2 ≠ 0
    let x := el t a
    let y := el t b
    let bits := 8 * c.w
    let round (n : Bool) (k : Nat) (e : Int) : Nat × Fl := roundTo c.fmt c.rm false c.ftz n k e false
    let nv (l : List Val) : Fl := if l.any Val.isSig then flNV else 0
    let sum (j : Instr) (p : Bool) (k : Nat) (e : Int) (q : Bool) (k' : Nat) (e' : Int) : Prop :=
      let lo := if e ≤ e' then e else e'
      ∃ n r, out j (round n r lo) ∧ atExp n r 0 0 = atExp p k e lo + atExp q k' e' lo ∧ (r = 0 → n = if p = q then p else decide (c.rm = .rd))
    (∀ n1 k1 e1 n2 k2 e2, c.val x = .fin n1 k1 e1 → c.val y = .fin n2 k2 e2 →
      sum (.vadd d a b m) n1 k1 e1 n2 k2 e2 ∧ sum (.vsub d a b m) n1 k1 e1 (!n2) k2 e2 ∧
      out (.vmul d a b m) (round (n1 != n2) (k1 * k2) (e1 + e2)) ∧
      ∀ n3 k3 e3, c.val (el t d) = .fin n3 k3 e3 →
        sum (.vfma d a b m) (n1 != n2) (k1 * k2) (e1 + e2) n3 k3 e3 ∧ sum (.vfms d a b m) (n1 != n2) (k1 * k2) (e1 + e2) (!n3) k3 e3 ∧
        sum (.vfnma d a b m) (!(n1 != n2)) (k1 * k2) (e1 + e2) n3 k3 e3) ∧
    ((c.val x).isNan = true ∨ (c.val y).isNan = true →
      (∀ j ∈ [Instr.vadd d a b m, .vsub d a b m, .vmul d a b m], out j (canonNan c.fmt, nv [c.val x, c.val y])) ∧
      ∀ j ∈ [Instr.vfma d a b m, .vfms d a b m, .vfnma d a b m], leaves j (canonNan c.fmt)) ∧
    ((c.val (el t d)).isNan = true → ∀ j ∈ [Instr.vfma d a b m, .vfms d a b m, .vfnma d a b m], leaves j (canonNan c.fmt)) ∧
    (∀ p q, c.val x = .inf p → c.val y = .inf q → out (.vmul d a b m) (infCode c.fmt (p != q), 0) ∧
      out (.vadd d a b m) (if p = q then (infCode c.fmt p, 0) else (canonNan c.fmt, flNV)) ∧
      out (.vsub d a b m) (if p = q then (canonNan c.fmt, flNV) else (infCode c.fmt p, 0))) ∧
    (∀ p n k e, c.val x = .inf p → c.val y = .fin n k e → out (.vadd d a b m) (infCode c.fmt p, 0) ∧ out (.vsub d a b m) (infCode c.fmt p, 0) ∧
      out (.vmul d a b m) (if k = 0 then (canonNan c.fmt, flNV) else (infCode c.fmt (p != n), 0))) ∧
    (let u := decodeF c.fmt x
     let v := decodeF c.fmt y
     (u.isNan = true → v.isNan = true → out (.vmin d a b m) (canonNan c.fmt, nv [u, v]) ∧ out (.vmax d a b m) (canonNan c.fmt, nv [u, v])) ∧
     (u.isNan = true → v.isNan = false → out (.vmin d a b m) (y, nv [u]) ∧ out (.vmax d a b m) (y, nv [u])) ∧
     (u.isNan = false → v.isNan = true → out (.vmin d a b m) (x, nv [v]) ∧ out (.vmax d a b m) (x, nv [v])) ∧
     (u.isNan = false → v.isNan = false →
       (cmpVal u v < 0 ∨ cmpVal u v = 0 ∧ u.sign = true ∧ v.sign = false → out (.vmin d a b m) (x, 0) ∧ out (.vmax d a b m) (y, 0)) ∧
       (0 < cmpVal u v ∨ cmpVal u v = 0 ∧ u.sign = false ∧ v.sign = true → out (.vmin d a b m) (y, 0) ∧ out (.vmax d a b m) (x, 0)))) ∧
    out (.vabs d a m) (x % 2 ^ (bits - 1), 0) ∧ out (.vneg d a m) ((x + 2 ^ (bits - 1)) % 2 ^ bits, 0) ∧
    out (.vclass d a m) (match decodeF c.fmt x with
      | .inf n => if n then 1 else 128
      | .nan s => if s then 256 else 512
      | .fin n k _ => if k = 0 then (if n then 8 else 16)
          else if x / 2 ^ c.fmt.mb % 2 ^ c.fmt.eb = 0 then (if n then 4 else 32) else (if n then 2 else 64), 0)) ∧
  (∀ (c : Captured) (t : Thread) (d a b : BitVec 5) (m : BitVec 3) (i : Nat), c.vl ≤ c.vlmax → i < c.vlmax → d.toNat + c.g ≤ t.v.length →
    let run (j : Instr) : VRes := vecCompute { c with instr := j } t
    let elem (u : Thread) (r : BitVec 5) (k : Nat) : Nat := elemAt (vget u.v r.toNat c.g) c.w k
    let bit (k : Nat) (j : Nat) : Bool := (t.getM k).getLsbD j
    let active := i < c.vl ∧ bit m.toNat i = true
    let out (j : Instr) (v : Nat) : Prop := elem (run j).t d i = (if active then v % 2 ^ (8 * c.w) else elem t d i) ∧ (run j).fl = [] ∧ (run j).res = none
    let answers (j : Instr) (v : Nat) : Prop := run j = { t := t, fl := [], out := [], res := some (BitVec.ofNat 64 v) }
    out (.vbcast d a m) c.ga.toNat ∧ out (.viota d m) i ∧
    out (.vperm d a b m) (if elem t b i < c.vlmax then elem t a (elem t b i) else 0) ∧
    out (.vrot d a b m) (elem t a ((i + c.gb.toNat) % c.vl)) ∧
    out (.vshuf d a b m) (elem t (if i % 2 = 0 then a else b) (i / 2)) ∧
    elem (run (.vsel d a b m)).t d i = (if i < c.vl then elem t (if bit m.toNat i then a else b) i else elem t d i) ∧
    elem (run (.vmovsToV d a)).t d i = (if i = 0 then c.ga.toNat % 2 ^ (8 * c.w) else elem t d i) ∧
    answers (.vmovsToG d a) (elem t a 0) ∧ answers (.vext d a b) (if c.gb.toNat < c.vlmax then elem t a c.gb.toNat else 0) ∧
    answers (.vmpop d m) ((List.range c.vl).filter (fun j => bit m.toNat j)).length ∧
    (∀ (e k o : BitVec 3), e ≠ 0 → e.toNat < t.m.length →
      let mask (j : Instr) (p : Prop) (v : Bool) : Prop :=
        (p → ((run j).t.getM e.toNat).getLsbD i = v) ∧ (¬ p → ((run j).t.getM e.toNat).getLsbD i = bit e.toNat i) ∧
        ∀ q, q ≠ e.toNat → (run j).t.getM q = t.getM q
      let x := elem t a i
      let y := elem t b i
      let u := decodeF c.fmt x
      let v := decodeF c.fmt y
      let s (z : Nat) : Int := if z < 2 ^ (8 * c.w - 1) then z else (z : Int) - 2 ^ (8 * c.w)
      mask (.vcmp e a b m k) active (if u.isNan || v.isNan then k == 1 || k == 6
        else [decide (cmpVal u v = 0), decide (cmpVal u v ≠ 0), decide (cmpVal u v < 0), decide (cmpVal u v ≤ 0), decide (0 < cmpVal u v),
          decide (0 ≤ cmpVal u v), false, true].getD k.toNat false) ∧
      mask (.vicmp e a b m k) active ([decide (x = y), decide (x ≠ y), decide (s x < s y), decide (s x ≤ s y), decide (x < y), decide (x ≤ y),
        decide (s y < s x), decide (y < x)].getD k.toNat false) ∧
      (i < 16384 → o.toNat < 6 → mask (.vmlog e m k o) (i < c.vl) (let p := bit m.toNat i
        let q := bit k.toNat i
        [p && q, p || q, p ^^ q, p && !q, p || !q, !p].getD o.toNat false))) ∧
    (∀ k o : BitVec 3, (run (.vcmp 0 a b m k)).t = t ∧ (run (.vicmp 0 a b m k)).t = t ∧ (run (.vmlog 0 m k o)).t = t) ∧
    (c.w = 4 → c.g = 1 → i < 1024 →
      let lane (r : VReg) : Nat := elemAt r.toNat 4 i
      let u := (run (.vrng d m)).t
      out (.vrng d m) (rng (BitVec.ofNat 32 (lane t.key)) (BitVec.ofNat 32 (lane t.ctr))).toNat ∧ u.key = t.key ∧
      lane u.ctr = (if active then (lane t.ctr + 1) % 2 ^ 32 else lane t.ctr) ∧
      let z := (run (.vrseed a b m)).t
      lane z.key = (if active then elem t a i else lane t.key) ∧ lane z.ctr = (if active then elem t b i else lane t.ctr) ∧ z.v = t.v)) ∧
  (∀ (c : Captured) (t : Thread) (d a b : BitVec 5) (m : BitVec 3) (i : Nat), c.vl ≤ c.vlmax → i < c.vlmax → d.toNat + c.g ≤ t.v.length →
    let run (j : Instr) : VRes := vecCompute { c with instr := j } t
    let elem (u : Thread) (r : BitVec 5) (k : Nat) : Nat := elemAt (vget u.v r.toNat c.g) c.w k
    let on (k : Nat) : Bool := decide (k < c.vl) && (t.getM m.toNat).getLsbD k
    let out (j : Instr) (r : Nat × Fl) : Prop := elem (run j).t d i = (if on i then r.1 % 2 ^ (8 * c.w) else elem t d i) ∧
      ∀ g, (i, g) ∈ (run j).fl ↔ on i = true ∧ g = r.2 ∧ r.2 ≠ 0
    let round (n : Bool) (k : Nat) (e : Int) (sticky : Bool) : Nat × Fl := roundTo c.fmt c.rm false c.ftz n k e sticky
    let x := elem t a i
    let nan := canonNan c.fmt
    let inf (n : Bool) : Nat := infCode c.fmt n
    let zero (n : Bool) : Nat := if n then 2 ^ (c.fmt.mb + c.fmt.eb) else 0
    let one (n : Bool) : Nat := zero n + c.fmt.bias * 2 ^ c.fmt.mb
    let each (l : List (Nat × Fl)) : Prop := ∀ (k : Nat) (r : Nat × Fl), l[k]? = some r →
      ∀ j, [Instr.vexp2 d a m, .vlog2 d a m, .vrcp d a m, .vrsq d a m, .vsqrt d a m, .vtanh d a m][k]? = some j → out j r
    (∀ s, c.val x = .nan s → each (List.replicate 6 (nan, if s then flNV else 0))) ∧
    (c.val x = .inf false → each [(inf false, 0), (inf false, 0), (zero false, 0), (zero false, 0), (inf false, 0), (one false, 0)]) ∧
    (c.val x = .inf true → each [(0, 0), (nan, flNV), (zero true, 0), (nan, flNV), (nan, flNV), (one true, 0)]) ∧
    (∀ n e, c.val x = .fin n 0 e → each [(one false, 0), (inf true, flDZ), (inf n, flDZ), (inf n, flDZ), (zero n, 0), (zero n, 0)]) ∧
    (∀ n k e, c.val x = .fin n k e → k ≠ 0 →
      (n = true → out (.vlog2 d a m) (nan, flNV) ∧ out (.vrsq d a m) (nan, flNV) ∧ out (.vsqrt d a m) (nan, flNV)) ∧
      (∃ j r : Nat, r = 2 ^ j / k ∧ 2 ^ 63 ≤ r ∧ out (.vrcp d a m) (round n r (-e - j) (decide (2 ^ j % k ≠ 0)))) ∧
      (n = false → ∃ j r : Nat, ∃ h : Int, r * r ≤ k * 2 ^ j ∧ k * 2 ^ j < (r + 1) * (r + 1) ∧ 2 ^ 64 ≤ r ∧ 2 * h = e - j ∧
        out (.vsqrt d a m) (round false r h (decide (r * r ≠ k * 2 ^ j)))) ∧
      (n = false → ∃ j o r : Nat, ∃ h : Int, r * r * (k * 2 ^ o) ≤ 2 ^ (2 * j) ∧ 2 ^ (2 * j) < (r + 1) * (r + 1) * (k * 2 ^ o) ∧ 2 ^ 32 ≤ r ∧
        2 * h = o - e ∧ out (.vrsq d a m) (round false r (h - j) (decide (r * r * (k * 2 ^ o) ≠ 2 ^ (2 * j))))) ∧
      (∀ j : Nat, k = 2 ^ j → n = false → out (.vlog2 d a m) (round (decide ((j : Int) + e < 0)) ((j : Int) + e).natAbs 0 false)) ∧
      (0 ≤ e → k * 2 ^ e.toNat ≤ 2 ^ 20 → out (.vexp2 d a m) (round false 1 (atExp n k e 0) false))) ∧
    (∀ (w : BitVec 5) (r s : BitVec 1), w.toNat ≤ 5 → c.ty ≤ 5 → d.toNat + (c.g * typeW w.toNat + c.w - 1) / c.w ≤ t.v.length →
      let n := (c.g * typeW w.toNat + c.w - 1) / c.w
      let wide (u : Thread) : Nat := elemAt (vget u.v d.toNat n) (typeW w.toNat) i
      let sat := s == 1
      let f := fmtOf w.toNat
      let cvt (v : Nat) : Prop := wide (run (.vcvt d a w m r s)).t = if on i then v else wide t
      (on i = false → cvt 0) ∧
      (w.toNat ≠ 5 → c.ty ≠ 5 → r = 0 → match decodeF c.fmt x with
        | .nan _ => cvt (canonNan f)
        | .inf p => cvt (if sat then maxCode f p else if f.hasInf then infCode f p else canonNan f)
        | .fin p k e => cvt (roundTo f c.rm sat false p k e false).1) ∧
      (w.toNat ≠ 5 → c.ty = 5 → cvt (let z : Int := if sat ∨ x < 2 ^ 31 then x else (x : Int) - 2 ^ 32
        (roundTo f c.rm false false (decide (z < 0)) z.natAbs 0 false).1)) ∧
      (w.toNat = 5 → ∀ p k e, decodeF c.fmt x = .fin p k e → c.ty ≠ 5 →
        let z : Int := atExp p (roundUnits c.rm p k e 0).1 0 0
        let lo : Int := if sat then 0 else -(2 ^ 31)
        let hi : Int := if sat then 2 ^ 32 - 1 else 2 ^ 31 - 1
        cvt ((if z < lo then lo else if hi < z then hi else z) % 2 ^ 32).toNat)) ∧
    (c.w = 4 → ∀ o : BitVec 3,
      let red := elem (run (.vred d a m o)).t d
      let acts := (List.range c.vl).filter on
      let s (z : Nat) : Int := if z < 2 ^ 31 then z else (z : Int) - 2 ^ 32
      red i = (if i = 0 then red 0 else elem t d i) ∧
      (o = 3 → red 0 = (acts.map (elem t a)).sum % 2 ^ 32) ∧
      (o = 4 → acts ≠ [] → (∃ k ∈ acts, red 0 = elem t a k) ∧ ∀ k ∈ acts, s (red 0) ≤ s (elem t a k)) ∧
      (o = 5 → acts ≠ [] → (∃ k ∈ acts, red 0 = elem t a k) ∧ ∀ k ∈ acts, s (elem t a k) ≤ s (red 0)) ∧
      (o.toNat < 6 → acts = [] → red 0 = [0, 0x7F800000, 0xFF800000, 0, 0x7FFFFFFF, 0x80000000].getD o.toNat 0) ∧
      (∀ node : Nat → Nat → Option Nat, o.toNat < 6 → acts ≠ [] → (∀ k, node 0 k = if on k then some (elem t a k) else none) →
        (∀ n k, node (n + 1) k = match node n (2 * k), node n (2 * k + 1) with
          | some p, some q => some (redOp c o.toNat p q).1
          | some p, none | none, some p => some (passNan o.toNat p).1
          | none, none => none) →
        node (10 + c.grp.toNat) 0 = some (red 0)) ∧
      (o = 3 → on i = true → elem (run (.vscan d a m o)).t d i = (((List.range (i + 1)).filter on).map (elem t a)).sum % 2 ^ 32) ∧
      (on i = false → elem (run (.vscan d a m o)).t d i = elem t d i)) ∧
    ∀ f : BitVec 3, f.toNat < 3 →
      let per := if f = 2 then 4 else 8
      let plane (u : Thread) (r : BitVec 5) (n w k : Nat) : Nat := vget u.v r.toNat n / 2 ^ (w * k) % 2 ^ w
      let ne := planeSpan c.vlmax (planeEP f.toNat)
      let ns := planeSpan c.vlmax (planeSP f.toNat)
      let code := plane t a ne per i
      let scale := plane t b ns 8 (i / 32)
      (elem (run (.vdq d a b m f)).t d i = if on i then (if scale = 255 then nan else match decodeF (blockFmt f.toNat) code with
        | .nan _ => nan
        | .inf p => inf p
        | .fin p k e => (roundTo c.fmt c.rm false false p k (e + scale - 127) false).1) % 2 ^ (8 * c.w) else elem t d i) ∧
      ∀ q : BitVec 1, d.toNat + ne ≤ t.v.length → b.toNat + ns ≤ t.v.length → (b.toNat + ns ≤ d.toNat ∨ d.toNat + ne ≤ b.toNat) →
        let u := (run (.vqnt d a b m q f)).t
        let vs := (List.range 32).map (fun j => if i / 32 * 32 + j < c.vl then decodeF c.fmt (elem t a (i / 32 * 32 + j)) else .fin false 0 0)
        (∀ v ∈ vs, ∃ p k e, v = .fin p k e) → on i = true →
        let big := (vs.map Val.mag).foldl maxMag (0, 0)
        let ex := clampE (if big.1 = 0 then -127 else (Nat.log2 big.1 : Int) + big.2 - [8, 15, 2].getD f.toNat 0)
        plane u b ns 8 (i / 32) = (ex + 127).toNat ∧
        ∀ p k e, decodeF c.fmt x = .fin p k e → plane u d ne per i = (roundTo (blockFmt f.toNat) .rne true false p k (e - ex) false).1)

/-- 03 R60, R61; 14 R302: the commands of the matrix, copy and batcher engines enter their port queue with the group
registers that they use; MSTAT, CBNEXT and CBSTAT leave their base register pending. -/
def Obligations.EngineCommandsAreIssued : Prop :=
  ∀ (b : BitVec 3) (e : BitVec 8) (i : BitVec 2) (t : BitVec 3),
    entersPort (.mclr b e i) .matrix b [0] false ∧ entersPort (.mmode b e i) .matrix b [0, 1] false ∧
    entersPort (.mrnm b e i) .matrix b [0, 1] false ∧ entersPort (.msave b e i) .matrix b [0, 1] false ∧
    entersPort (.mload b e i) .matrix b [0, 1] false ∧ entersPort (.mhdr b e i) .matrix b [0, 1] false ∧
    entersPort (.mstat b) .matrix b [0] true ∧ entersPort (.mdrain b e i) .matrix b [0, 1, 2] false ∧
    entersPort (.mpass b e i t) .matrix b [0, 1, 2, 3] false ∧ entersPort (.mpassh b e i t) .matrix b [0, 1, 2, 3] false ∧
    entersPort (.cpy b e i) .copy b [0, 1, 2, 3] false ∧ entersPort (.cpyx b e i) .copy b [0, 1, 2, 3] false ∧
    entersPort (.cpym b e i) .copy b [0, 1, 2, 3] false ∧ entersPort (.cpyf b e i) .copy b [0, 1, 2, 3] false ∧
    entersPort (.cbcfg b e i) .batcher b [0, 1, 2] false ∧ entersPort (.cbpush b e i) .batcher b [0, 1] false ∧
    entersPort (.cbnext b) .batcher b [] true ∧ entersPort (.cbdone b e i) .batcher b [0] false ∧ entersPort (.cbstat b) .batcher b [] true

/-! ### System, context and bind instructions (14 R321 to R333) -/

/-- 14 R321 to R325; 03 R59: SYSR writes the register's value to d and changes nothing else, but that a read of
NEWELSTAT clears MAXW. CYC is the count of its cluster's pulses, and every other register of R322 reads as its field
map says: IPAT shows the pattern that waits for a rotation boundary, PSSTAT the voltage in steps of 5 mV. 14 R321 to
R323; 12 R272; 24 R433, R438; 19 R372: SYSW writes its register under the register's map where the level may write it,
and is ignored where the level only reads it; the paths that the pulse of a write of FPCNT counts follow the write;
IPAT, PSREQ and RGNCTL take the value under their own rules: a pattern of fewer than four ones is ignored, and another
waits for the rotation boundary; the state that a pair goes to is the higher number of the request and its cap (24
R439); an accepted RGNCTL starts its command or ends it with its code. -/
def Obligations.SystemRegisterReadsAndWrites : Prop :=
  (∀ (s : State) (c : Ctx) (d : BitVec 5) (r : BitVec 12), s.issues c (.sysr d r) →
    (r.toNat ≠ 0x41 → exec (.sysr d r) s = .next (s.setsG c d ((s.begin c).sysValue c r.toNat))) ∧
    (r.toNat = 0x41 → exec (.sysr d r) s =
      .next (((s.begin c).modPhy (s.physOf c.t.cl) (fun p => { p with maxw := 0 })).modThread c.t.cl c.t.slot
        (fun u => u.setG d.toNat ((s.begin c).sysValue c 0x41)))) ∧
    s.sysValue c 0 = BitVec.ofNat 64 (s.pulse c.t.cl) ∧ s.sysValue c 1 = s.time + BitVec.ofNat 64 (s.now * 10 / 11) ∧
    (s.sysValue c 2 = BitVec.ofNat 64 (c.t.slot + 2 ^ 16 * c.t.allot + 2 ^ 24 * c.t.prio.toNat + 2 ^ 32 * c.t.knum + 2 ^ 40 * c.t.cl +
      2 ^ 48 * c.t.rgn + 2 ^ 56 * (match c.f.level with | .u => 0 | .s => 1 | .m => 2))) ∧
    s.sysValue c 3 = s.pkgid.setWidth 64 ∧ s.sysValue c 0x10 = c.t.vfcsr ∧ s.sysValue c 0x12 = c.t.swlim.setWidth 64 ∧
    s.sysValue c 0x13 = c.t.spwlim.setWidth 64 ∧ s.sysValue c 0x14 = c.t.wcode.setWidth 64 ∧
    (∀ k, k < 4 → s.sysValue c (0x15 + k) = nth c.t.fpcnt k 0 ∧ s.sysValue c (0x20 + k) = nth c.f.swz k 0) ∧
    s.sysValue c 0x40 = BitVec.ofNat 64 (s.phy (s.physOf c.t.cl)).ageql ∧ s.sysValue c 0x49 = BitVec.ofNat 64 (s.pair (s.pairOf c.t.cl)).req ∧
    s.sysValue c 0x41 = BitVec.ofNat 64 (s.cur.ready + 2 ^ 10 * s.cur.starved + 2 ^ 20 * (s.phy (s.physOf c.t.cl)).maxw) ∧
    s.sysValue c 0x11 = BitVec.ofNat 64 (4 * c.t.grp.toNat + 16 * c.t.vtype.toNat + 2 ^ 16 * c.t.vl) ∧
    s.sysValue c 0x19 = BitVec.ofNat 64 (c.t.errMem.cause.toNat + 2 ^ 16 * c.t.errMem.n.toNat + 2 ^ 32 * c.t.errFab.cause.toNat +
      2 ^ 48 * c.t.errFab.n.toNat) ∧
    (let n (k : Nat) : Nat := s.sqCount c.t.cl k
     s.sysValue c 0x44 = BitVec.ofNat 64 ((64 - (n 0 + n 1 + n 2)) + 2 ^ 8 * n 0 + 2 ^ 16 * n 1 + 2 ^ 24 * n 2 + 2 ^ 32 * s.blockedStores c.t.cl)) ∧
    s.sysValue c 0x45 = BitVec.ofNat 64 ((s.clu c.t.cl).credit + 2 ^ 24 * s.allowance c.t.cl + 2 ^ 48 * (s.now % 1024)) ∧
    (let x := s.phy (s.physOf c.t.cl)
     let q := s.pair (s.pairOf c.t.cl)
     let mv := q.voltNow s.now
     s.sysValue c 0x48 = (x.eff ++ x.patNext.getD x.pat).setWidth 64 ∧
     s.sysValue c 0x4A = BitVec.ofNat 64 (q.cur + 4 * q.tgt + (if mv = q.goal then 0 else 16) + (if q.window.isSome then 32 else 0) +
       2 ^ 8 * (mv / 550) + 2 ^ 16 * (q.temp % 256) + 2 ^ 24 * q.imb + 2 ^ 32 * x.ballast + 2 ^ 40 * x.duty + 2 ^ 48 * x.thrcnt)) ∧
    s.sysValue c 0x50 = (s.clu c.t.cl).rgnctl ∧
    (let k := s.clu c.t.cl
     s.sysValue c 0x51 = BitVec.ofNat 64 ((if k.rej then 2 ^ 56 else 0) + 2 ^ 48 * k.statRegion + 2 ^ 40 * k.result + 2 ^ 32 * k.phase +
       2 ^ 16 * k.fqlost + (if s.fsemHold c.t.cl then 2 else 0) + (if s.fqStall c.t.cl then 1 else 0)))) ∧
  (∀ (s : State) (c : Ctx) (a : BitVec 5) (r : BitVec 12), s.issues c (.sysw a r) →
    let v := c.t.getG a.toNat
    (sysWritable r.toNat c.f.level = false → exec (.sysw a r) s = .next (s.begin c)) ∧
    (r.toNat = 0x12 → exec (.sysw a r) s = .next (s.put c (fun u => { u with swlim := v.extractLsb' 0 32 }))) ∧
    (r.toNat = 0x13 → exec (.sysw a r) s = .next (s.put c (fun u => { u with spwlim := v.extractLsb' 0 32 }))) ∧
    (∀ k, k < 4 → r.toNat = 0x15 + k →
      (c.t.fpAt ≠ s.now → exec (.sysw a r) s = .next (s.put c (fun u => { u with fpcnt := c.t.fpcnt.set k v }))) ∧
      (c.t.fpAt = s.now → exec (.sysw a r) s = .next (s.put c (fun u =>
        { u with fpcnt := (c.t.fpPaths.filter (fun p => p / 4 == k)).foldl bumpPath (c.t.fpcnt.set k v) })))) ∧
    (r.toNat = 0x10 → exec (.sysw a r) s = .next (s.put c (fun u => { u with vfcsr := v &&& vfcsrMask }))) ∧
    (∀ k, k < 4 → r.toNat = 0x20 + k → exec (.sysw a r) s =
      .next (if swzOk v then (s.begin c).modFrame c.t.cl c.t.rgn c.t.knum (fun f => { f with swz := f.swz.set k v }) else s.begin c)) ∧
    (r.toNat = 0x40 → c.f.level = .m → exec (.sysw a r) s =
      .next (if 5 ≤ v.toNat % 16 ∧ v.toNat % 16 ≤ 12 then (s.begin c).modPhy (s.physOf c.t.cl) (fun p => { p with ageql := v.toNat % 16 }) else s.begin c)) ∧
    (sysWritable r.toNat c.f.level = true → r.toNat = 0x48 →
      (((List.range 32).filter (fun k => v.getLsbD k)).length < 4 → exec (.sysw a r) s = .next (s.begin c)) ∧
      (4 ≤ ((List.range 32).filter (fun k => v.getLsbD k)).length → ∃ t, exec (.sysw a r) s = .next t ∧
        (t.phy (s.physOf c.t.cl)).patNext = some (v.setWidth 32) ∧ (t.phy (s.physOf c.t.cl)).pat = (s.phy (s.physOf c.t.cl)).pat ∧
        (t.phy (s.physOf c.t.cl)).eff = (s.phy (s.physOf c.t.cl)).eff)) ∧
    (sysWritable r.toNat c.f.level = true → r.toNat = 0x49 → ∃ t, exec (.sysw a r) s = .next t ∧
      (t.pair (s.pairOf c.t.cl)).req = v.toNat % 4 ∧
      (t.pair (s.pairOf c.t.cl)).tgt = Nat.max (v.toNat % 4) (s.pair (s.pairOf c.t.cl)).cap) ∧
    (sysWritable r.toNat c.f.level = true → r.toNat = 0x50 →
      let cl := c.t.cl
      let k := s.clu cl
      let cmd := if v.toNat % 8 ≤ 3 then v.toNat % 8 else 0
      let rgn := v.toNat / 2 ^ 40 % 256
      let kept : Word := v &&& 0x0000FF0080FF0000
      let code := (s.begin c).rgnRefusal c v cmd
      (k.rgnctl.toNat % 8 ≠ 0 → exec (.sysw a r) s =
        .next (if cmd = 0 then s.begin c else (s.begin c).modClu cl (fun k => { k with rej := true }))) ∧
      (k.rgnctl.toNat % 8 = 0 → ∃ t, exec (.sysw a r) s = .next t ∧ (t.clu cl).rej = false ∧
        (cmd = 0 → t.clu cl = { k with rgnctl := kept, rej := false, writer := some (c.t.rgn, c.t.knum) }) ∧
        (cmd ≠ 0 → code = 0 → (t.clu cl).rgnctl = kept ||| BitVec.ofNat 64 cmd ∧ (t.clu cl).statRegion = rgn ∧ (t.clu cl).result = 1 ∧
          (t.clu cl).phase = [0, 1, 3, 4].getD cmd 0 ∧
          (cmd = 1 → ∀ f ∈ t.frames, f.cl = cl → f.rgn = rgn → f.stopped = true) ∧
          (cmd = 3 → ∀ g ∈ t.regions, g.num = rgn → g.killing = true)) ∧
        (cmd ≠ 0 → code ≠ 0 → (t.clu cl).rgnctl = kept ∧ (t.clu cl).statRegion = rgn ∧ (t.clu cl).result = code ∧ (t.clu cl).phase = 0 ∧
          (v.getLsbD 31 = true → v.toNat / 2 ^ 16 % 256 < c.f.hdr.ksems →
            ∃ x ∈ t.acts, x.job = .signal cl c.t.rgn c.t.knum (v.toNat / 2 ^ 16 % 256) 1 false)))))

/-- 14 R327 to R329: a context instruction waits for its thread's earlier accesses and acquires and issues again; one
with none outstanding, whose descriptor passes the access checks and has no error, and that no status refuses, acts on
the thread that its descriptor names (TRESUME resumes it, TCTXR reads its image into the buffer, TCTXW writes it from
there, TKILL ends it), and then writes STATUS 0; one that a status refuses has no effect but its STATUS. What it read
of HBM marks its rows (21 R396). That a refusal by status is answered without any check of the buffer is the model's
reading (log 38). 14 R329; 19 R370; 13 R284; 12 R261: what the context operations leave. TKILL leaves no thread in the
slot and no command of it at the vector port, keeps the stores that are queued and, without a join to poison, every
other thread; the join is signalled by one, or poisoned. TCTXR's bytes are the image of R370, doubleword by
doubleword. TCTXW of one doubleword writes the field at its offset and no other, leaves a register or predicate with a
pending bit and a read-only field as they were, and DROP takes the head of the replay queue with its pending bit; one
of several doublewords is the first and then the rest. TRESUME enters the replay queue into the vector port in order.
-/
def Obligations.ContextInstructions : Prop :=
  (∀ (s : State) (c : Ctx) (a : BitVec 5) (ps bp : List Place) (st : Place),
    let s1 := s.begin c
    let ea := c.t.getG a.toNat
    let d := s1.descBytes c ps
    let status (t : State) (code : Nat) (more : List (Word × List (Place × Byte))) : State :=
      t.descWrites c.t (c.t.limit c.t.swlim) s.cur.words (more ++ [(ea, placeBytes st (leBytes 4 code))])
    let marks (l : List Place) (x : State) : State := l.foldl (fun y p => y.touchAt c.t.cl c.t.rgn p) x
    let ends (x : State) (code : Nat) (more : List (Word × List (Place × Byte))) : Host.Outcome State Fault Refusal :=
      .next (marks ps (status x code more))
    let buf := BitVec.ofNat 64 (dfield d 0x18 8)
    let n := dfield d 0x0C 4 / 8
    let after := s1.scopeSet c.t.cl c.t.slot 3 ++ s1.openAcq c.t
    (after ≠ [] → ∀ i ∈ [Instr.tresume a, .tctxr a, .tctxw a, .tkill a], s.issues c i →
      exec i s = .next (s1.descHold c after)) ∧
    (after = [] → s1.descPlaces c ea 0 4 = .ok ps →
    s1.checkAccess c.t.cl c.f c.r s.cur.words (descAcc ea 4 1) = .ok st → (∀ p ∈ ps, s1.badAt c.t.rgn c.t.knum p = none) →
    (∀ x ∈ [(CtxOp.resume, Instr.tresume a), (.read, .tctxr a), (.write, .tctxw a), (.kill, .tkill a)],
      s.issues c x.2 → ∀ code, s1.ctxStatus x.1 c.f.level c.t.rgn d = code → code ≠ 0 → exec x.2 s = ends s1 code []) ∧
    (∀ t, s1.ctxThread d = some t →
      (s.issues c (.tresume a) → s1.ctxStatus .resume c.f.level c.t.rgn d = 0 → exec (.tresume a) s = ends (s1.resumeThread t) 0 []) ∧
      (s.issues c (.tkill a) → s1.ctxStatus .kill c.f.level c.t.rgn d = 0 →
        exec (.tkill a) s = ends (s1.killThread t (decide (dfield d 8 1 % 2 = 1))) 0 []) ∧
      (s.issues c (.tctxr a) → s1.ctxStatus .read c.f.level c.t.rgn d = 0 → s1.descPlaces c buf 1 n = .ok bp →
        exec (.tctxr a) s = ends s1 0 [(buf, (bp.flatMap (fun p => (List.range 8).map p.plus)).zip (s1.ctxRead d))]) ∧
      (s.issues c (.tctxw a) → s1.ctxStatus .write c.f.level c.t.rgn d = 0 → s1.descPlaces c buf 0 n = .ok bp →
        (∀ p ∈ bp, s1.badAt c.t.rgn c.t.knum p = none) → exec (.tctxw a) s =
          .next (marks ps (marks bp (status (s1.ctxWrite d (s1.descBytes c bp)) 0 []))))))) ∧
  ((∀ (s : State) (t : Thread) (sig : Bool), s.thread? t.cl t.slot = some t →
    let n := s.killThread t sig
    n.thread? t.cl t.slot = none ∧ s.sameMemory n ∧ (∀ c ∈ n.cmds, ¬ (c.cl = t.cl ∧ c.slot = t.slot ∧ c.port = .vector)) ∧
    (t.join = none ∨ sig = true →
      (∀ cl slot, ¬ (cl = t.cl ∧ slot = t.slot) → n.thread? cl slot = s.thread? cl slot) ∧ n.frames = s.frames ∧
      ∀ a ∈ s.acts, ∀ e, a.job = .entry e → ∃ b ∈ n.acts, b.id = a.id ∧ b.job = .entry e) ∧
    ∀ jc js, t.join = some (jc, js) →
      (sig = true → ∃ a ∈ n.acts, a.job = .signal jc t.rgn t.knum js 1 false) ∧
      ∀ f, sig = false → s.frame? jc t.rgn t.knum = some f → js < f.sems.length →
        (f.stopped = false → ∃ g, n.frame? jc t.rgn t.knum = some g ∧ (g.sem js).poison = true ∧ (g.sem js).count = (f.sem js).count) ∧
        (f.stopped = true → ∃ a ∈ n.acts, a.job = .poison jc t.rgn t.knum js)) ∧
  (∀ (s : State) (d : List Byte) (t : Thread) (f : Frame) (k : Nat), s.ctxThread d = some t → s.frame? t.cl t.rgn t.knum = some f →
    t.g.length = 32 → t.m.length = 8 → k < dfield d 0x0C 4 / 8 →
    let off := dfield d 0x10 4 + 8 * k
    let x : Word := BitVec.ofNat 64 (fromLE (((s.ctxRead d).drop (8 * k)).take 8))
    (s.ctxRead d).length = 8 * (dfield d 0x0C 4 / 8) ∧ (off = 0 → x = t.pc) ∧
    (off = 8 → x = BitVec.ofNat 64 (t.prio.toNat + 16 * (t.allot / 8 - 1) + 64 * (match f.level with | .u => 0 | .s => 1 | .m => 2) +
      2 ^ 8 * t.p.toNat + 2 ^ 16 * t.pendP.toNat + 2 ^ 24 * t.bsarr.toNat)) ∧
    (off = 0x10 → x = t.pendG.setWidth 64) ∧ (off = 0x18 → x = t.vfcsr) ∧
    (off = 0x20 → x = BitVec.ofNat 64 (4 * t.grp.toNat + 16 * t.vtype.toNat + 2 ^ 16 * t.vl)) ∧
    (off = 0x28 → x = t.swlim.setWidth 64) ∧ (off = 0x30 → x = t.spwlim.setWidth 64) ∧ (off = 0x38 → x = t.wcode.setWidth 64) ∧
    (∀ j, j < 4 → off = 0x40 + 8 * j → x = nth t.fpcnt j 0) ∧
    (off = 0x60 → x = BitVec.ofNat 64 (t.errMem.cause.toNat + 2 ^ 16 * t.errMem.n.toNat + 2 ^ 32 * t.errFab.cause.toNat + 2 ^ 48 * t.errFab.n.toNat)) ∧
    (off = 0x68 → x = BitVec.ofNat 64 t.replay.length) ∧ (off = 0x70 → x = t.barph.setWidth 64) ∧ (off = 0x78 → x = 0) ∧
    (∀ r, r < 32 → off = 0x80 + 8 * r → x = if r < t.allot then t.getG r else 0) ∧
    (∀ e c, e < 16 → t.replay[e]? = some c →
      (off = 0x180 + 48 * e → x = BitVec.ofNat 64 (c.word.toNat + 2 ^ 32 * c.offset.toNat)) ∧
      (off = 0x188 + 48 * e → c.vl < 2 ^ 16 → x = BitVec.ofNat 64 (4 * c.grp.toNat + 16 * c.vtype.toNat + 2 ^ 16 * c.vl + 2 ^ 32 * (c.vfcsr.toNat % 2 ^ 32))) ∧
      (off = 0x190 + 48 * e → x = c.swz) ∧ (off = 0x198 + 48 * e → x = c.ga) ∧ (off = 0x1A0 + 48 * e → x = c.gb) ∧
      (off = 0x1A8 + 48 * e → x = 0)) ∧
    (∀ e j, e < 16 → j < 6 → t.replay.length ≤ e → off = 0x180 + 48 * e + 8 * j → x = 0) ∧
    (∀ j, j < 512 → (off = 0x480 + 8 * j → x = t.key.extractLsb' (64 * j) 64) ∧ (off = 0x1480 + 8 * j → x = t.ctr.extractLsb' (64 * j) 64)) ∧
    (∀ q j, 0 < q → q < 8 → j < 256 → off = 0x2480 + 2048 * (q - 1) + 8 * j → x = (t.getM q).extractLsb' (64 * j) 64) ∧
    ∀ v j, j < 512 → off = 0x5C80 + 4096 * v + 8 * j → x = (nth t.v v 0).extractLsb' (64 * j) 64) ∧
  (∀ (s : State) (d bs : List Byte) (t : Thread), s.ctxThread d = some t → dfield d 0x0C 4 = 8 → dfield d 0x10 4 % 8 = 0 →
    t.g.length = 32 → t.m.length = 8 → t.fpcnt.length = 4 →
    let off := dfield d 0x10 4
    let x : Word := BitVec.ofNat 64 (fromLE (bs.take 8))
    let n := s.ctxWrite d bs
    ∃ u, n.thread? t.cl t.slot = some u ∧ s.sameMemory n ∧ n.frames = s.frames ∧ n.cmds = s.cmds ∧
      (∀ cl slot, ¬ (cl = t.cl ∧ slot = t.slot) → n.thread? cl slot = s.thread? cl slot) ∧ u.wait = t.wait ∧
      u.pc = (if off = 0 then x else t.pc) ∧ u.prio = (if off = 8 then x.extractLsb' 0 3 else t.prio) ∧
      (∀ k, k < 8 → u.p.getLsbD k = if off = 8 ∧ t.pendP.getLsbD k = false then x.getLsbD (8 + k) else t.p.getLsbD k) ∧
      u.bsarr = (if off = 8 then x.getLsbD 24 else t.bsarr) ∧ u.allot = t.allot ∧ u.pendP = t.pendP ∧
      u.vfcsr = (if off = 0x18 then x &&& 0x3F3F07 else t.vfcsr) ∧ u.grp = t.grp ∧ u.vtype = t.vtype ∧ u.vl = t.vl ∧
      u.swlim = (if off = 0x28 then x.extractLsb' 0 32 else t.swlim) ∧ u.spwlim = (if off = 0x30 then x.extractLsb' 0 32 else t.spwlim) ∧
      u.wcode = t.wcode ∧ (∀ j, j < 4 → nth u.fpcnt j 0 = if off = 0x40 + 8 * j then x else nth t.fpcnt j 0) ∧
      (let half (h h' : ErrHalf) (count : BitVec 16) (cause : BitVec 9) : Prop := if off = 0x60 then
          h'.n = count ∧ (count ≠ 0 → h'.cause = cause ∧ (h.n = 0 → h'.i0 = 0 ∧ h'.i1 = 0 ∧ h'.i3 = 0) ∧
            (h.n ≠ 0 → h'.i0 = h.i0 ∧ h'.i1 = h.i1 ∧ h'.i3 = h.i3)) else h' = h
       half t.errMem u.errMem (x.extractLsb' 16 16) (x.extractLsb' 0 9) ∧ half t.errFab u.errFab (x.extractLsb' 48 16) (x.extractLsb' 32 9)) ∧
      u.replay = (if off = 0x68 ∧ x.getLsbD 8 = true then t.replay.tail else t.replay) ∧
      (∀ k, k < 32 → u.pendG.getLsbD k = if off = 0x68 ∧ x.getLsbD 8 = true ∧ (t.replay.head?.bind Captured.pendReg).map BitVec.toNat = some k
        then false else t.pendG.getLsbD k) ∧
      (∀ r, r < 32 → u.getG r = if off = 0x80 + 8 * r ∧ 0 < r ∧ r < t.allot ∧ t.pendG.getLsbD r = false then x else t.getG r) ∧
      (∀ j, j < 512 → u.key.extractLsb' (64 * j) 64 = (if off = 0x480 + 8 * j then x else t.key.extractLsb' (64 * j) 64) ∧
        u.ctr.extractLsb' (64 * j) 64 = (if off = 0x1480 + 8 * j then x else t.ctr.extractLsb' (64 * j) 64)) ∧
      (∀ q j, 0 < q → q < 8 → j < 256 → (u.getM q).extractLsb' (64 * j) 64 =
        if off = 0x2480 + 2048 * (q - 1) + 8 * j then x else (t.getM q).extractLsb' (64 * j) 64) ∧
      ∀ v j, v < t.v.length → j < 512 → (nth u.v v 0).extractLsb' (64 * j) 64 =
        if off = 0x5C80 + 4096 * v + 8 * j then x else (nth t.v v 0).extractLsb' (64 * j) 64) ∧
  (∀ (s : State) (d d1 d2 bs : List Byte) (t : Thread), s.ctxThread d = some t → (∀ e ∈ [d1, d2], dfield e 4 1 = dfield d 4 1 ∧ dfield e 5 1 = dfield d 5 1 ∧
      dfield e 6 2 = dfield d 6 2) → dfield d1 0x0C 4 = 8 → dfield d 0x0C 4 = dfield d2 0x0C 4 + 8 → dfield d1 0x10 4 = dfield d 0x10 4 →
      dfield d2 0x10 4 = dfield d 0x10 4 + 8 →
    ∃ u v, (s.ctxWrite d bs).thread? t.cl t.slot = some u ∧ ((s.ctxWrite d1 bs).ctxWrite d2 (bs.drop 8)).thread? t.cl t.slot = some v ∧
      u = { v with errMem := u.errMem, errFab := u.errFab } ∧ ∀ o o' : Nat, { u.errMem with ord := o } = { v.errMem with ord := o } ∧
        { u.errFab with ord := o' } = { v.errFab with ord := o' }) ∧
  ∀ (s : State) (t : Thread), s.thread? t.cl t.slot = some t → t.late = [] → s.trapComing t = false → t.replay.length ≤ 16 →
    s.portCount t.cl .vector + t.replay.length ≤ 64 → s.threadPortCount t.cl t.slot .vector + t.replay.length ≤ 16 →
    ∃ l u, (s.resumeThread t).cmds = s.cmds ++ l ∧
      l.map (fun c => (c.port, c.cl, c.slot, c.rgn, c.knum)) = t.replay.map (fun _ => (.vector, t.cl, t.slot, t.rgn, t.knum)) ∧
      l.map (fun c => (c.instr, c.word, c.vec)) = t.replay.map (fun c => (c.instr, c.word, some c)) ∧
      (s.resumeThread t).thread? t.cl t.slot = some u ∧ u.wait = .none ∧ u.replay = [] ∧ u.pc = t.pc ∧ ∀ r, u.getG r = t.getG r)

/-- 14 R327, R331 to R333: KBIND and KUNBIND wait for their thread's earlier accesses and acquires and for teardowns
in progress; KBIND on a readable and writable descriptor without an error then binds as its descriptor says and
returns STATUS and, where it succeeds, KNUM; KUNBIND that no status refuses begins the teardown and its thread waits
for it, and one that a status refuses returns the status, with LIVE for status 3, and LIVE 0 with any other, as the
model reads R333 (log 40). The order of the descriptor's checks, and that a refusal by status checks nothing more, is
the model's reading (log 38). 14 R332, R333; 02 R21, R22: what binding and unbinding leave. A bind that a status
refuses creates nothing. One that none refuses takes a free kernel number and adds one frame on each cluster of SET,
in the reset state, at the header's resources and the descriptor's level; the lines of its entry points are pinned
with their bytes where they translate, and HOLDTAG and the constant cache of each cluster are cleared. An unbind that
proceeds ends the kernel's live threads, marks its frames, with FORCE discards its commands and the results of its
running ones, and leaves the teardown to come with LIVE. The removal at its end leaves no frame, spawn request or pin
of the kernel, and keeps every other kernel's frames. 14 R333; 22 R405: a teardown waits until its kernel is drained
and then removes its frames; for the host's window BCMD clears with STATUS 0 and LIVE written, for a thread's KUNBIND
they go to its descriptor, and the thread goes on. -/
def Obligations.BindInstructionsAndTeardown : Prop :=
  (∀ (s : State) (c : Ctx) (a : BitVec 5) (ps ws : List Place) (st : Place),
    let s1 := s.begin c
    let ea := c.t.getG a.toNat
    let d := s1.descBytes c ps
    let marks (x : State) : State := ps.foldl (fun y p => y.touchAt c.t.cl c.t.rgn p) x
    let after := s1.scopeSet c.t.cl c.t.slot 3 ++ s1.openAcq c.t ++ s1.bindBusy
    let swlim := c.t.limit c.t.swlim
    (after ≠ [] → ∀ i ∈ [Instr.kbind a, .kunbind a], s.issues c i →
      exec i s = .next (s1.descHold c after)) ∧
    (after = [] → (∀ p ∈ ps, s1.badAt c.t.rgn c.t.knum p = none) →
    (s.issues c (.kbind a) → s1.checkAccess c.t.cl c.f c.r s.cur.words { descAcc ea 8 0 with align := 64 } = .ok st →
      s1.descPlaces c ea 0 8 = .ok ps → s1.descPlaces c ea 1 1 = .ok ws →
      let x := s1.bind c.f.level c.t.rgn d
      exec (.kbind a) s = .next (marks ((x.2.2.bindReads d).descWrites c.t swlim s.cur.words
        [(ea, placeBytes st (leBytes 4 x.1 ++ (match x.2.1 with | some k => [BitVec.ofNat 8 k] | none => [])))]))) ∧
    (s.issues c (.kunbind a) → s1.descPlaces c ea 0 2 = .ok ps → s1.descPlaces c ea 1 2 = .ok ws →
      (s1.unbindStatus c.f.level c.t.rgn (some c.t.knum) d = 0 →
        let s2 := s1.unbindStart d false c.t.cl c.t.slot ea ws
        exec (.kunbind a) s = .next (marks (s2.modThread c.t.cl c.t.slot (fun u => { u with wait := .desc [s2.seq - 1] 0 0 })))) ∧
      (∀ code, s1.unbindStatus c.f.level c.t.rgn (some c.t.knum) d = code → code ≠ 0 →
        exec (.kunbind a) s = .next (marks (s1.descWrites c.t swlim s.cur.words (unbindWrites ea ws code
          (if code = 3 then (s1.kernelThreads (dfield d 5 1) (dfield d 4 1)).length else 0)))))))) ∧
  ((∀ (s : State) (lvl : Level) (own : Nat) (d : List Byte),
    let x := s.bindStatus lvl own d
    let b := s.bind lvl own d
    let set := BitVec.ofNat 256 (dfield d 0x20 32)
    let hdr := dfield d 8 8
    (x.1 ≠ 0 → b = (x.1 + 2 ^ 8 * x.2.1 + 2 ^ 16 * x.2.2.1, none, s)) ∧
    (x.1 = 0 → ∃ r k h, s.region? (dfield d 5 1) = some r ∧ s.regionRead r hdr 64 = some h ∧ b.1 = 0 ∧ b.2.1 = some k ∧ k < 64 ∧
      (∀ f ∈ s.frames, ¬ (f.rgn = r.num ∧ f.knum = k)) ∧ set ≠ 0 ∧ (∀ c, c < 256 → set.getLsbD c = true → r.clset.getLsbD c = true ∧
        (b.2.2.clu c).holdTag = none ∧ (b.2.2.clu c).ccache = [] ∧
        ∀ e, e < 8 → let o := dfield h (0x18 + 4 * e) 4
          ∀ loc key w, o ≠ 0xFFFFFFFF → s.translate r ((hdr + 64 + o) / 64 * 64 % 2 ^ 48) 3 false = .ok (loc, key, w) →
            s.badAt r.num k (.global loc key w) ≠ some true → (hdr + 64 + o) / 64 * 64 < 2 ^ 48 →
            (r.num, (hdr + 64 + o) / 64 * 64, true, some (BitVec.ofNat 512 (fromLE (s.hbmRead key loc 64)))) ∈ (b.2.2.clu c).icache) ∧
      (r.held = 0 → b.2.2.threads = s.threads ∧ b.2.2.frames = s.frames ++ ((List.range 256).filter (fun c => set.getLsbD c)).map (fun c =>
        { cl := c, rgn := r.num, knum := k,
          hdr := { kregs := dfield h 6 1, kvregs := dfield h 7 1, ksems := dfield h 8 2, kbars := dfield h 0xA 1, ktiles := dfield h 0xB 1,
                   kscr := dfield h 0xC 2, kmaxt := dfield h 0xE 2, kflags := BitVec.ofNat 3 (dfield h 0x10 4), kcode := dfield h 0x14 4,
                   entries := (List.range 8).map (fun e => BitVec.ofNat 32 (dfield h (0x18 + 4 * e) 4)) },
          hdrVa := BitVec.ofNat 64 hdr, level := if dfield d 6 2 / 2 % 2 = 1 then .m else if dfield d 6 2 % 2 = 1 then .s else .u, set := set,
          sems := List.replicate (dfield h 8 2) { count := 0, poison := false },
          bars := List.replicate (dfield h 0xA 1) { init := false, n := 0, counter := 0, phase := false },
          tiles := List.replicate (dfield h 0xB 1) Tile.clear, scr := [], swz := [0, 0, 0, 0],
          cb := if dfield h 0x10 4 % 2 = 1 then some Batcher.fresh else none, stopped := false, suspended := false, tearing := false })))) ∧
  (∀ (s : State) (d : List Byte) (window : Bool) (cl slot : Nat) (ea : Word) (pl : List Place),
    let rgn := dfield d 5 1
    let knum := dfield d 4 1
    let x := s.unbindStart d window cl slot ea pl
    (∃ id, x.teardowns = s.teardowns ++ [⟨id, rgn, knum, (s.threads.filter (fun t => t.rgn == rgn && t.knum == knum)).length, window, cl, slot, ea, s.cur.words, pl⟩] ∧
      ∃ a ∈ x.acts, a.id = id ∧ a.job = .kunbind rgn knum none) ∧
    (∀ t ∈ x.threads, ¬ (t.rgn = rgn ∧ t.knum = knum)) ∧ s.sameMemory x ∧ x.frames.length = s.frames.length ∧
    (∀ f ∈ x.frames, f.rgn = rgn → f.knum = knum → f.tearing = true) ∧
    (∀ f ∈ s.frames, ¬ (f.rgn = rgn ∧ f.knum = knum) → f ∈ x.frames) ∧
    (dfield d 6 2 % 2 = 1 → (∀ c ∈ x.cmds, ¬ (c.rgn = rgn ∧ c.knum = knum)) ∧
      (∀ a ∈ x.acts, ∀ e, a.job = .ending e → ¬ (e.rgn = rgn ∧ e.knum = knum)) ∧
      ∀ a ∈ x.acts, ∀ e, a.job = .entry e → e.rgn = rgn → e.knum = knum → e.cls = 1 → e.ack = none → e.queued = true)) ∧
  (∀ (s : State) (rgn knum : Nat),
    let x := s.removeKernel rgn knum
    (∀ f ∈ x.frames, ¬ (f.rgn = rgn ∧ f.knum = knum)) ∧ (∀ f ∈ s.frames, ¬ (f.rgn = rgn ∧ f.knum = knum) → f ∈ x.frames) ∧ x.hbm = s.hbm ∧
    (∀ c ∈ x.clus, ∀ q ∈ c.2.spawnq, ¬ (q.rgn = rgn ∧ q.knum = knum)) ∧
    (∀ a ∈ x.acts, ∀ q w, a.job = .spawn q w → ¬ (q.rgn = rgn ∧ q.knum = knum)) ∧
    ∀ f ∈ s.frames, f.rgn = rgn → f.knum = knum → (x.clu f.cl).holdTag = none ∧ (x.clu f.cl).ccache = [] ∧
      ∀ e ∈ (x.clu f.cl).icache, e.1 = rgn → e.2.1 ∈ f.entryLines →
        (∀ g ∈ s.frames, g.cl = f.cl → g.rgn = rgn → g.knum ≠ knum → e.2.1 ∉ g.entryLines) → e.2.2.1 = false ∧ e.2.2.2.isSome = true)) ∧
  (∀ (s : State) (t : Teardown), s.teardowns.find? (fun x => x.id == t.id) = some t →
    let s1 := (({ s with teardowns := s.teardowns.filter (fun x => x.id != t.id) } : State).dropAct t.id).removeKernel t.rgn t.knum
    (s.drained t.rgn t.knum = false → exec (.kunbindTeardown t.id) s = .next s) ∧
    (s.drained t.rgn t.knum = true → (∀ cl, s1.frame? cl t.rgn t.knum = none) ∧
      (t.window = true → ∃ n, exec (.kunbindTeardown t.id) s = .next n ∧ n.bcmd = 0 ∧ n.frames = s1.frames ∧
        n.bcmdDesc.extractLsb' 0 32 = 0 ∧ n.bcmdDesc.extractLsb' 64 32 = BitVec.ofNat 32 t.live ∧ ∀ x ∈ n.teardowns, x.id ≠ t.id) ∧
      (∀ u, t.window = false → s1.thread? t.cl t.slot = some u → u.wait = .desc [t.id] 0 0 → exec (.kunbindTeardown t.id) s =
        .next (s1.descWrites u (u.limit u.swlim) t.words (unbindWrites t.ea t.descPl 0 t.live)))))

/-! ### Events: results, failures and the write lane -/

/-- 10 R202, 19 R362, 21 R389: the fetch of a bundle, or of a pair's second word, outside the code traps with 2.0.2
before any translation; one whose page does not translate traps with 2.0.k, one that meets a CRC mismatch with 7.0.1;
any other holds its line. No register, frame or byte of memory changes. -/
def Obligations.InstructionFetch : Prop :=
  ∀ (s : State) (t : Thread) (f : Frame) (g : Region), s.thread? t.cl t.slot = some t → s.frame? t.cl t.rgn t.knum = some f →
    s.region? t.rgn = some g → t.running = true → f.stopped = false → s.bundle? t f = none →
    ∃ n u, exec (.instructionFetch t.cl t.slot) s = .next n ∧ n.frames = s.frames ∧ s.sameMemory n ∧ n.thread? t.cl t.slot = some u ∧
      (∀ r, u.getG r = t.getG r) ∧ u.p = t.p ∧ u.pc = t.pc ∧
      let va := t.fetchPc
      let traps (cause : Nat) (a i3 : Word) : Prop := u.wait = .parked ∧ s.recorded n (s.parkRecord t t.pc ⟨cause, a, t.prev, 0, i3⟩)
      (f.inCode va = false → traps 130 va 0) ∧
      (∀ l, f.inCode va = true → s.iLine t.cl t.rgn va = some l → t.soloC = false → opensPair (lineWord l va) va = true →
        f.inCode (va + 4) = false → traps 130 (va + 4) 0) ∧
      (f.inCode va = true → s.iLine t.cl t.rgn va = none →
        (∀ pf, s.translate g (va.toNat % 2 ^ 48 / 64 * 64) 3 false = .error pf → traps (128 + pf.kind) va 0 ∧ n.clus = s.clus) ∧
        ∀ loc key w, s.translate g (va.toNat % 2 ^ 48 / 64 * 64) 3 false = .ok (loc, key, w) →
          (s.badAt t.rgn t.knum (.global loc key w) = some true → traps 449 va 1) ∧
          (s.badAt t.rgn t.knum (.global loc key w) ≠ some true →
            let l := BitVec.ofNat 512 (fromLE (s.hbmRead key loc 64))
            n.iLine t.cl t.rgn va = some l ∧ (f.inCode (va + 4) = true → u = t) ∧
            (t.soloC = false → opensPair (lineWord l va) va = true → f.inCode (va + 4) = false → traps 130 (va + 4) 0)))

/-- 03 R52, R55; 11 R244, R246: a result of any long-latency instruction is written as its pending bit clears: a value
fixed at issue or as its access performed; SREAD's count and poison; STRY's 1 with the count lowered, or 0 with the
count kept. One of a thread whose region is being saved waits for the resumption (05 R118; log 12). 05 R101, 22 R403:
an aperture read that completes without an error has its value fixed and its result on the way; with no write of its
thread on its way, the value is what host memory holds. -/
def Obligations.ResultsReachTheirRegisters : Prop :=
  (∀ (s : State) (id : Nat) (a : Act) (t : Thread) (f : Frame), s.act? id = some a → s.thread? a.cl a.slot = some t →
    s.frame? t.cl t.rgn t.knum = some f → s.doneAll a.after = true → s.absent a = false →
    let done (x : State) (d : Dst) (v : Word) : Prop :=
      exec (.resultWriteback id) s = .next ((x.modThread a.cl a.slot (fun u => u.deliver d v)).dropAct id)
    (∀ d v o, a.job = .result d v o → done s d v) ∧
    (∀ d k, a.job = .sread d k → done s (.g d) (BitVec.ofNat 64 ((f.sem k).count.toNat + if (f.sem k).poison then 65536 else 0))) ∧
    (∀ p k n, a.job = .stry p k n →
      ((f.sem k).poison = false → n.toNat ≤ (f.sem k).count.toNat →
        done (s.setSem t.cl t.rgn t.knum k { f.sem k with count := (f.sem k).count - n.setWidth 16 }) (.p p) 1) ∧
      ((f.sem k).poison = true ∨ (f.sem k).count.toNat < n.toNat → done s (.p p) 0))) ∧
  (∀ (s : State) (id : Nat) (a : Act) (t : Thread) (d : BitVec 5) (h sz : Nat) (sx : Bool) (ea i1 words : Word),
    s.act? id = some a → a.job = .load d (.host h) sz sx 0 ea i1 words → s.thread? a.cl a.slot = some t → s.doneAll a.after = true →
    let reads (v : Word) : Prop := ∃ n, exec (.apertureCompletion id 0) s = .next n ∧
      n.act? id = some { a with job := .result (.g d) v (some (ea, i1, words)) } ∧ s.sameMemory n ∧ n.threads = s.threads
    (∀ v, s.loadNow t a = some v → reads v) ∧
    ((∀ x ∈ s.acts, x.cl = a.cl → x.slot = a.slot → x.entry? = none) → reads (loadValue sx (memRead s.hostMem h sz))))

/-- 12 R259, 04 R100: a late failure of a load or an atomic (7.1.0 of an uncorrectable error, 7.1.1 of a CRC mismatch,
2.1.7 of an aperture read) writes nothing: the pending bit clears, and a thread that is not waiting parks with the PC
of its next bundle and its record; all of memory stays. (One of a thread whose region is being saved waits for the
resumption: 05 R118, log 12.) -/
def Obligations.LateFailuresParkWithoutAResult : Prop :=
  ∀ (s : State) (id : Nat) (a : Act) (t : Thread) (d : BitVec 5) (ea i1 words : Word), s.act? id = some a →
    s.thread? a.cl a.slot = some t → a.slot < 512 → s.absent a = false → t.wait = .none → t.late = [] →
    let failed (cause : Nat) (i3 : Word) (o : Host.Outcome State Fault Refusal) : Prop := ∃ n u, o = .next n ∧ n.thread? a.cl a.slot = some u ∧
      u.wait = .parked ∧ u.pc = t.pc ∧ (∀ r, u.getG r = t.getG r) ∧ u.p = t.p ∧ u.pendG.getLsbD d.toNat = false ∧ n.frames = s.frames ∧
      s.sameMemory n ∧ s.recorded n (s.parkRecord t t.pc ⟨cause, ea, i1, words, i3⟩) ∧ ∀ x ∈ n.acts, x.id = id → s.seq ≤ id
    (∀ pl sz sx kind, a.job = .load d pl sz sx kind ea i1 words →
      ((∀ h, pl ≠ .host h) → ∀ st, failed 456 0 (exec (.lateFailure id 456 st) s) ∧ failed 457 1 (exec (.lateFailure id 457 st) s)) ∧
      (∀ h, pl = .host h → ∀ st : BitVec 16, failed 143 (BitVec.ofNat 64 (2 ^ 63 + st.toNat)) (exec (.lateFailure id 143 st) s) ∧
        (st ≠ 0 → failed 143 (BitVec.ofNat 64 (2 ^ 63 + st.toNat)) (exec (.apertureCompletion id st) s)))) ∧
    (∀ pl sz op arg cmp st, a.job = .atomic d pl sz op arg cmp ea i1 words →
      failed 456 0 (exec (.lateFailure id 456 st) s) ∧ failed 457 1 (exec (.lateFailure id 457 st) s)) ∧
    (∀ e o sz op arg cmp st, a.job = .flight e → e.kind = .atomic o sz op arg cmp d → op < 10 → e.ack = none → e.ea = ea → e.i1 = i1 →
      e.words = words → failed 456 0 (exec (.lateFailure id 456 st) s) ∧ failed 457 1 (exec (.lateFailure id 457 st) s)) ∧
    (∀ v st, a.job = .result (.g d) v (some (ea, i1, words)) → failed 457 1 (exec (.lateFailure id 457 st) s)) ∧
    (∀ st, (a.job = .failed d 456 ea i1 words → failed 456 0 (exec (.lateFailure id 456 st) s)) ∧
      (a.job = .failed d 457 ea i1 words → failed 457 1 (exec (.lateFailure id 457 st) s)))

/-- 05 R101; 04 R87; 22 R403: a departed data write of a thread that may perform puts its bytes at their offsets of
its line, in a scratchpad or HBM as it performs and in host memory as it completes, and a thread that waited for it
goes on. A CRC mismatch toward HBM leaves memory as it was and counts, and it, as an aperture write that completes
with an error, is kept in the thread's latch (04 R100; 12 R260), and its record goes to the region's fault queue and
parks nothing, unless the queue is full or failing. That i0 of a mismatch is the line's physical address before
placement is the model's reading (log 21). 04 R70, R80; 12 R255; 21 R387, R391; 22 R403: the bytes of a write that has
performed are read back at their places, in HBM under the key that they were written with, and every other byte of HBM
under that key, every line but the written one under every key, every other byte of host memory and of the scratchpads
reads as before. -/
def Obligations.DepartedWritesPerform : Prop :=
  (∀ (s : State) (id : Nat) (a : Act) (e : Entry) (t : Thread) (bs : List (Nat × Byte)), s.act? id = some a → s.mayPerform a = some e →
    e.ack = none → e.cls = 0 → e.note = none → e.kind = .data bs → s.thread? a.cl a.slot = some t → t.late = [] → a.slot < 512 →
    let s1 := (s.writeLine e.rgn e.knum e.line bs).dropAct id
    let done := if t.wait = .release [id] then s1.modThread a.cl a.slot (fun u => { u with wait := .none, w := 0 }) else s1
    let lost (cause : Nat) (i0 i3 : Word) (o : Host.Outcome State Fault Refusal) : Prop := ∃ n u, o = .next n ∧ s.sameMemory n ∧ n.frames = s.frames ∧
      n.thread? a.cl a.slot = some u ∧ u.errMem.n ≠ 0 ∧ (t.errMem.n = 0 → u.errMem.n = 1 ∧ u.errMem.cause.toNat = cause ∧ u.errMem.i0 = i0) ∧
      (∀ r, u.getG r = t.getG r) ∧ u.wait = t.wait ∧ (∀ x ∈ n.acts, x.id = id → s.seq ≤ id) ∧
      ((∀ g, s.region? (s.fqOwner e.rgn) = some g → g.full = false ∧ g.failing = false) →
        s.recorded n ⟨cause, false, false, s.pstate a.cl, e.rgn, a.cl, a.slot, e.knum, 0, i0, e.i1, e.words, i3⟩)
    ((∀ h, e.line ≠ .host h) → exec (.writePerform id false) s = .next done) ∧
    (∀ h, e.line = .host h → exec (.apertureCompletion id 0) s = .next done) ∧
    (s.absent a = false →
      (∀ loc k w, e.line = .global loc k w → lost 457 (BitVec.ofNat 64 e.line.lineAddr) 1 (exec (.writePerform id true) s) ∧
        ∃ n, exec (.writePerform id true) s = .next n ∧ (n.die (placeDie a.cl e.line)).crc = satInc (s.die (placeDie a.cl e.line)).crc) ∧
      (∀ h st, e.line = .host h → st ≠ 0 → lost 143 e.ea (BitVec.ofNat 64 (2 ^ 63 + st.toNat)) (exec (.apertureCompletion id st) s)))) ∧
  (∀ (s : State) (id : Nat) (a : Act) (e : Entry) (t : Thread) (bs : List (Nat × Byte)), s.memsOk = true → s.act? id = some a → s.mayPerform a = some e →
    e.ack = none → e.cls = 0 → e.note = none → e.kind = .data bs → s.thread? a.cl a.slot = some t → t.late = [] → a.slot < 512 →
    (∀ x ∈ bs, x.1 < 64) → (bs.map (fun x => x.1)).Nodup →
    let same (n : State) (p : Place) : Prop := ∀ rgn knum, n.readByte rgn knum p = s.readByte rgn knum p
    (∀ loc key w kv, e.line = .global loc key w → loc % 64 = 0 → s.keyOf key = some kv → ∃ n, exec (.writePerform id false) s = .next n ∧
      (∀ x ∈ bs, ∀ rgn knum v, n.readByte rgn knum (.global (loc + x.1) key v) = x.2) ∧
      (∀ l v, (∀ x ∈ bs, l ≠ loc + x.1) → same n (.global l key v)) ∧ (∀ l k v, l / 64 ≠ loc / 64 → same n (.global l k v)) ∧
      (∀ h, same n (.host h)) ∧ ∀ c o q, same n (.scratch c o q)) ∧
    (∀ loc key w, e.line = .global loc key w → s.keyOf key = none → ∃ n, exec (.writePerform id false) s = .next n ∧ s.sameMemory n) ∧
    (∀ h, e.line = .host h → ∃ n, exec (.apertureCompletion id 0) s = .next n ∧
      (∀ x ∈ bs, ∀ rgn knum, n.readByte rgn knum (.host (h + x.1)) = x.2) ∧ (∀ k, (∀ x ∈ bs, k ≠ h + x.1) → same n (.host k)) ∧
      (∀ l k v, same n (.global l k v)) ∧ ∀ c o q, same n (.scratch c o q)) ∧
    ∀ c o q f, e.line = .scratch c o q → s.frame? c e.rgn e.knum = some f → ∃ n, exec (.writePerform id false) s = .next n ∧
      (∀ x ∈ bs, ∀ v, n.readByte e.rgn e.knum (.scratch c (o + x.1) v) = x.2) ∧
      (∀ k v, (∀ x ∈ bs, k ≠ o + x.1) → n.readByte e.rgn e.knum (.scratch c k v) = s.readByte e.rgn e.knum (.scratch c k v)) ∧
      (∀ rgn knum k j v, ¬ (rgn = e.rgn ∧ knum = e.knum ∧ k = c) → n.readByte rgn knum (.scratch k j v) = s.readByte rgn knum (.scratch k j v)) ∧
      (∀ h, same n (.host h)) ∧ ∀ l k v, same n (.global l k v))

/-- 04 R84, R85; 22 R402: at a window's start every cluster of the die has its whole allowance as credit and no
deficit, and the host's reserve is whole; other dies keep theirs. A window starts once. 04 R85 to R89; 14 R316: a
store entry that the lane admits leaves its queue, and each of its lines is on its way to its point of performance; in
the credit tier its charge comes off the cluster's CREDIT; the next class is due, and no byte of memory changes before
it performs. 04 R88, R90: the entry that a departing store frees goes to the thread of the cluster whose store has
waited longest: its wait ends, its store stands in the queue, and every other thread stays as it was. -/
def Obligations.WriteLane : Prop :=
  (∀ (s : State) (d : Nat), d < 4 →
    (s.windowDue d = true → ∃ n, exec (.writeWindowStart d) s = .next n ∧
      (∀ k, k < 64 → (n.clu (64 * d + k)).credit = s.allowance (64 * d + k) ∧ (n.clu (64 * d + k)).deficit = 0) ∧
      (n.die d).hostUsed = 0 ∧ (n.die d).hostDef = 0 ∧ (n.die d).win = s.now / 1024 + 1 ∧
      (∀ c, c / 64 ≠ d → n.clu c = s.clu c) ∧ n.threads = s.threads ∧ n.acts = s.acts ∧ s.sameMemory n) ∧
    (s.windowDue d = false → exec (.writeWindowStart d) s = .next s)) ∧
  (∀ (s : State) (cl k : Nat) (a : Act) (e : Entry), s.mayDepart cl = some (k, a, e) →
    (∀ t ∈ s.threads, ∀ e d u o, t.wait ≠ .store e d u o) → (∀ x ∈ s.acts, ∀ y, x.job = .entry y → y.queued = true) →
    ∃ n, exec (.storeEntryDeparture cl) s = .next n ∧ s.sameMemory n ∧ n.threads = s.threads ∧
      (∀ x ∈ n.acts, x.id = a.id → ∀ y, x.job ≠ .entry y) ∧
      (∀ x ∈ e.lines.zipIdx, ∃ y ∈ n.acts, y.id = a.id + x.2 ∧ y.cl = a.cl ∧ y.slot = a.slot ∧ y.after = a.after ∧
        y.job = .flight { e with line := x.1, mcast := [] }) ∧
      (s.inCredit cl = true → (n.clu cl).credit = (s.clu cl).credit - e.charge) ∧ (s.inCredit cl = false → (n.clu cl).credit = (s.clu cl).credit) ∧
      (n.clu cl).depAt = s.now + 1 ∧ (n.clu cl).rot = (k + 1) % 3) ∧
  (∀ (s : State) (cl : Nat) (a : Act) (e x : Entry) (t : Thread) (d : Option (BitVec 5)) (lim o : Nat), s.mayDepart cl = some (0, a, e) →
    s.sqShared cl ≤ 40 → (∀ b ∈ s.acts, ∀ y, b.job = .entry y → y.queued = true) →
    t.cl = cl → s.thread? cl t.slot = some t → t.wait = .store x d lim o → t.late = [] → s.savingOn cl t.rgn = false →
    (∀ u ∈ s.threads, u.cl = cl → u ≠ t → ∀ y q l k, u.wait = .store y q l k → o < k) →
    ∃ n v, exec (.storeEntryDeparture cl) s = .next n ∧ s.sameMemory n ∧ n.thread? cl t.slot = some v ∧ v.wait = .none ∧ v.pc = t.pc ∧ v.p = t.p ∧
      (∀ r, v.getG r = t.getG r) ∧ v.pendG = (match d with | some r => (t.pend (.g r)).pendG | none => t.pendG) ∧
      (∃ y ∈ n.acts, y.cl = cl ∧ y.slot = t.slot ∧ y.job = .entry { x with sealed := false }) ∧
      ∀ k q, ¬ (k = cl ∧ q = t.slot) → n.thread? k q = s.thread? k q)

/-! ### Events: commands, threads, fault queues and regions -/

/-- 03 R62, R63; 14 R302; 12 R266; 05 R105: the command that the arbiter chooses starts and leaves its queue; a
matrix, copy or batcher command that reads nothing runs on the values that it captured and its end is on its way; one
that reads memory sends its reads as pieces and goes on, on what they read, once the last of them has performed; a
remote operation is sent, under its number of the stream. That the rest of a command's effect is computed in one step
is the model's choice (log 7), and so is which command a port holds back (log 52). 13 R280, R281, R284, R292; 06 R129,
R130: a vector instruction that touches no memory leaves, when it starts, its thread's vector, mask and generator
registers as its elements' results leave them, its flags with its retirement on their way, and a value for a general
register on its way there; where it raised an enabled flag, those registers stay as they were, the flags join FLAGS,
the instruction stands first in the replay queue, and the trap of the lowest enabled flag is on its way. No byte of
memory changes. 14 R304 to R309; 08 R168 to R173: what the commands of the tiles and the batcher leave when they
start: MCLR an empty tile with its trap mode, MMODE the trap mode, MSTAT the tile's counters on their way to its
register; CBPUSH its records at the end of the stream, CBNEXT the oldest published flight taken and its number,
members and slot, or the sign that there is none, CBDONE the slot of a flight free; CBSTAT the batcher's status. No
byte of memory changes. 14 R314 to R318: a CPYF of one row to the own scratchpad window that its start checks admit
has byte n of the pattern, byte n modulo 8 of its first register, on its way to the place of byte n of its
destination, and its end comes behind those writes. -/
def Obligations.CommandsStart : Prop :=
  (∀ (s : State) (cl : Nat),
    (∀ (p : Port) (c : Cmd), p ≠ .fabric → s.startable cl p = some c →
      let s1 := s.takeCmd c
      (∀ x ∈ s1.cmds, x.id ≠ c.id) ∧
      exec (.commandStart cl p) s = .next (if p = .vector then s.startVector c else s.startEngine c) ∧
      (∀ f g, s.frame? c.cl c.rgn c.knum = some f → s.region? c.rgn = some g →
        (p = .matrix → s1.mloadReads f g c = [] → exec (.commandStart cl p) s = .next (State.endEngine (s1.matrixRun s1 f g c) c [])) ∧
        (p = .copy → (s1.copyReads f g c).1 = [] →
          exec (.commandStart cl p) s = .next (State.endEngine (s1.copyRun s1 f g c).1 c (s1.copyRun s1 f g c).2)) ∧
        (p = .batcher → exec (.commandStart cl p) s = .next (State.endEngine (s1.batcherRun f c) c [])) ∧
        (∀ ps got, p = .matrix ∧ ps = s1.mloadReads f g c ∧ got = [] ∨ p = .copy ∧ (ps, got) = s1.copyReads f g c → ps ≠ [] →
          ∃ n x via, exec (.commandStart cl p) s = .next n ∧ s.sameMemory n ∧ n.threads = s.threads ∧ x ∈ n.acts ∧ x.job = .reading c got via ∧
            ∀ q ∈ ps, ∃ y ∈ n.acts, y.id ∈ x.after ∧ y.job = .piece x.id c.rgn c.knum q.1 q.2))) ∧
    (∀ (p : Port) (a : Act) (c : Cmd) (got : List (Place × List Byte)), p ≠ .fabric → s.startable cl p = none → s.reading? cl p = some (a, c, got) →
      let s1 := s.dropAct a.id
      let v := got.foldl (fun x y => x.writeAt c.rgn c.knum y.1 y.2) s1
      (s.goneAll a.after = false → exec (.commandStart cl p) s = .next s) ∧
      (s.goneAll a.after = true → p = .vector → exec (.commandStart cl p) s = .next (s1.runVector v { c with slot := a.slot } 0)) ∧
      (s.goneAll a.after = true → ∀ f g, v.frame? cl c.rgn c.knum = some f → s.region? c.rgn = some g →
        (p = .matrix → c.port = .matrix → exec (.commandStart cl p) s =
          .next (State.endEngine (s1.matrixRun v f g { c with slot := a.slot }) { c with slot := a.slot } [])) ∧
        (p = .copy → c.port = .copy → let x := s1.copyRun v f g { c with slot := a.slot }
          exec (.commandStart cl p) s = .next (State.endEngine x.1 { c with slot := a.slot } x.2)))) ∧
    (∀ (a : Act) (r : Remote), s.fabChosen cl = some (a, r) →
      ∃ n x q, exec (.commandStart cl .fabric) s = .next n ∧ x ∈ n.acts ∧ x.id = a.id ∧ x.job = .remote q ∧ q.sent = true ∧ q.opc = r.opc ∧
        q.seq = r.seq ∧ q.path = r.path ∧ q.addr = r.addr ∧ q.target = r.target ∧ n.threads = s.threads ∧ s.sameMemory n)) ∧
  (∀ (s : State) (cl : Nat) (cmd : Cmd) (c : Captured) (t : Thread) (f : Frame) (g : Region),
    s.startable cl .vector = some cmd → cmd.vec = some c → s.thread? cmd.cl cmd.slot = some t → s.frame? cmd.cl cmd.rgn cmd.knum = some f →
    s.region? cmd.rgn = some g → vmemOf c.instr = none → (∀ e i, c.instr ≠ .vsig e i) →
    let x := vecCompute c t
    let raised := orFlags x.fl
    (raised &&& c.en = 0 → ∃ n, exec (.commandStart cl .vector) s = .next n ∧ s.sameMemory n ∧ n.frames = s.frames ∧
      n.thread? cmd.cl cmd.slot = some x.t ∧ x.t = { t with v := x.t.v, m := x.t.m, key := x.t.key, ctr := x.t.ctr } ∧
      (∀ k q, ¬ (k = cmd.cl ∧ q = cmd.slot) → n.thread? k q = s.thread? k q) ∧
      (∃ y ∈ n.acts, y.cl = cmd.cl ∧ y.slot = cmd.slot ∧ y.job = .vretire cmd.rgn cmd.knum raised) ∧
      (∀ d v, vecDst c.instr = some d → x.res = some v → ∃ y ∈ n.acts, y.cl = cmd.cl ∧ y.slot = cmd.slot ∧ y.job = .result (.g d) v none)) ∧
    (raised &&& c.en ≠ 0 → ∃ n u, exec (.commandStart cl .vector) s = .next n ∧ s.sameMemory n ∧ n.frames = s.frames ∧
      n.thread? cmd.cl cmd.slot = some u ∧ u.v = t.v ∧ u.m = t.m ∧ u.key = t.key ∧ u.ctr = t.ctr ∧ (∀ r, u.getG r = t.getG r) ∧ u.p = t.p ∧
      u.pc = t.pc ∧ u.vfcsr = t.vfcsr ||| BitVec.ofNat 64 (raised.toNat * 256) ∧ u.replay.head? = some c ∧ u.vstop = true ∧
      ∃ y ∈ n.acts, ∃ l, y.cl = cmd.cl ∧ y.slot = cmd.slot ∧ y.job = .vtrap l ∧ l.vector = true ∧ 208 ≤ l.cause ∧ l.cause < 214 ∧
        (raised &&& c.en).getLsbD (l.cause - 208) = true ∧ (∀ k, k < l.cause - 208 → (raised &&& c.en).getLsbD k = false) ∧
        l.i0 = BitVec.ofNat 64 raised.toNat ∧ l.i2 = c.words ∧ l.i3 = BitVec.ofNat 64 (f.code + c.offset.toNat))) ∧
  (∀ (s : State) (cl : Nat) (p : Port) (c : Cmd) (f : Frame) (g : Region), s.startable cl p = some c → s.frame? c.cl c.rgn c.knum = some f →
    s.region? c.rgn = some g →
    let ran (P : Frame → Prop) (e : Ending → Prop) : Prop := ∃ n h, exec (.commandStart cl p) s = .next n ∧ n.frame? c.cl c.rgn c.knum = some h ∧
      P h ∧ s.sameMemory n ∧ ∃ y ∈ n.acts, ∃ x, y.cl = c.cl ∧ y.slot = c.slot ∧ y.job = .ending x ∧ x.rgn = c.rgn ∧ x.knum = c.knum ∧ x.err = none ∧ e x
    let signals (e : BitVec 8) (i : BitVec 2) (x : Ending) : Prop := x.sem = some (e.toNat, 2 ^ i.toNat) ∧ x.dst = none
    let answers (b : BitVec 3) (v : Word) (x : Ending) : Prop := x.sem = none ∧ x.dst = some (b ++ 0#2, v)
    let k := field (c.reg 0) 0 3
    let old := nth f.tiles k Tile.clear
    let only (h : Frame) (t : Tile) : Prop := nth h.tiles k Tile.clear = t ∧ (∀ q, q ≠ k → nth h.tiles q Tile.clear = nth f.tiles q Tile.clear) ∧
      h.sems = f.sems ∧ h.bars = f.bars ∧ h.cb = f.cb
    (p = .matrix → c.reg 0 &&& ~~~7#64 = 0 → k < f.tiles.length →
      (∀ b e i, c.instr = .mclr b e i → ran (fun h =>
        only h ⟨List.replicate 128 ⟨0, []⟩, old.trapm, 0, List.replicate 16 LogEntry.zero, 0, 0, 0, 0, 0⟩) (signals e i)) ∧
      (∀ b e i, c.instr = .mmode b e i → c.reg 1 &&& ~~~1#64 = 0 → ran (fun h => only h { old with trapm := bitOf (c.reg 1) 0 }) (signals e i)) ∧
      (∀ b, c.instr = .mstat b → ran (fun h => h = f) (answers b (BitVec.ofNat 64 (old.evcnt + old.spcnt * 2 ^ 32 + old.logn * 2 ^ 47 +
        (if old.trapm then 2 ^ 52 else 0) + old.dflags.toNat * 2 ^ 56))))) ∧
    (p = .batcher → ∀ b : Batcher, f.cb = some b →
      (∀ q, c.instr = .cbnext q →
        (∀ x, b.flights.find? (fun y => y.published && !y.taken) = some x →
          ran (fun h => h = { f with cb := some { b with flights := b.flights.map (fun y => if y.slot = x.slot then { y with taken := true } else y) } })
            (answers q (BitVec.ofNat 64 (x.number.toNat + 2 ^ 32 * x.members.length + 2 ^ 48 * x.slot + 2 ^ 63)))) ∧
        (b.flights.find? (fun y => y.published && !y.taken) = none →
          ran (fun h => h = f) (answers q (if b.closed = true ∧ b.stream = [] then 0x4000000000000000#64 else 0)))) ∧
      (∀ q, c.instr = .cbstat q → ran (fun h => h = f) (answers q (BitVec.ofNat 64 (b.formed.toNat + 2 ^ 32 * b.stream.length + 2 ^ 52 * b.pub +
        2 ^ 56 * b.out + (if b.closed then 2 ^ 60 else 0) + (if b.cfg then 2 ^ 61 else 0))))) ∧
      (∀ q e i, c.instr = .cbdone q e i → (∃ x ∈ b.flights, x.slot = k) → ran (fun h => ∃ d, h = { f with cb := some d } ∧
        d.flights = b.flights.filter (fun x => x.slot != k) ∧ d.stream = b.stream ∧ d.formed = b.formed) (signals e i)) ∧
      (∀ q e i, c.instr = .cbpush q e i →
        let off := field (c.reg 0) 4 18 * 16
        let n := field (c.reg 1) 0 11
        b.cfg = true → b.closed = false → n ≤ 1024 → n ≤ b.space → b.nextIndex + n < 2 ^ 32 → off + 16 * n ≤ f.hdr.kscr * 4096 →
        s.pushBad f off n = none → firstInvalid (pushed f off n) = none → s.semWaiters f.cl f.rgn f.knum b.fsem = [] →
        ran (fun h => ∃ d, h.cb = some d ∧ d.stream = b.stream ++ (pushed f off n).zipIdx.map (fun x => (b.nextIndex + x.2, x.1)) ∧
          d.nextIndex = b.nextIndex + n ∧ d.closed = bitOf (c.reg 1) 16 ∧ d.flights = b.flights ∧ d.formed = b.formed) (signals e i)))) ∧
  (∀ (s : State) (cl : Nat) (c : Cmd) (f : Frame) (g : Region) (b : BitVec 3) (e : BitVec 8) (i : BitVec 2),
    s.startable cl .copy = some c → s.frame? c.cl c.rgn c.knum = some f → s.region? c.rgn = some g → c.instr = .cpyf b e i →
    (s.takeCmd c).copyCheck f g c = none → c.ycnt = 1 → c.zcnt = 1 →
    (∀ x, x < c.xlen → window (c.reg 1 + BitVec.ofNat 64 x) = .localW ∧ winField (c.reg 1 + BitVec.ofNat 64 x) = winField (c.reg 1)) →
    ∃ n y x, exec (.commandStart cl .copy) s = .next n ∧ s.sameMemory n ∧ n.threads = s.threads ∧ y ∈ n.acts ∧ y.cl = c.cl ∧ y.slot = c.slot ∧
      y.job = .ending x ∧ x.err = none ∧ x.sem = some (e.toNat, 2 ^ i.toNat) ∧
      ∀ k, k < c.xlen → n.onItsWay y.after (.scratch f.cl (swizzle (c.sideSwz true) (field (c.reg 1 + BitVec.ofNat 64 k) 0 22)) false)
        ((c.reg 0).extractLsb' (8 * (k % 8)) 8))

/-- 14 R302: a command that ends without an error signals its semaphore or writes its status register, whose pending
bit clears; 14 R303: one that ends with an error poisons its semaphore, leaves the status register unwritten and
clears its pending bit; the poison bit is set with the count as it was, and the record stands in the queue of its
region. 13 R281; 06 R129; 03 R64: a vector instruction that retires adds its flags to FLAGS, and the VWAIT of its
thread ends with the last; a VSIG signals its semaphore as it retires. -/
def Obligations.CommandsEndAndRetire : Prop :=
  (∀ (s : State) (id : Nat) (a : Act) (e : Ending), s.act? id = some a → a.job = .ending e → s.goneAll a.after = true →
    (e.err = none →
      (∀ k n, e.sem = some (k, n) → e.dst = none → exec (.commandCompletion id) s = .next ((s.dropAct id).signal a.cl e.rgn e.knum k n)) ∧
      (∀ r v, e.sem = none → e.dst = some (r, v) →
        exec (.commandCompletion id) s = .next ((s.dropAct id).modThread a.cl a.slot (fun t => t.deliver (.g r) v)))) ∧
    (∀ cause i0 i1 i2 i3, e.err = some (cause, i0, i1, i2, i3) →
      let told (t : State) : Prop := s.takesRecords a.cl e.rgn → t.holds
        ⟨cause, false, false, s.pstate a.cl, e.rgn, a.cl, a.slot % 512, e.knum, 0, i0, i1 + BitVec.ofNat 64 (e.progress cause * 2 ^ 24), i2, i3⟩
      (∀ k n f, e.sem = some (k, n) → e.dst = none → s.frame? a.cl e.rgn e.knum = some f → k < f.sems.length →
        ∃ t g, exec (.errorCompletion id) s = .next t ∧ t.frame? a.cl e.rgn e.knum = some g ∧ (g.sem k).poison = true ∧
          (g.sem k).count = (f.sem k).count ∧ told t) ∧
      (∀ r v u, e.sem = none → e.dst = some (r, v) → s.thread? a.cl a.slot = some u → ∃ t u', exec (.errorCompletion id) s = .next t ∧
        t.thread? a.cl a.slot = some u' ∧ (∀ q, u'.getG q = u.getG q) ∧ (∀ q, u'.pendG.getLsbD q = (u.pendG.getLsbD q && q != r.toNat)) ∧ told t) ∧
      (∀ k n, e.sem = some (k, n) → e.dst = none → exec (.errorCompletion id) s =
        .next (((s.dropAct id).poisonSem a.cl e.rgn e.knum k).report a.cl a.slot e.rgn e.knum
          ⟨cause, i0, i1 + BitVec.ofNat 64 (e.progress cause * 2 ^ 24), i2, i3⟩)) ∧
      (∀ r v, e.sem = none → e.dst = some (r, v) → exec (.errorCompletion id) s =
        .next (((s.dropAct id).modThread a.cl a.slot (fun t => t.unpend (.g r))).report a.cl a.slot e.rgn e.knum
          ⟨cause, i0, i1 + BitVec.ofNat 64 (e.progress cause * 2 ^ 24), i2, i3⟩)))) ∧
  ((∀ (s : State) (id : Nat) (a : Act) (rgn knum : Nat) (fl : BitVec 6) (t : Thread), s.act? id = some a → a.job = .vretire rgn knum fl →
    s.goneAll a.after = true → s.thread? a.cl a.slot = some t → t.late = [] →
    let s1 := ((s.dropAct id).afterRetire id).modThread a.cl a.slot (fun u => { u with vfcsr := u.vfcsr ||| BitVec.ofNat 64 (fl.toNat * 256) })
    exec (.vectorRetire id) s = .next (if t.wait = .vwait ∧ s1.unretired a.cl a.slot = 0
      then s1.modThread a.cl a.slot (fun u => { u with wait := .none, w := 0 }) else s1)) ∧
  ∀ (s : State) (id : Nat) (a : Act) (rgn knum k n : Nat) (f : Frame) (t : Thread), s.act? id = some a → a.job = .vsig rgn knum k n →
    (s.goneAll a.after = false → exec (.vectorRetire id) s = .next s) ∧
    (s.goneAll a.after = true → s.frame? a.cl rgn knum = some f → k < f.sems.length → s.semWaiters a.cl rgn knum k = [] →
      s.thread? a.cl a.slot = some t → t.wait ≠ .vwait →
      ∃ x g, exec (.vectorRetire id) s = .next x ∧ x.frame? a.cl rgn knum = some g ∧ g.sem k = (f.sem k).signal n ∧
        (∀ q, q ≠ k → g.sem q = f.sem q) ∧ x.threads = s.threads ∧ s.sameMemory x))

/-- 08 R170 to R172: a formation takes the constraints of the next flight off the stream, and the flight's list goes
to its slot in the scratchpad; once its list is written the flight is published and the flight semaphore signalled;
with nothing to form, the formations after the event end. -/
def Obligations.FlightsAreFormed : Prop :=
  ∀ (s : State) (cl : Nat) (f : Frame) (b : Batcher), s.cbFrame cl = some (f, b) → s.frame? cl f.rgn f.knum = some f →
    (∀ k, b.mayForm = true → b.freeSlot = some k → b.flights.find? (fun x => !x.published) = none →
      (b.nextFlight = [] → exec (.formation cl) s = .next (s.setCb f { b with forming := false })) ∧
      (b.nextFlight ≠ [] → ∃ n g w, exec (.formation cl) s = .next n ∧ n.frame? cl f.rgn f.knum = some g ∧ n.threads = s.threads ∧
        g.cb = some { b with formed := b.formed + 1, stream := b.stream.filter (fun c => !b.nextFlight.any (fun x => x.1 == c.1)),
                             flights := b.flights ++ [⟨k, b.formed, b.nextFlight, false, false, w⟩] } ∧
        ∀ i v, (flightList b.formed.toNat b.nextFlight)[i]? = some v →
          n.onItsWay w (.scratch cl (b.base + k * slotSize b.fmax + i) false) v)) ∧
    (b.mayForm = false → b.flights.find? (fun x => !x.published) = none → exec (.formation cl) s =
      .next (if b.forming then s.setCb f { b with forming := false } else s)) ∧
    ∀ x, b.flights.find? (fun x => !x.published) = some x →
      (s.goneAll x.writes = false → exec (.formation cl) s = .next s) ∧
      (s.goneAll x.writes = true → exec (.formation cl) s = .next (s.publish f b x) ∧
        (s.semWaiters cl f.rgn f.knum b.fsem = [] → b.closed = false → b.fsem < f.sems.length → ∃ g d, (s.publish f b x).frame? cl f.rgn f.knum = some g ∧
          g.sem b.fsem = (f.sem b.fsem).signal 1 ∧ g.cb = some d ∧ d.stream = b.stream ∧ d.formed = b.formed ∧
          d.flights = b.flights.map (fun y => if y.slot = x.slot then { y with published := true, writes := [] } else y)))

/-- 02 R29 to R31: a spawn request that finds room joins its target's queue, and its SPAWN ends or 1 is on its way to
its SPAWNT's predicate; where there is none 0 is on its way there, and a SPAWN goes on waiting. 02 R25, R26: an
admissible request gets a free slot, a thread at its entry with the arguments in g1 to g4, and leaves the queue. -/
def Obligations.SpawnRequestsAndAdmission : Prop :=
  (∀ (s : State) (id : Nat) (a : Act) (r : SpawnReq) (f : Frame), s.act? id = some a → s.absent a = false →
    s.frame? r.target r.rgn r.knum = some f → f.stopped = false →
    (∀ p, a.job = .spawn r (some p) → exec (.spawnRequestArrival id) s = .next (if s.queueTakes r
      then ((s.dropAct id).enqueueSpawn r).addAct (spawnReturn a.cl r.target) a.cl a.slot [] (.result (.p p) 1 none)
      else (s.dropAct id).addAct (spawnReturn a.cl r.target) a.cl a.slot [] (.result (.p p) 0 none))) ∧
    (a.job = .spawn r none → s.queueTakes r = false → exec (.spawnRequestArrival id) s = .next s) ∧
    (∀ t u, a.job = .spawn r none → s.queueTakes r = true → s.thread? a.cl a.slot = some t → t.wait = .spawn id u → t.late = [] →
      ∃ n v, exec (.spawnRequestArrival id) s = .next n ∧ n.thread? a.cl a.slot = some v ∧ v.wait = .none ∧ (∀ k, v.getG k = t.getG k) ∧
        v.p = t.p ∧ (n.clu r.target).spawnq = (s.clu r.target).spawnq ++ [r])) ∧
  (∀ (s : State) (cl k : Nat) (r : SpawnReq) (f : Frame) (g : Region), s.firstAdmissible cl (s.clu cl).spawnq [] = some r →
    s.frame? cl r.rgn r.knum = some f → s.admittedNow cl = false → s.freeSlot cl = some k → s.region? r.rgn = some g →
    s.thread? cl k = none ∧ ∃ n u, exec (.spawnAdmission cl) s = .next n ∧ n.threads = s.threads ++ [u] ∧ u.cl = f.cl ∧ u.slot = k ∧
      u.rgn = f.rgn ∧ u.knum = f.knum ∧ u.pc = BitVec.ofNat 64 (f.code + (nth f.hdr.entries r.entry 0).toNat) ∧
      u.g = 0 :: (r.args ++ List.replicate 27 0) ∧ u.p = 0 ∧ u.pendG = 0 ∧ u.pendP = 0 ∧ u.allot = f.hdr.kregs ∧
      u.prio = BitVec.ofNat 3 (Nat.min r.bpri.toNat g.ceil) ∧ u.join = r.join ∧ u.wait = .none ∧
      (n.clu cl).spawnq = (s.clu cl).spawnq.erase r ∧ s.sameMemory n)

/-- 02 R30, R39, R40; 04 R90; 11 R239, R248: a wait that reaches its limit parks its thread with 4.0.0 (semaphore,
ring pair, barrier), 4.0.1 (SPAWN) or 4.1.2 (store) and its record, takes nothing from a semaphore, and keeps the
registers; BARSYNC, once its arrival counts, keeps it in BSARR; a sleep's end makes its thread ready. -/
def Obligations.WaitLimitsExpire : Prop :=
  ∀ (s : State) (t : Thread) (f : Frame), s.thread? t.cl t.slot = some t → s.frame? t.cl t.rgn t.knum = some f → f.stopped = false →
    let parks (o : Host.Outcome State Fault Refusal) (arrived : Bool) (tr : Trap) : Prop := ∃ n u, o = .next n ∧ n.thread? t.cl t.slot = some u ∧
      u.wait = .parked ∧ u.pc = t.ipc ∧ (∀ r, u.getG r = t.getG r) ∧ u.p = t.p ∧ u.bsarr = arrived ∧ n.frames = s.frames ∧ s.sameMemory n ∧
      s.recorded n (s.parkRecord t t.ipc tr)
    (∀ k n lim u o, t.wait = .sem k n lim u o → lim ≠ 0 → parks (exec (.waitLimitExpiry t.cl t.slot) s) t.bsarr
      ⟨256, BitVec.ofNat 64 (t.cl * 65536 + k), (f.sem k).count.setWidth 64, BitVec.ofNat 64 n, lim⟩) ∧
    (∀ p k n lim u o, t.wait = .ring p k n lim u o → lim ≠ 0 → parks (exec (.waitLimitExpiry t.cl t.slot) s) t.bsarr
      ⟨256, BitVec.ofNat 64 (t.cl * 65536 + k), BitVec.ofNat 64 ((f.sem k).count.toNat + 65536 * (f.sem (k + 1)).count.toNat),
        BitVec.ofNat 64 n, lim⟩) ∧
    (∀ b lim u o, t.wait = .bar b true lim u o → s.arriving t.cl t.slot b = true → exec (.waitLimitExpiry t.cl t.slot) s = .next s) ∧
    (∀ b sync lim u o, t.wait = .bar b sync lim u o → lim ≠ 0 → (sync = false ∨ s.arriving t.cl t.slot b = false) → parks (exec (.waitLimitExpiry t.cl t.slot) s) (sync || t.bsarr)
      ⟨256, BitVec.ofNat 64 b, BitVec.ofNat 64 ((f.bar b).counter + 65536 * (f.bar b).n), if (f.bar b).phase then 1 else 0, lim⟩) ∧
    (∀ id lim a r ans, t.wait = .spawn id lim → lim ≠ 0 → s.act? id = some a → a.job = .spawn r ans →
      parks (exec (.spwlimExpiry t.cl t.slot) s) t.bsarr ⟨257, BitVec.ofNat 64 r.target, BitVec.ofNat 64 (s.clu r.target).spawnq.length,
        BitVec.ofNat 64 (s.share r.target), t.spwlim.setWidth 64⟩) ∧
    (∀ e d lim o, t.wait = .store e d lim o → lim ≠ 0 → parks (exec (.swlimExpiry t.cl t.slot) s) t.bsarr
      ⟨266, e.ea, s.sqstat t.cl &&& 0xFFFFFFFF#64, s.wlstat t.cl &&& 0x03FFFFFFFFFFFFFF#64, t.swlim.setWidth 64⟩) ∧
    (∀ u, t.wait = .sleep u → t.late = [] →
      exec (.sleepExpiry t.cl t.slot) s = .next (s.modThread t.cl t.slot (fun v => { v with wait := .none, w := 0 })))

/-- 02 R32, R37; 11 R247; 12 R260, R263: a signal that reaches its semaphore acts on it alone, and one of a thread
that saturates it parks that thread with 4.0.4; a fence, a release store's wait and a descriptor instruction's wait
end once their accesses have performed, a fence with a latched failure by its trap, which clears that half of the
latch; a QUIT with nothing pending signals the join, and the thread is gone. A fence or QUIT of a region whose save
block is composed waits for the resumption (19 R374). -/
def Obligations.SignalsFencesAndQuits : Prop :=
  (∀ (s : State) (id : Nat) (a : Act) (cl rgn knum k : Nat) (inc : Word) (own : Bool) (f : Frame), s.act? id = some a →
    a.job = .signal cl rgn knum k inc own → s.frame? cl rgn knum = some f → f.stopped = false → s.doneAll a.after = true →
    ((f.sem k).count.toNat + inc.toNat ≤ 65535 ∨ own = false →
      exec (.semaphoreSignal id) s = .next ((s.dropAct id).signal cl rgn knum k inc.toNat)) ∧
    (∀ t, 65535 < (f.sem k).count.toNat + inc.toNat → own = true → a.slot < 512 → s.absent a = false → s.thread? a.cl a.slot = some t → t.wait = .none →
      t.late = [] → s.semWaiters cl rgn knum k = [] → k < f.sems.length → ∃ n u g, exec (.semaphoreSignal id) s = .next n ∧
        n.thread? a.cl a.slot = some u ∧ u.wait = .parked ∧ u.pc = t.pc ∧ (∀ r, u.getG r = t.getG r) ∧
        n.frame? cl rgn knum = some g ∧ g.sem k = { count := 65535, poison := true } ∧ s.sameMemory n ∧
        s.recorded n (s.parkRecord t t.pc ⟨260, BitVec.ofNat 64 (cl * 65536 + k), (f.sem k).count.setWidth 64, inc, 0⟩))) ∧
  (∀ (s : State) (t : Thread), s.thread? t.cl t.slot = some t →
    let goes : Prop := exec (.fencePerform t.cl t.slot) s = .next (s.modThread t.cl t.slot (fun u => { u with wait := .none, w := 0 }))
    let words (h : ErrHalf) (w : Word) : Trap :=
      ⟨h.cause.toNat, h.i0, (h.i1 &&& 0x0000FFFFFFFFFFFF#64) ||| BitVec.ofNat 64 (h.n.toNat * 2 ^ 48), w, h.i3⟩
    let traps (tr : Trap) (left : Thread → ErrHalf) : Prop := ∃ n u, exec (.fencePerform t.cl t.slot) s = .next n ∧
      n.thread? t.cl t.slot = some u ∧ u.wait = .parked ∧ u.pc = t.ipc ∧ (left u).n = 0 ∧ (∀ r, u.getG r = t.getG r) ∧ s.sameMemory n ∧
      n.frames = s.frames ∧ s.recorded n (s.parkRecord t t.ipc tr)
    (∀ sc after w, t.wait = .fence sc after w → s.doneAll after = true →
      (s.savingOn t.cl t.rgn = true → exec (.fencePerform t.cl t.slot) s = .next s) ∧
      (s.savingOn t.cl t.rgn = false → t.errMem.n = 0 ∨ sc < 2 → t.errFab.n = 0 ∨ sc ≠ 4 → t.late = [] → goes) ∧
      (s.savingOn t.cl t.rgn = false → 2 ≤ sc → t.errMem.n ≠ 0 → t.errFab.n = 0 ∨ sc ≠ 4 → traps (words t.errMem w) Thread.errMem) ∧
      (s.savingOn t.cl t.rgn = false → sc = 4 → t.errFab.n ≠ 0 → t.errMem.n = 0 → traps (words t.errFab w) Thread.errFab)) ∧
    (∀ after, t.wait = .release after → s.doneAll after = true → t.late = [] → goes) ∧
    (∀ after u o, t.wait = .desc after u o → s.doneAll after = true → t.late = [] → goes)) ∧
  (∀ (s : State) (t : Thread), s.thread? t.cl t.slot = some t → t.wait = .quit → s.quitDone t = true → s.savingOn t.cl t.rgn = false →
    ∃ n, exec (.quitComplete t.cl t.slot) s = .next n ∧ n.thread? t.cl t.slot = none ∧ s.sameMemory n ∧
      (t.join = none → n.frames = s.frames) ∧
      ∀ jc js, t.join = some (jc, js) → n = (s.endThread t).signal jc t.rgn t.knum js 1)

/-- 19 R365, R366: the arbiter of a queue takes its next record: a free slot gets it with the next sequence number, as
a write of the system class; a slot in use keeps it and is tried again after 1,024 die pulses, and so does one whose
write fails, of which the host is told once; a kept record is tried again as such. 19 R374 to R377: RGNCTL's commands
go on and end on their cluster: a suspend drains, the drained region's block is written, and with the last of its
writes the command ends with 0, the region's threads gone from the cluster, or with 8 where a write or the block's
translation fails; a resume reads the block of a suspended region and ends with the code of its checks or restores the
region; a kill begins, and its end deactivates the regions. 19 R374 to R376, R453: the save block and what a resume
makes of it. The block's header holds MAGIC, FORMAT, LCL, REGION, SAVESEQ, LENGTH, NFRAMES and the CRC of the rest;
its directory names each frame's number, threads and place; a frame record holds the header's address, the swizzle
descriptors, semaphores and barriers, then the requests, the images and the window; a thread's the fields of its wait
and its context image. Each line of the block goes into the system class at its address, the header's behind every
other. A resume of a region that stayed on the cluster lets it go on; one of a suspended region, with no work of its
threads still in flight, restores every frame and every thread of the block as the block says. 19 R377; 14 R333; 05
R120: what a kill leaves. At once every region of the family is marked, and on each cluster where no suspend of one of
them runs nothing of it is left: no thread, frame, command, pending spawn or record that is not yet written; other
regions keep their frames, and the completion is to come. When it completes, the regions are no more, and nothing of
them is left on any cluster. -/
def Obligations.FaultQueuesAndRegionControl : Prop :=
  (∀ (s : State) (n : Nat) (g : Region) (rec : Record) (rest : List Record), s.region? n = some g → g.kept = rec :: rest →
    let tried (o : Host.Outcome State Fault Refusal) : Prop := ∃ t h, o = .next t ∧ t.threads = s.threads ∧ t.frames = s.frames ∧ s.sameMemory t ∧
      t.region? n = some h ∧
      let again := ∃ x ∈ t.acts, x.due = s.now + 1024 ∧ x.job = .tick (.faultQueueRetry n)
      (∀ pl, s.slotState g rec = .free pl → h.kept = rest ∧ h.rseq = g.rseq + 1 ∧ h.full = false ∧ h.failing = false ∧ t.hostOut = s.hostOut ∧
        ∃ x ∈ t.acts, ∃ e, x.job = .entry e ∧ x.cl = rec.lcl ∧ e.cls = 2 ∧ e.line = pl ∧ e.kind = .data (offBytes 0 (rec.bytes g.rseq))) ∧
      (s.slotState g rec = .inUse → h.kept = g.kept ∧ h.rseq = g.rseq ∧ h.full = true ∧ h.failing = false ∧ t.hostOut = s.hostOut ∧ again) ∧
      (s.slotState g rec = .fails → h.kept = g.kept ∧ h.rseq = g.rseq ∧ h.full = false ∧ h.failing = true ∧ again ∧
        t.hostOut = (if g.failing then s.hostOut else (s.msix g.msiv).hostOut))
    (g.full = false → g.failing = false → tried (exec (.faultRecord n) s)) ∧
    (g.full = true ∨ g.failing = true → tried (exec (.faultQueueRetry n) s) ∧ exec (.faultRecord n) s = .next s)) ∧
  (∀ (s : State) (cl n : Nat) (g : Region), s.region? n = some g →
    (s.rgnRuns cl 1 = some n →
      exec (.rgnctlSuspend cl) s = .next (s.modClu cl (fun k => { k with phase := 2 })) ∧
      ((s.clu cl).phase = 2 → (s.regionDrained cl n = false → exec (.saveBlockWrite cl) s = .next s) ∧
        (s.regionDrained cl n = true → let w := s.writeBlock g cl (s.saveBlock cl n (s.nextSave cl n))
          (w = none → exec (.saveBlockWrite cl) s = .next (s.endRgn cl 8)) ∧ ∀ s1, w = some s1 → exec (.saveBlockWrite cl) s = .next s1)) ∧
      ((s.clu cl).phase = 3 → (s.saveDone cl = false → exec (.saveBlockWrite cl) s = .next s) ∧
        (s.saveDone cl = true → ∃ t, exec (.saveBlockWrite cl) s = .next t ∧ (t.clu cl).phase = 0 ∧
          (t.clu cl).result = (if (s.clu cl).saveBad then 8 else 0) ∧ field (t.clu cl).rgnctl 0 3 = 0 ∧ t.hbm = s.hbm ∧ t.hostMem = s.hostMem ∧
          ((s.clu cl).saveBad = true → t.threads.map (fun u => (u.cl, u.slot)) = s.threads.map (fun u => (u.cl, u.slot))) ∧
          ((s.clu cl).saveBad = false → ∀ u, u ∈ t.threads ↔
            u ∈ s.threads ∧ ∀ v ∈ s.threads, v.cl = cl → v.rgn = n → ¬ (u.cl = v.cl ∧ u.slot = v.slot))))) ∧
    (s.rgnRuns cl 2 = some n →
      let s0 := if (s.framesOn cl n).any (fun f => f.suspended) then s.touchBlock (some cl) g cl else s
      (∀ k, s0.resumeRegion g cl = .error k → exec (.rgnctlResume cl) s = .next (s0.endRgn cl k)) ∧
      (∀ s1, s0.resumeRegion g cl = .ok s1 → exec (.rgnctlResume cl) s = .next (s1.endRgn cl 0))) ∧
    (s.rgnRuns cl 3 = some n → exec (.rgnctlKill cl) s = .next (s.kill n)) ∧
    (g.killing = true → (∀ x ∈ s.clus, s.suspendRuns (s.family n) x.1 = false) → s.telling (s.family n) = false →
      let s1 := ((s.killOn (s.family n) (fun _ => true)).deactivate (s.family n)).endKills (s.family n) (s.clus.map (fun x => x.1))
      exec (.killComplete n) s = .next (if bitOf s1.rstat 63 ∧ field s1.rcmd 0 3 = 3 ∧ (s.family n).contains (field s1.rcmd 40 8)
        then { s1 with rstat := rstatDone (field s1.rcmd 40 8) 0 } else s1))) ∧
  (let up (n : Nat) : Nat := (n + 63) / 64 * 64
  (∀ (s : State) (cl rgn n : Nat),
    let b := s.saveBlock cl rgn n
    let at_ (o k : Nat) : Nat := dfield b o k
    let fs := s.frames.filter (fun f => f.cl == cl && f.rgn == rgn)
    at_ 0 4 = 0x4B425653 ∧ at_ 4 2 = 1 ∧ at_ 6 1 = cl % 2 ^ 8 ∧ at_ 7 1 = rgn % 2 ^ 8 ∧ at_ 8 8 = n % 2 ^ 64 ∧ at_ 0x10 8 = b.length % 2 ^ 64 ∧
    at_ 0x18 4 = fs.length % 2 ^ 32 ∧ at_ 0x1C 4 = (crc32c (b.drop 64)).toNat ∧
    (fs.length ≤ 16 → ∀ k f, fs[k]? = some f → b.length < 2 ^ 64 → f.swz.length = 4 →
      let ts := s.threads.filter (fun t => t.cl == cl && t.rgn == rgn && t.knum == f.knum)
      let o := at_ (72 + 16 * k) 8
      let oBar := o + 128 + up (4 * f.sems.length)
      let oReq := oBar + up (8 * f.bars.length)
      let reqs := (s.clu cl).spawnq.filter (fun r => r.rgn == rgn && r.knum == f.knum)
      let tiles := f.tiles.flatMap Tile.image
      let cb := match f.cb with
        | some x => x.image
        | none => []
      let oTile := oReq + 64 + 64 * reqs.length
      let oScr := oTile + tiles.length + cb.length
      at_ (64 + 16 * k) 1 = f.knum % 2 ^ 8 ∧ at_ (68 + 16 * k) 4 = ts.length % 2 ^ 32 ∧ at_ o 1 = f.knum % 2 ^ 8 ∧ at_ (o + 8) 8 = f.hdrVa.toNat ∧
      (∀ j, j < 4 → at_ (o + 64 + 8 * j) 8 = (nth f.swz j 0).toNat) ∧
      (∀ j v, f.sems[j]? = some v → at_ (o + 128 + 4 * j) 4 = v.count.toNat + (if v.poison then 2 ^ 16 else 0)) ∧
      (∀ j v, f.bars[j]? = some v → v.n < 2 ^ 16 → v.counter < 2 ^ 16 →
        at_ (oBar + 8 * j) 8 = v.n + 2 ^ 16 * v.counter + (if v.phase then 2 ^ 32 else 0)) ∧
      at_ oReq 4 = reqs.length % 2 ^ 32 ∧ (b.drop oTile).take tiles.length = tiles ∧ (b.drop (oTile + tiles.length)).take cb.length = cb ∧
      (∀ a, a < f.hdr.kscr * 4096 → at_ (oScr + a) 1 = (memGet f.scr a).toNat) ∧
      ∀ j t, ts[j]? = some t →
        let size := if f.hdr.kvregs = 0 then 0x480 else 0x5C80 + 4096 * f.hdr.kvregs
        let q := oScr + f.hdr.kscr * 4096 + j * (64 + size)
        let head (state target num limit sleep : Nat) : Prop := at_ (q + 2) 1 = state ∧ at_ (q + 4) 4 = target % 2 ^ 32 ∧ at_ (q + 8) 8 = num % 2 ^ 64 ∧
          at_ (q + 0x10) 8 = limit % 2 ^ 64 ∧ at_ (q + 0x20) 8 = sleep % 2 ^ 64
        at_ q 2 = t.slot % 2 ^ 16 ∧ (b.drop (q + 64)).take size = t.rewind.imageBytes f.level 0 (size / 8) ∧
        (t.wait = .none → head 0 0 0 0 0) ∧ (t.wait = .parked → head 1 0 0 0 0) ∧ (∀ x m l u w, t.wait = .sem x m l u w → head 2 x m u 0) ∧
        (∀ p x m l u w, t.wait = .ring p x m l u w → head 3 x m u 0) ∧ (∀ x y l u w, t.wait = .bar x y l u w → head 4 x 0 u 0) ∧
        (∀ u, t.wait = .sleep u → head 5 0 0 0 u) ∧ (∀ e d u w, t.wait = .store e d u w → head 6 0 0 u 0) ∧
        (∀ i u, t.wait = .spawn i u → head 6 1 0 u 0) ∧ ∀ c l w, t.wait = .fence c l w → head 7 0 0 0 0)) ∧
  (∀ (s : State) (r : Region) (cl : Nat) (bs : List Byte), bs ≠ [] →
    let va := (if (s.clu cl).savebases.any (fun x => x.1 == r.num) then getK (s.clu cl).savebases r.num 0 else r.savebase) + cl * 0x1000000
    ((∃ k, 64 * k < bs.length ∧ s.saveLine r (va + 64 * k) 1 = none) → s.writeBlock r cl bs = none) ∧
    ((∀ k, 64 * k < bs.length → s.saveLine r (va + 64 * k) 1 ≠ none) → ∃ t, s.writeBlock r cl bs = some t ∧ (t.clu cl).phase = 3 ∧
      (t.clu cl).saveBad = false ∧ t.hbm = s.hbm ∧ t.hostMem = s.hostMem ∧ t.threads = s.threads ∧ t.frames = s.frames ∧
      ∀ k p, 64 * k < bs.length → s.saveLine r (va + 64 * k) 1 = some p → ∃ a e, a ∈ t.acts ∧ a.cl = cl ∧ a.job = .entry e ∧ e.line = p ∧ e.cls = 2 ∧
        e.kind = .data (offBytes 0 ((bs.drop (64 * k)).take 64)) ∧ a.id ∈ (t.clu cl).saving ∧
        (k = 0 → ∀ i ∈ (t.clu cl).saving, i ≠ a.id → i ∈ a.after))) ∧
  (∀ (s : State) (r : Region) (cl : Nat), (∀ f ∈ s.frames, f.cl = cl → f.rgn = r.num → f.suspended = false) →
    ∃ t, s.resumeRegion r cl = .ok t ∧ (∀ f ∈ t.frames, f.cl = cl → f.rgn = r.num → f.stopped = false) ∧
      t.threads.map (fun u => (u.cl, u.slot, u.pc, u.g)) = s.threads.map (fun u => (u.cl, u.slot, u.pc, u.g)) ∧
      (∀ u ∈ t.threads, u.cl = cl → u.rgn = r.num → u.w = 0) ∧ s.sameMemory t) ∧
  ∀ (s : State) (r : Region) (cl : Nat), (∃ f ∈ s.frames, f.cl = cl ∧ f.rgn = r.num ∧ f.suspended = true) →
    (s.readBlock r cl = none → s.resumeRegion r cl = .error 9) ∧
    ∀ b, s.readBlock r cl = some b →
      (s.savedFrames cl r.num b = none → s.resumeRegion r cl = .error 9) ∧
      ∀ l, s.savedFrames cl r.num b = some l →
        (¬ ((∀ x ∈ l, ∀ y ∈ x.ts, s.thread? cl y.slot = none) ∧ s.canReserve cl (l.map SavedFrame.f) = true) → s.resumeRegion r cl = .error 10) ∧
        ((∀ x ∈ l, ∀ y ∈ x.ts, s.thread? cl y.slot = none) → s.canReserve cl (l.map SavedFrame.f) = true → s.queueFull cl l = false →
          s.acts = [] → s.away = [] → ((s.framesOn cl r.num).map Frame.knum).Nodup →
          ∃ t, s.resumeRegion r cl = .ok t ∧ ∀ k, k < dfield b 0x18 4 →
            let p := b.drop (dfield b (72 + 16 * k) 8)
            let knum := dfield b (64 + 16 * k) 1
            ∃ f g, s.frame? cl r.num knum = some f ∧ t.frame? cl r.num knum = some g ∧ g.hdr = f.hdr ∧ g.hdrVa = f.hdrVa ∧ g.level = f.level ∧
              g.stopped = false ∧ g.suspended = false ∧
              let oBar := 128 + up (4 * f.hdr.ksems)
              let oReq := oBar + up (8 * f.hdr.kbars)
              let oScr := oReq + 64 + 64 * dfield p oReq 4 + 103232 * f.hdr.ktiles + (if f.cb.isSome then 131136 else 0)
              (∀ j, j < 4 → (nth g.swz j 0).toNat = dfield p (64 + 8 * j) 8) ∧
              (∀ j, j < f.hdr.ksems → g.sem j = ⟨BitVec.ofNat 16 (dfield p (128 + 4 * j) 4), (BitVec.ofNat 64 (dfield p (128 + 4 * j) 4)).getLsbD 16⟩) ∧
              (∀ j, j < f.hdr.kbars → let v := dfield p (oBar + 8 * j) 8
                g.bars[j]? = some { init := decide (v % 1024 ≠ 0), n := v % 1024, counter := v / 2 ^ 16 % 1024, phase := decide (v / 2 ^ 32 % 2 = 1) }) ∧
              (∀ a, a < f.hdr.kscr * 4096 → (memGet g.scr a).toNat = dfield p (oScr + a) 1) ∧
              ∀ j, j < dfield b (68 + 16 * k) 4 →
                let size := if f.hdr.kvregs = 0 then 0x480 else 0x5C80 + 4096 * f.hdr.kvregs
                let q := oScr + f.hdr.kscr * 4096 + j * (64 + size)
                let state := dfield p (q + 2) 1
                let target := dfield p (q + 4) 4
                let limit := if dfield p (q + 0x10) 8 = 0 then 0 else s.pulse cl + dfield p (q + 0x10) 8
                ∃ u ∈ t.threads, u.cl = cl ∧ u.rgn = r.num ∧ u.knum = f.knum ∧ u.slot = dfield p q 2 ∧ u.w = 0 ∧ u.pc.toNat = dfield p (q + 64) 8 ∧
                  u.p = BitVec.ofNat 8 (dfield p (q + 73) 1) ∧ u.allot = 8 * (dfield p (q + 72) 1 / 16 % 4 + 1) ∧
                  (∀ x, 0 < x → x < u.allot → (u.getG x).toNat = dfield p (q + 64 + 0x80 + 8 * x) 8) ∧
                  (state = 0 ∨ 6 ≤ state → u.wait = .none) ∧ (state = 1 → u.wait = .parked) ∧
                  (state = 2 → ∃ l o, u.wait = .sem target (dfield p (q + 8) 8) l limit o) ∧
                  (state = 3 → ∃ i l o, u.wait = .ring i target (dfield p (q + 8) 8) l limit o) ∧
                  (state = 4 → ∃ i l o, u.wait = .bar target i l limit o) ∧ (state = 5 → u.wait = .sleep (s.pulse cl + dfield p (q + 0x20) 8)))) ∧
  (∀ (s : State) (rgn : Nat) (g : Region), s.region? rgn = some g →
    let fam (k : Nat) : Prop := s.within rgn 4 k = true ∧ s.region? k ≠ none
    let busy (cl : Nat) : Prop := ∃ k, s.rgnRuns cl 1 = some k ∧ fam k
    let left (n : State) (on : Nat → Prop) : Prop :=
      (∀ t ∈ n.threads, fam t.rgn → on t.cl) ∧ (∀ f ∈ n.frames, fam f.rgn → on f.cl) ∧ (∀ c ∈ n.cmds, fam c.rgn → on c.cl) ∧
      (∀ x ∈ n.clus, ∀ q ∈ x.2.spawnq, fam q.rgn → on x.1) ∧ (∀ r ∈ n.regions, ∀ k ∈ r.kept, fam k.rgn → on k.lcl) ∧
      ∀ f ∈ s.frames, ¬ fam f.rgn → f ∈ n.frames
    let n := s.kill rgn
    (∀ r ∈ n.regions, s.within rgn 4 r.num = true → r.killing = true) ∧ left n busy ∧ (∃ a ∈ n.acts, a.job = .tick (.killComplete rgn)) ∧
    (g.killing = true → (∀ x ∈ s.clus, s.suspendRuns (s.family rgn) x.1 = false) → s.telling (s.family rgn) = false →
      ∃ t, exec (.killComplete rgn) s = .next t ∧ left t (fun _ => False) ∧ (∀ r ∈ t.regions, s.within rgn 4 r.num = false) ∧
        (∀ k, ¬ fam k → (t.region? k).isSome = (s.region? k).isSome) ∧ (∀ e ∈ t.tlb, ¬ fam e.rgn) ∧
        ∀ x ∈ t.clus, (∀ e ∈ x.2.icache, ¬ fam e.1) ∧ ∀ e ∈ x.2.ccache, ¬ fam e.1))

/-! ### Events: host, mailbox, power, fleet and fabric -/

/-- 22 R408, R409; 19 R377: a write of RCMD with the machine booted and RSTAT not busy activates, reloads or kills by
its CMD; a refused activation changes no region; before boot, or while busy, it is ignored. Reading an RCB marks its
rows (21 R396). 22 R406 to R409; 02 R15 to R17; 04 R84: what activation and reload leave. An activation takes the
lowest free number and the code of the first check that fails, with which it changes nothing but RSTAT; without one
the region stands with every field of its RCB, or its parent's, or a root's default, where the field is 0. The sum of
each die's largest allowances and its host reserve is bounded in this window and the next. A reload that no check
refuses gives the region the new values, keeps its sequence number and held signals, drops its held translations, and
lets its allowance begin at the next window; its kept records go to the queue that it now names. A parent that is
being killed counts as not active, which is the model's reading (log 67). 22 R404, R405; 21 R390: the context window
acts at M level on the thread that its descriptor names and ends with STATUS 0, or with the code that refuses it, or
with 8 where its buffer does not translate or, of a TCTXW, holds a line in error (04 R100); a TCTXR whose buffer a
walk in progress reads waits for it; while it is busy the window takes no other command. The bind window runs a KBIND
or KUNBIND that finds no teardown before it, and keeps one that does; LIVE is 0 with every refusal but 3 (log 40). -/
def Obligations.HostCommands : Prop :=
  (∀ (s : State) (v : Word),
    let s1 : State := { s with rcmd := v &&& 0x0000FF7FFFFFFF07#64 }
    let go := s.bootReady = true ∧ bitOf s.rstat 63 = false
    let s2 := s1.touchRcb (field v 8 31 * 256)
    (field v 0 3 = 1 → (go → exec (.rcmdActivate v) s = .next (s2.activate (field v 8 31 * 256)) ∧
      ∀ k, s2.rcbRegion (s2.freeRegion.getD 256) (field v 8 31 * 256) = .error k → exec (.rcmdActivate v) s = .next { s2 with rstat := rstatDone 0 k }) ∧
      (¬ go → exec (.rcmdActivate v) s = .next s)) ∧
    (field v 0 3 = 2 → (go → (∀ o, s1.region? (field v 40 8) = some o → exec (.rcmdReload v) s = .next ((s1.touchRcb o.rcbPa).reload (field v 40 8))) ∧
      (s1.region? (field v 40 8) = none → exec (.rcmdReload v) s = .next { s1 with rstat := rstatDone (field v 40 8) 12 })) ∧
      (¬ go → exec (.rcmdReload v) s = .next s)) ∧
    (field v 0 3 = 3 → (go → (s1.region? (field v 40 8) = none → exec (.rcmdKill v) s = .next { s1 with rstat := rstatDone (field v 40 8) 12 }) ∧
      (s1.region? (field v 40 8) ≠ none → exec (.rcmdKill v) s =
        .next (({ s1 with rstat := BitVec.ofNat 64 (2 ^ 63 + 2 ^ 40 * field v 40 8) } : State).kill (field v 40 8)))) ∧
      (¬ go → exec (.rcmdKill v) s = .next s))) ∧
  ((∀ (s : State) (pa num : Nat) (b : List Byte), s.freeRegion = some num → s.readRcb pa = some b →
    let f := dfield b
    let po : Option Region := if f 4 2 = 0 then none else (s.region? (f 4 2 - 1)).filter (fun p => !p.killing && !s.within num 4 p.num)
    let inh {α : Type} (own : Bool) (v root : α) (p : Region → α) : α := if own then v else (po.map p).getD root
    let set : ClSet := inh (f 0x48 32 != 0) (BitVec.ofNat 256 (f 0x48 32)) 0 Region.clset
    let ceil := inh (f 6 1 != 0) (f 6 1 - 1) 7 Region.ceil
    let allow := inh (f 8 4 != 0) (f 8 4) 24576 Region.allow
    let dkey := inh (f 0xE 2 != 0) (f 0xE 2) 0 Region.dkey
    let level := (po.map (fun p => p.level + 1)).getD 1
    let code : Nat := if f 0 4 ≠ 0x4E474552 then 2 else if rcbBad b (if po.isNone && f 0x48 32 == 0 then BitVec.allOnes 256 else set) = true then 3
      else if (f 4 2 ≠ 0 ∧ po.isNone = true) ∨ 4 < level then 4
      else match po with
        | some p => if set &&& ~~~p.clset ≠ 0 then 5 else if p.ceil < ceil then 6 else if p.allow < allow then 7 else 0
        | none => if set = 0 ∨ f 0x10 8 = 0 ∨ dkey = 0 ∨ f 0x18 8 = 0 then 8 else 0
    let need (w cl : Nat) : Nat := Nat.max
      ((s.regions.filter (fun r => inSet r.clset cl)).foldl (fun m r => Nat.max m (if w < r.allowFrom then r.allowWas else r.allow)) 0)
      (if inSet set cl then allow else 0)
    let fits : Prop := ∀ d w, d < 4 → w = s.now / 1024 ∨ w = s.now / 1024 + 1 →
      ((List.range 64).map (fun k => need w (64 * d + k))).sum + (s.die d).hostres ≤ 1572864
    let n := s.activate pa
    let own := f 0x18 8 != 0
    (s.region? num = none ∧ num < 256 ∧ ∀ k, k < num → s.region? k ≠ none) ∧
    (code ≠ 0 → n = { s with rstat := BitVec.ofNat 64 code }) ∧ (code = 0 → ¬ fits → n = { s with rstat := 10 }) ∧
    (code = 0 → fits → s.keyOf dkey = none → n = { s with rstat := 11 }) ∧
    (code = 0 → fits → s.keyOf dkey ≠ none → ∃ r : Region,
      n = { s with regions := s.regions ++ [r], tlb := s.tlb.filter (fun e => e.rgn != num), rstat := BitVec.ofNat 64 (2 ^ 40 * num) } ∧
      r.num = num ∧ r.rcbPa = pa ∧ r.parent = po.map Region.num ∧ r.level = level ∧ r.clset = set ∧ r.ceil = ceil ∧ r.allow = allow ∧ r.allowFrom = 0 ∧
      (∀ k, k < 7 → field r.modes (2 * k) 2 = if f 0xC 2 / 4 ^ k % 4 ≠ 0 then f 0xC 2 / 4 ^ k % 4 else (po.map (fun p => field p.modes (2 * k) 2)).getD 1) ∧
      r.dkey = dkey ∧ r.troot = inh (f 0x10 8 != 0) (f 0x10 8) 0 Region.troot ∧ r.fqOwner = inh own num num Region.fqOwner ∧
      r.fqbase = inh own (f 0x18 8) 0 Region.fqbase ∧ r.fqnlog = inh own (f 0x20 1) 6 Region.fqnlog ∧ r.fsemCl = inh own (f 0x21 1) 0 Region.fsemCl ∧
      r.fsemK = inh own (f 0x22 1) 0 Region.fsemK ∧ r.fsemS = inh own (f 0x23 1) 0 Region.fsemS ∧ r.msiv = inh own (f 0x24 2) 0 Region.msiv ∧
      r.savebase = inh (f 0x28 8 != 0) (f 0x28 8) 0 Region.savebase ∧ r.fkey = inh (f 0x30 8 != 0) (BitVec.ofNat 64 (f 0x30 8)) 0 Region.fkey ∧
      r.apbase = inh (f 0x40 8 != 0) (f 0x38 8) 0 Region.apbase ∧ r.apsize = inh (f 0x40 8 != 0) (f 0x40 8) 0 Region.apsize ∧
      r.rseq = 0 ∧ r.kept = [] ∧ r.full = false ∧ r.failing = false ∧ r.held = 0 ∧ r.killing = false)) ∧
  (∀ (s : State) (pa : Nat), s.readRcb pa = none → s.activate pa = { s with rstat := 2 }) ∧
  (∀ (s : State) (pa : Nat) (r : Region), s.freeRegion = none → s.rcbRegion 256 pa = .ok r → s.activate pa = { s with rstat := 9 }) ∧
  (∀ (s : State) (rgn : Nat), s.region? rgn = none → s.reload rgn = { s with rstat := BitVec.ofNat 64 (2 ^ 40 * rgn + 12) }) ∧
  ∀ (s : State) (rgn : Nat) (o : Region), s.region? rgn = some o → o.killing = false →
    let n := s.reload rgn
    (∀ k, s.rcbRegion rgn o.rcbPa = .error k → n = { s with rstat := BitVec.ofNat 64 (2 ^ 40 * rgn + k) }) ∧
    ∀ r', s.rcbRegion rgn o.rcbPa = .ok r' →
      let now := s.now / 1024
      let need (w cl : Nat) : Nat := Nat.max
        ((s.regions.filter (fun r => r.num != rgn && inSet r.clset cl)).foldl (fun m r => Nat.max m (if w < r.allowFrom then r.allowWas else r.allow)) 0)
        (if inSet r'.clset cl then (if w = now then (if now < o.allowFrom then o.allowWas else o.allow) else r'.allow) else 0)
      let fits : Prop := ∀ d w, d < 4 → w = now ∨ w = now + 1 →
        ((List.range 64).map (fun k => need w (64 * d + k))).sum + (s.die d).hostres ≤ 1572864
      let inside : Prop := ∀ f ∈ s.frames, f.rgn = rgn → inSet r'.clset f.cl = true
      let refused (k : Nat) : Prop := n = { s with rstat := BitVec.ofNat 64 (2 ^ 40 * rgn + k) }
      (¬ fits → refused 10) ∧ (fits → s.keyOf r'.dkey = none → refused 11) ∧ (fits → s.keyOf r'.dkey ≠ none → ¬ inside → refused 13) ∧
      (fits → s.keyOf r'.dkey ≠ none → inside → ∃ r, n.region? rgn = some r ∧ n.rstat = BitVec.ofNat 64 (2 ^ 40 * rgn) ∧
        r = { r' with rseq := r.rseq, kept := r.kept, full := r.full, failing := r.failing, held := r.held, heldCls := r.heldCls, allowWas := r.allowWas, allowFrom := r.allowFrom } ∧
        r.rseq = o.rseq ∧ r.held = o.held ∧ r.heldCls = o.heldCls ∧ r.allowFrom = now + 1 ∧ r.allowWas = (if now < o.allowFrom then o.allowWas else o.allow) ∧
        (o.fqOwner ≠ rgn ∨ r'.fqOwner = rgn → r.kept = o.kept) ∧
        (o.fqOwner = rgn → r'.fqOwner ≠ rgn → r.kept = [] ∧ ∀ q, s.region? r'.fqOwner = some q → ∃ q', n.region? r'.fqOwner = some q' ∧ q'.kept = q.kept ++ o.kept) ∧
        (∀ e ∈ n.tlb, e.rgn ≠ rgn) ∧ n.frames = s.frames ∧ n.threads = s.threads ∧ n.cmds = s.cmds ∧ n.hbm = s.hbm ∧
        ∀ m, m ≠ rgn → m ≠ r'.fqOwner → (n.region? m).map (fun x => { x with level := 0 }) = (s.region? m).map (fun x => { x with level := 0 }))) ∧
  (∀ (s : State), s.bootReady = true →
    let d := leBytes 32 s.ccmdDesc.toNat
    let e := leBytes 64 s.bcmdDesc.toNat
    let read (g : Region) : State := s.touchLines none g (dfield d 0x18 8) (lineSpan (dfield d 0x18 8) (dfield d 0x0C 4))
    (s.ccmd ≠ 0 → ∀ i ∈ [Instr.ccmdTresume, .ccmdTctxr, .ccmdTctxw, .ccmdTkill], exec i s = .next s) ∧
    (s.ccmd = 0 →
      (∀ x ∈ [(CtxOp.resume, Instr.ccmdTresume), (.read, .ccmdTctxr), (.write, .ccmdTctxw), (.kill, .ccmdTkill)],
        s.ctxStatus x.1 .m 0 d ≠ 0 → exec x.2 s = .next (s.ccmdStatus (s.ctxStatus x.1 .m 0 d))) ∧
      (s.ctxStatus .resume .m 0 d = 0 → exec .ccmdTresume s = .next ((s.ctxAct .resume d).ccmdStatus 0)) ∧
      (s.ctxStatus .kill .m 0 d = 0 → exec .ccmdTkill s = .next ((s.ctxAct .kill d).ccmdStatus 0)) ∧
      (∀ g l, s.region? (dfield d 4 1) = some g →
        (s.ctxStatus .read .m 0 d = 0 → s.bufLocs g (dfield d 0x18 8) 1 (dfield d 0x0C 4) = some l →
          ((∀ x ∈ l, s.walkHolds (x.1 / 64) = false) → exec .ccmdTctxr s =
            .next ((((read g).writeLocs l (s.ctxRead d)).writeBad ((l.map (fun x => x.1 / 64)).eraseDups)).ccmdStatus 0)) ∧
          ((∃ x ∈ l, s.walkHolds (x.1 / 64) = true) → exec .ccmdTctxr s = .next { s with ccmd := 2 })) ∧
        (s.ctxStatus .write .m 0 d = 0 → s.bufLocs g (dfield d 0x18 8) 0 (dfield d 0x0C 4) = some l →
          ((∀ x ∈ l, s.badAt g.num 0 (.global x.1 x.2 { pa := 0, via := [] }) = none) →
            exec .ccmdTctxw s = .next (((read g).ctxWrite d (l.map (fun x => s.hbmByte x.2 x.1))).ccmdStatus 0)) ∧
          ((∃ x ∈ l, s.badAt g.num 0 (.global x.1 x.2 { pa := 0, via := [] }) ≠ none) → exec .ccmdTctxw s = .next ((read g).ccmdStatus 8)))) ∧
      (∀ g, s.region? (dfield d 4 1) = some g →
        (s.ctxStatus .read .m 0 d = 0 → s.bufLocs g (dfield d 0x18 8) 1 (dfield d 0x0C 4) = none → exec .ccmdTctxr s = .next (s.ccmdStatus 8)) ∧
        (s.ctxStatus .write .m 0 d = 0 → s.bufLocs g (dfield d 0x18 8) 0 (dfield d 0x0C 4) = none → exec .ccmdTctxw s = .next (s.ccmdStatus 8)))) ∧
    (s.bcmd = 1 → s.bindBusy = [] → let x := s.bind .m 0 e; exec .bcmdKbind s = .next ((x.2.2.bindReads e).bcmdKbindEnd x.1 x.2.1)) ∧
    (s.bcmd = 2 → s.bindBusy = [] → let code := s.unbindStatus .m 0 none (e.take 16)
      (code = 0 → exec .bcmdKunbind s = .next (s.unbindStart (e.take 16) true 0 512 0 [])) ∧
      (code ≠ 0 → exec .bcmdKunbind s = .next (s.bcmdKunbindEnd code (if code = 3 then (s.kernelThreads (dfield e 5 1) (dfield e 4 1)).length else 0)))) ∧
    (s.bindBusy ≠ [] → (s.bcmd = 1 → exec .bcmdKbind s = .next s) ∧ (s.bcmd = 2 → exec .bcmdKunbind s = .next s) ∧
      (s.bcmd = 0 → exec .bcmdKbind s = .next { s with bcmd := 1 } ∧ exec .bcmdKunbind s = .next { s with bcmd := 2 })))

/-- 22 R411, R412; 02 R37, R45: a Foyer request that passes its checks on a free lane is delivered to its target's
queue and shows code 2, or code 6 where the queue has no room, and stays pending (code 1) while its target is
suspended; one that fails shows the check's code; one to a busy lane is dropped and counted; SEMVAL answers count,
poison and validity, and 0 for a semaphore that is not bound. -/
def Obligations.FoyerLanes : Prop :=
  ∀ (s : State) (k : Nat), k < 64 → s.bootOk = true →
    (∀ (req : BitVec 512) (q : SpawnReq) (f : Frame), (s.lane k).code ≠ 1 → s.foyerCheck (leBytes 64 req.toNat) = .ok q →
      s.frame? q.target q.rgn q.knum = some f →
      ∃ n, exec (.foyerRequest k req) s = .next n ∧ (n.lane k).seq = (s.lane k).seq + 1 ∧
        (f.stopped = false → (n.lane k).pending = none ∧
          (s.queueTakes q = true → (n.lane k).code = 2 ∧ (n.clu q.target).spawnq = (s.clu q.target).spawnq ++ [q]) ∧
          (s.queueTakes q = false → (n.lane k).code = 6 ∧ n.clus = s.clus)) ∧
        (f.stopped = true → (n.lane k).pending = some q ∧ (n.lane k).code = 1 ∧ n.clus = s.clus)) ∧
    (∀ (req : BitVec 512) (c d : Nat), (s.lane k).code ≠ 1 → s.foyerCheck (leBytes 64 req.toNat) = .error (c, d) →
      ∃ n, exec (.foyerRequest k req) s = .next n ∧ (n.lane k).code = c ∧ (n.lane k).detail = d ∧ n.clus = s.clus) ∧
    (∀ req : BitVec 512, (s.lane k).code = 1 → ∃ n, exec (.foyerRequest k req) s = .next n ∧
      n.lane k = { s.lane k with drops := Nat.min ((s.lane k).drops + 1) 255 } ∧ n.clus = s.clus) ∧
    let w := (s.lane k).semsel
    let sem := s.frame? (field w 16 8) (field w 40 8) (field w 32 6)
    let shows (v : Word) : Prop := exec (.semvalRead k) s = .next { s with hostOut := s.hostOut ++ [.reg (0x10000 + 128 * k + 0x50) v] }
    (∀ f, sem = some f → field w 0 8 < f.hdr.ksems → f.stopped = false →
      shows (BitVec.ofNat 64 ((f.sem (field w 0 8)).count.toNat + (if (f.sem (field w 0 8)).poison then 65536 else 0) + 2 ^ 63))) ∧
    (∀ f, sem = some f → f.hdr.ksems ≤ field w 0 8 → shows 0) ∧ (sem = none → shows 0)

/-- 22 R401, R402; 21 R391; 04 R85: a host write inside a line of the device's memory is performed before its
completion, under the host's key, when the reserve of its die has room in this window, and without a reserve when the
rounds of the surplus tier reach it; else it waits; under an empty key slot, or with a CRC mismatch at its line, which
is counted (04 R99, R100), it is discarded. A host read answers the bytes that are there, and none, with poison, under
an empty key slot or for a line in error, whose error is counted (25 R447). 21 R390, R396, R398, R399; 03 R59; 25
R451; 22 R400, R404, R413: flushes and way changes are in progress until they are done, the first begun first, and
leave no dirty line and no line in a way that is off; a flush during a flush is ignored; reads of MSCSTAT and
NEWELSTAT clear their counters; a walk of a page that the die's walker holds no translation of counts, and the walks
ahead of it; a refresh visit records the group or skips one that was refreshed; NBRLOST clears by ones; HOSTMEM,
NBRVEC and SEMSEL take what a write of 8 bytes at their offset gives them, and a misaligned write nothing; after a
failed boot no register takes anything. -/
def Obligations.HostMemoryAndDeviceRegisters : Prop :=
  (∀ (s : State) (hpa n pa : Nat) (bs : List Byte),
    (s.hdmPa hpa bs.length = some pa → s.hostWrites = [] → s.walkHolds (s.hostLoc pa / 64) = false →
      let d := locDie (s.hostLoc pa)
      let c := hostCharge pa bs.length
      let line := s.hostLoc pa / 64
      let put (x : State) : State :=
        if s.hostWBad.contains line then ({ x with hostWBad := x.hostWBad.erase line } : State).countCrc d
        else match s.hostKey with | some key => x.hbmWrite key (s.hostLoc pa) bs | none => x
      let waits : Prop := exec (.hostMemWrite hpa bs) s = .next { s with hostWrites := [(hpa, bs)] }
      ((s.die d).hostres ≠ 0 → ((s.die d).hostUsed + c ≤ (s.die d).hostres → exec (.hostMemWrite hpa bs) s =
          .next ((put s).modDie d (fun x => { x with hostUsed := x.hostUsed + c })).clearHost) ∧
        ((s.die d).hostres < (s.die d).hostUsed + c → waits)) ∧
      ((s.die d).hostres = 0 → c ≠ 0 →
        let s1 : State := { s with hostWrites := [(hpa, bs)] }
        (s1.hostOffer d = c → s1.hostFirst d = true → exec (.hostMemWrite hpa bs) s =
          .next ({ put (s1.laneTakesHost d c) with hostWrites := [] } : State).clearHost) ∧
        (s1.hostFirst d = false → waits))) ∧
    (s.hdmPa hpa n = some pa →
      let d := locDie (s.hostLoc pa)
      let poisoned (x : State) : Prop := exec (.hostMemRead hpa n) s = .next { x with hostOut := x.hostOut ++ [.data hpa [] true] }
      (s.hostKey = none → poisoned s) ∧
      ∀ key, s.hostKey = some key → let bad := s.badAt 0 0 (.global (s.hostLoc pa) key { pa := pa, via := [] })
        (bad = some true → poisoned ((s.touch (s.hostLoc pa) key 0).countCrc d)) ∧
        (bad = some false → poisoned ((s.touch (s.hostLoc pa) key 0).countEcc d)) ∧
        (bad = none → let s1 := s.touch (s.hostLoc pa) key 0
          exec (.hostMemRead hpa n) s = .next { s1 with hostOut := s1.hostOut ++ [.data hpa (s.hbmRead key (s.hostLoc pa) n) false] }))) ∧
  (∀ (s : State) (d : Nat), d < 4 →
    (s.bootOk = true →
      ((s.die d).mscOps.contains true = false → ∃ n, exec (.mscFlush d) s = .next n ∧ (n.die d).mscOps = (s.die d).mscOps ++ [true] ∧
        (n.die d).wayen = (s.die d).wayen ∧ (n.die d).skipen = (s.die d).skipen ∧ s.sameMemory n) ∧
      ((s.die d).mscOps.contains true = true → exec (.mscFlush d) s = .next s) ∧
      (∀ w : BitVec 16, w ≠ 0 → ∃ n, exec (.mscWayChange d w) s = .next n ∧ (n.die d).wayen = w ∧ (n.die d).skipen = (s.die d).skipen ∧
        (n.die d).mscOps = (s.die d).mscOps ++ (if (s.die d).wayen &&& ~~~w = 0 then [] else [false]) ∧ s.sameMemory n) ∧
      (∃ n, exec (.mscstatRead d) s = .next n ∧ (n.die d).walks = 0 ∧ (n.die d).waitw = 0 ∧ (n.die d).skips = (s.die d).skips ∧
        n.hostOut = s.hostOut ++ [.reg (0x20008 + 0x1000 * d) (BitVec.ofNat 64 ((s.die d).waitw + 2 ^ 16 * (s.die d).walks + 2 ^ 32 * (s.die d).skips.toNat))]) ∧
      (∀ v, exec (.nbrlostWrite v) s = .next { s with nbrlost := s.nbrlost &&& ~~~(v &&& 0x3F) }) ∧
      (∀ v, s.bootReady = true → exec (.registerWrite 0x08 v) s = .next { s with hostmem := hostmemOf s.hostmem v } ∧
        exec (.registerWrite 0x18 v) s = .next { s with nbrvec := v &&& 0x7FF }) ∧
      (∀ k v, k < 64 → exec (.registerWrite (0x10048 + 128 * k) v) s = .next (s.modLane k (fun l => { l with semsel := v &&& 0x0000FF3F00FF00FF#64 }))) ∧
      (∀ off v, off % 8 ≠ 0 → off < 0x10000 ∨ 0x12000 ≤ off → exec (.registerWrite off v) s = .next s)) ∧
    (s.bootOk = false → ∀ off v, exec (.registerWrite off v) s = .next s ∧ exec (.nbrlostWrite v) s = .next s ∧ exec (.mscFlush d) s = .next s) ∧
    (∃ n, exec (.mscOperationDone d) s = .next n ∧ (n.die d).mscOps = (s.die d).mscOps.drop 1 ∧ s.sameMemory n ∧
      ((s.die d).mscOps.head? = some true → ∀ x ∈ n.msc, locDie (64 * x.line) = d → x.dirty = false) ∧
      ((s.die d).mscOps.head? = some false → ∀ x ∈ n.msc, locDie (64 * x.line) = d → (s.die d).wayen.getLsbD x.way = true)) ∧
    (∀ (r q : Nat) (va : BitVec 48) (g : Region), s.region? r = some g →
      (s.walkMisses d g va.toNat = true → ∃ n, exec (.tableWalk d r va q) s = .next n ∧ s.sameMemory n ∧
        (n.die d).walks = Nat.min ((s.die d).walks + 1) 65535 ∧
        (n.die d).waitw = Nat.max (Nat.max (s.die d).waitw (Nat.min ((s.die d).walking.filter (fun e => decide (s.now < e))).length 31)) (Nat.min q 31)) ∧
      (s.walkMisses d g va.toNat = false → exec (.tableWalk d r va q) s = .next s)) ∧
    (∀ c, s.ctx? = some c → c.f.level ≠ .u → ∀ r : BitVec 5, ∃ n u, exec (.newelstatRead r) s = .next n ∧ (n.phy (s.physOf c.t.cl)).maxw = 0 ∧
      n.thread? c.t.cl c.t.slot = some u ∧ ∀ k, k ≠ r.toNat → u.getG k = c.t.getG k) ∧
    (∀ ch bg bk gr, ch < 256 → bg < 4 → bk < 4 → gr < 2048 →
      let g := ((ch * 4 + bg) * 4 + bk) * 2048 + gr
      ((s.die (ch / 64)).skipen = false → ∃ n, exec (.refreshVisit ch bg bk gr) s = .next n ∧ g ∈ n.refreshed ∧ s.sameMemory n) ∧
      ((s.die (ch / 64)).skipen = true → g ∈ s.refreshed → ∃ n, exec (.refreshVisit ch bg bk gr) s = .next n ∧ g ∉ n.refreshed ∧
        (n.die (ch / 64)).skips = (if (s.die (ch / 64)).skips = BitVec.allOnes 32 then BitVec.allOnes 32 else (s.die (ch / 64)).skips + 1) ∧
        s.sameMemory n)) ∧
    ∀ f, f < 6 → exec (.heartbeatReceive f) s = .next { s with quiet := setK s.quiet f 0 })

/-- 22 R415, R416; 25 R447, R449: the mailbox's commands end with a result in MBSTAT and the busy bits of MBCMD clear:
one whose request buffer cannot be read with 1; key slots 1 to 1,023 take their key, LOADKEY the pair that AES-KW
unwraps of its buffer under the key that the buffer's ML-KEM-1024 ciphertext decapsulates to (2 where the wrapping
does not verify), and the lines under the old key leave the caches, slot 0 is refused with 2 and a higher one with 1
(log 36); an attestation spends an index and writes a report over the package's digests, fuses, rollback counter,
remaining count and the nonce of its buffer (its first 32 bytes, the report a free function: log 9), or answers 3;
REMAP remaps the clusters for which its region waits, one after the other; one without a spare is lost, and the result
2; a MOVE to a target from 72 to 254 answers 1 (log 36); TELEM writes the snapshot; a number without a meaning answers
1. While a command is busy the mailbox takes none. 22 R404, R413, R414; 21 R391; 23 R417: a boot that fails no check
reaches stage 7 with the package's number and address, the system key in slot 0, the image's SHAKE256 digest, and the
cluster map of the clusters that failed their test or are fused out; one that fails a check stays at its stage with
its code: an image whose key or XMSS signature does not verify at stage 2 with code 1. No region, thread or byte of
memory outlives the power-on, the fuses stay, and the rollback counter does not fall. -/
def Obligations.MailboxAndBoot : Prop :=
  (∀ (s : State) (v : Word),
    let ends (x : State) (k : Nat) : State := { x with mbcmd := v &&& 0xFFFFFFFFFFFFF0FF#64, mbstat := BitVec.ofNat 64 k }
    let op := field v 0 8
    let buf := field v 12 52 * 4096
    let slotted (slot : Nat) (k : KeySlot) : State := if slot = 0 then ends s 2 else if 1023 < slot then ends s 1 else
      let s1 := s.mscDropAll (s.msc.filter (fun x => x.key == slot))
      ends { s1 with keys := setK s1.keys slot k } 0
    (bitOf s.mbstat 63 = true → ∀ slot n kek sg, ∀ i ∈ [Instr.attest v sg, .loadkey v slot kek, .emptykey v slot, .bypasskey v slot, .remap v n,
      .telem v, .checkpoint v, .move v, .mailboxUnknownCommand v], exec i s = .next s) ∧
    (bitOf s.mbstat 63 = false →
    (s.bufBad v 64 = false →
      (∀ slot, (op = 3 → exec (.emptykey v slot) s = .next (slotted slot .empty)) ∧ (op = 4 → exec (.bypasskey v slot) s = .next (slotted slot .bypass))) ∧
      (∀ n, op = 5 → (∀ g, s.region? n = some g →
          (remapsAtOnce g = false → s.remapPending g ≠ [] →
            (let x := s.remapEach n (s.remapPending g); exec (.remap v n) s = .next (ends x.2 x.1)) ∧
            ∀ cl, s.remapPending g = [cl] →
              (s.noSpare cl = false → exec (.remap v n) s = .next (ends (s.remapFor cl (fun x => x.num == n)) 0)) ∧
              (s.noSpare cl = true → exec (.remap v n) s = .next (ends (s.loseCluster cl) 2))) ∧
          (remapsAtOnce g = true ∨ s.remapPending g = [] → exec (.remap v n) s = .next (ends s 2))) ∧
        (s.region? n = none → exec (.remap v n) s = .next (ends s 2))) ∧
      (op = 6 → exec (.telem v) s = .next (ends { s with hostMem := memWrite s.hostMem buf s.snapshot } 0))) ∧
    (s.bufBad v 1640 = false → op = 2 → ∀ slot kek, exec (.loadkey v slot kek) s = .next
      (match unwrapPair (s.wrapKey (memRead s.hostMem (buf + 72) 1568)) (memRead s.hostMem buf 72) with
       | some k => slotted slot (.pair k)
       | none => ends s (if slot ≤ 1023 then 2 else 1))) ∧
    (s.bufBad v 32 = false → op = 1 → ∀ sg, exec (.attest v sg) s = .next (if 2 ^ 20 ≤ s.attestUsed then ends s 3
      else ends { s with attestUsed := s.attestUsed + 1, hostMem := memWrite s.hostMem buf (Config.attestReport s.pkgid s.fwDigest s.fusedKey
        s.rollback s.fusedBad (BitVec.ofNat 256 (fromLE (memRead s.hostMem buf 32))) (2 ^ 20 - 1 - s.attestUsed) s.attestUsed sg) } 0)) ∧
    (s.bufBad v 1040 = false → op = 7 → let x := s.checkpointRun (memRead s.hostMem buf 1040); exec (.checkpoint v) s = .next (ends x.2 x.1)) ∧
    (s.bufBad v 8 = false → op = 8 → let b := memRead s.hostMem buf 8
      (dfield b 2 6 = 0 → dfield b 1 1 < 72 ∨ dfield b 1 1 = 0xFF → let x := s.moveRun (dfield b 0 1) (dfield b 1 1)
        exec (.move v) s = .next (ends x.2 x.1)) ∧
      (dfield b 2 6 ≠ 0 ∨ (72 ≤ dfield b 1 1 ∧ dfield b 1 1 ≠ 0xFF) → exec (.move v) s = .next (ends s 1))) ∧
    (∀ slot n sg, s.bufBad v 32 = true →
      (op = 1 → exec (.attest v sg) s = .next (ends s 1)) ∧ (op = 8 → exec (.move v) s = .next (ends s 1)) ∧
      (op = 3 → exec (.emptykey v slot) s = .next (ends s 1)) ∧
      (op = 4 → exec (.bypasskey v slot) s = .next (ends s 1)) ∧ (op = 5 → exec (.remap v n) s = .next (ends s 1)) ∧
      (op = 6 → exec (.telem v) s = .next (ends s 1))) ∧
    (s.bufBad v 1640 = true → op = 2 → ∀ slot kek, exec (.loadkey v slot kek) s = .next (ends s 1)) ∧
    (s.bufBad v 1040 = true → op = 7 → exec (.checkpoint v) s = .next (ends s 1)) ∧
    (op = 0 ∨ 9 ≤ op → exec (.mailboxUnknownCommand v) s = .next (ends s 1))) ∧
    (∀ o n q bs, ∃ t, exec (.checkpointCopyReceive o n q bs) s = .next t ∧ s.sameMemory t ∧ t.threads = s.threads ∧ t.ckpts = s.ckpts ∧
      (s.storeRoom bs.length = none → t = s) ∧
      ∀ base, s.storeRoom bs.length = some base → t.ckJobs = s.ckJobs ++ [⟨⟨n, true, o, q, base, bs.length⟩, bs, 0⟩])) ∧
  (∀ (s : State) (b : BootData), ∃ n, exec (.powerOn b) s = .next n ∧ n.regions = [] ∧ n.threads = [] ∧ n.frames = [] ∧ n.hbm = [] ∧
    s.rollback.toNat ≤ n.rollback.toNat ∧ n.attestUsed = s.attestUsed ∧ n.fusedKey = s.fusedKey ∧ n.fusedBad = s.fusedBad ∧
    (match s.bootFails b with
     | none => n.bootstat = bootWord 7 b.modules 0 0 ∧ n.pkgid = b.pkgid ∧ n.netId = b.netId ∧ n.iface = b.iface ∧
        n.keys = [(0, .pair b.systemKey)] ∧ n.badPhys = s.fusedBad ++ b.failed ∧ n.clmap = mapOf (s.fusedBad ++ b.failed) ∧
        n.firmware = b.fwVersion ∧ n.fwDigest = digest512 b.image ∧ b.fwVersion.toNat ≤ n.rollback.toNat
     | some (k, c) => n.bootstat = bootWord k 0 k c) ∧
    (b.failStage ≠ 1 → digest512 b.key ≠ s.fusedKey ∨ xmssVerify b.key (shake256 b.image 64) b.sig = false → n.bootstat = bootWord 2 0 2 1))

/-- 24 R433, R434: a clock pattern with fewer than four ones is ignored, another waits for the rotation boundary, at
which pattern and duty become the effective pattern together. 24 R436 to R442: a request sets PSREQ, and the target is
the lower of request and cap; a ramp that arrives begins the switch window of a faster clock (R439 bounds it by 64
pulses of the old clock; the model lets it last the most whole die pulses within them: log 48); the thermal step
raises the cap by one when hot or, above 2,400 W, of a hottest pair, lowers it when cool, and keeps 3 in an emergency.
That starts at 110 degrees, above 60 A or with the mid rail off by more than a tenth, with cap 3, duty 8 at most and a
count of each decrease, and ends once none of these holds, the imbalance is small, and that has lasted for 10 ms,
11,000,000 die pulses; a sample shows its currents and imbalance. -/
def Obligations.ClocksAndPower : Prop :=
  (∀ (s : State) (cl : Nat) (v : Word),
    (popcount32 (v.extractLsb' 0 32) < 4 → exec (.ipatWrite cl v) s = .next s) ∧
    (4 ≤ popcount32 (v.extractLsb' 0 32) → ∃ n, exec (.ipatWrite cl v) s = .next n ∧
      (n.phy (s.physOf cl)).patNext = some (v.extractLsb' 0 32) ∧ (n.phy (s.physOf cl)).eff = (s.phy (s.physOf cl)).eff ∧
      n.threads = s.threads ∧ s.sameMemory n) ∧
    ∀ p, (s.boundaryDue p = true → ∃ n, exec (.rotationBoundary p) s = .next n ∧ (n.phy p).patNext = none ∧
        (n.phy p).pat = ((s.phy p).patNext.getD (s.phy p).pat) ∧ (n.phy p).eff = effOf (n.phy p).pat (s.phy p).duty ∧
        n.threads = s.threads ∧ s.sameMemory n) ∧
      (s.boundaryDue p = false → exec (.rotationBoundary p) s = .next s)) ∧
  (∀ (s : State),
    let off (p v : Nat) : Prop := let x := (s.pair p).voltNow s.now; x < 10 * ((220 * v - x) + (x - 220 * v))
    (∀ cl v, ∃ n, exec (.psreqWrite cl v) s = .next n ∧ (n.pair (s.pairOf cl)).req = v.toNat % 4 ∧
      (n.pair (s.pairOf cl)).tgt = Nat.max (v.toNat % 4) (s.pair (s.pairOf cl)).cap ∧ s.sameMemory n ∧ n.threads = s.threads) ∧
    (∀ p, (s.pair p).arrived s.now = true → ∃ n, exec (.voltageReached p) s = .next n ∧ (n.pair p).volt = (s.pair p).goal ∧ (n.pair p).voltAt = s.now ∧
      (n.pair p).cur = (s.pair p).cur ∧ n.threads = s.threads ∧ s.sameMemory n ∧
      let t := Nat.max (s.pair p).req (s.pair p).cap
      ((s.pair p).window = none → t < (s.pair p).cur → 550 * voltOf t ≤ (s.pair p).goal →
        (n.pair p).window = some (t, s.now + windowPulses (s.pair p).cur))) ∧
    (∀ p temp pow, p < 144 → ∃ n, exec (.thermalCapUpdate p temp pow) s = .next n ∧ (n.pair p).temp = temp ∧
      (n.pair p).tgt = Nat.max (s.pair p).req (n.pair p).cap ∧ n.threads = s.threads ∧ s.sameMemory n ∧
      ((s.pair p).emergency = true → (n.pair p).cap = 3 ∧ (n.pair p).emergency = true) ∧
      ((s.pair p).emergency = false →
        let hottest := ∀ q, q < 144 → q ≠ p → (s.pair q).cap ≠ 3 → (s.pair q).temp ≤ temp
        (110 ≤ temp → (n.pair p).cap = 3 ∧ (n.pair p).emergency = true) ∧
        (temp < 110 → (n.pair p).emergency = false ∧
          (100 ≤ temp ∨ (2400 < pow ∧ hottest) → (n.pair p).cap = Nat.min 3 ((s.pair p).cap + 1)) ∧
          (temp < 100 → ¬ (2400 < pow ∧ hottest) →
            (n.pair p).cap = (if temp < 90 then (s.pair p).cap - 1 else (s.pair p).cap))))) ∧
    (∀ p k v, p < 144 → k < 8 → (s.pair p).emergency = false →
      (k = 1 ∧ 110 ≤ v) ∨ (k = 2 ∧ 60000 < v) ∨ (k = 3 ∧ off p v) → ∃ n, exec (.powerEmergency p (k + 8 * v)) s = .next n ∧
      (n.pair p).cap = 3 ∧ (n.pair p).emergency = true ∧ (k = 1 → (n.pair p).temp = v) ∧ (k = 2 → (n.pair p).amps = v) ∧
      (k = 3 → (n.pair p).railOff = true) ∧
      (∀ h, h = 2 * p ∨ h = 2 * p + 1 → (n.phy h).duty = Nat.min (s.phy h).duty 8 ∧
        (n.phy h).thrcnt = (if 8 < (s.phy h).duty then Nat.min ((s.phy h).thrcnt + 1) 0xFFFF else (s.phy h).thrcnt)) ∧
      (n.pair p).tgt = Nat.max (s.pair p).req 3 ∧ n.threads = s.threads ∧ s.sameMemory n) ∧
    (∀ p k v, p < 144 → k < 8 → (s.pair p).emergency = true ∨ ¬ ((k = 1 ∧ 110 ≤ v) ∨ (k = 2 ∧ 60000 < v) ∨ (k = 3 ∧ off p v)) →
      ∃ n, exec (.powerEmergency p (k + 8 * v)) s = .next n ∧ (n.pair p).cap = (s.pair p).cap ∧ (n.pair p).emergency = (s.pair p).emergency ∧
        (∀ h, n.phy h = s.phy h) ∧ n.threads = s.threads ∧ s.sameMemory n) ∧
    (∀ p, let x := s.pair p
      let well := x.temp < 110 ∧ x.amps ≤ 60000 ∧ x.railOff = false ∧ x.imb ≤ 20
      (x.emergency = true → well → x.clearAt + 11000000 ≤ s.now → exec (.emergencyClear p) s = .next (s.modPair p (fun y => { y with emergency := false }))) ∧
      (x.emergency = false ∨ ¬ well ∨ s.now < x.clearAt + 11000000 → exec (.emergencyClear p) s = .next s)) ∧
    (∀ p ia ib, p < 144 → (s.pair p).above ≠ 1023 → ∃ n, exec (.balancerSample p ia ib) s = .next n ∧ (n.pair p).ia = ia ∧ (n.pair p).ib = ib ∧
      (n.pair p).imb = Nat.min (if Nat.max ia ib = 0 then 0 else (Nat.max ia ib - Nat.min ia ib) * 100 / Nat.max ia ib) 255 ∧ n.threads = s.threads ∧ s.sameMemory n))

/-- 25 R444, R445, R446; 19 R362: a fence takes the cluster and its physical cluster out of use: the frames there
stop, its commands, its queued store entries, its reads and ends of commands and its remote operations that have not
left are gone, memory stays, and each region with a frame there receives a record 7.7.3 with the fence's cause and its
number of threads there. With a spare left for the cluster the regions wait for the remap; without one i3 is 0 and
every one of them is killed. i3 is 1 where the region's block can be restored (said of the first region in order). A
watchdog's records 7.7.2 come first, and its fence has their cause. 25 R445, R446; 22 R407: the remap of a fenced
cluster gives its logical number the lowest unassigned spare of its die, if it has none yet, and acts for each region
there that waits and whose remap is the hardware's; the cluster stays fenced while another waits. A lone region that
can be restored has the threads and frames of its block; one that cannot has no thread there, frames as a bind leaves
them, and no queued spawn, whose joins there are poisoned. Where no spare is left every region there is killed, and
those that waited receive a record 7.7.3 with their fence's cause and i3 = 0. That the spare is the lowest is the
model's choice (log 33). 25 R444, R451: a spare that fails its test is fenced by its physical number. A heartbeat goes
out on every torus port that is up; a neighbour that was silent for twenty periods is shown in NBRLOST and the host is
told, by a message that waits while its vector is masked. -/
def Obligations.FleetEvents : Prop :=
  (∀ (s : State) (cl : Nat), s.canFence cl = true →
    let before := s.fencedLog.filter (fun c => c != cl && dieOf c == dieOf cl && s.fencedPhys.contains (s.physOf c))
    let spare : Bool := decide (before.length < (s.spares (dieOf cl)).length)
    let rec507 (g : Region) (cause i3 : Nat) : Record :=
      ⟨507, false, true, s.pstate cl, g.num, cl, 0, 0xFF, 0, BitVec.ofNat 64 cl, BitVec.ofNat 64 cause,
        BitVec.ofNat 64 (s.threadsOn cl g.num).length, BitVec.ofNat 64 i3⟩
    let fenced (n : State) (cause : Nat) : Prop :=
      cl ∈ n.fencedLog ∧ s.physOf cl ∈ n.fencedPhys ∧ n.clmap = s.clmap ∧ (n.die (dieOf cl)).fences = satInc (s.die (dieOf cl)).fences ∧
      n.cmds = s.cmds.filter (fun c => c.cl != cl) ∧
      (∀ a ∈ n.acts, a.cl = cl → match a.job with
        | .ending _ | .entry _ | .vretire .. | .vsig .. | .reading .. | .piece .. => False
        | .remote r => r.sent = true
        | _ => True) ∧
      (∀ f ∈ n.frames, f.cl = cl → (∃ g ∈ s.regionsOn cl, g.num = f.rgn) → f.stopped = true) ∧ s.sameMemory n ∧
      (∀ g ∈ s.regionsOn cl, s.takesRecords cl g.num → ∃ i3, n.holds (rec507 g cause i3) ∧ i3 ≤ 1 ∧
        (spare = false ∨ g.savebase = 0 → i3 = 0)) ∧
      (spare = true → ∀ g ∈ s.regionsOn cl, (cl, g.num, cause) ∈ n.awaiting) ∧
      (spare = false → (∀ g ∈ s.regionsOn cl, ∃ g', n.region? g.num = some g' ∧ g'.killing = true) ∧ ∀ x ∈ n.awaiting, x.1 ≠ cl)
    (∀ c : BitVec 9, ∃ n, exec (.clusterFence cl c) s = .next n ∧ fenced n c.toNat ∧
      ∀ g rest, s.regionsOn cl = g :: rest → s.takesRecords cl g.num →
        n.holds (rec507 g c.toNat (if spare && (s.restorable cl g).isSome then 1 else 0))) ∧
    ∀ why port, (why = 1 ∧ port < 5 ∨ why = 2) → ∃ n, exec (.watchdogFire cl why port) s = .next n ∧ fenced n 506 ∧
      ∀ g ∈ s.regionsOn cl, s.takesRecords cl g.num →
        n.holds ⟨506, false, true, s.pstate cl, g.num, cl, 0, 0xFF, 0, BitVec.ofNat 64 cl, BitVec.ofNat 64 why,
          BitVec.ofNat 64 (if why = 1 then port else 0xFF), 0⟩) ∧
  (∀ (s : State) (cl : Nat), s.fencedLog.contains cl = true →
    let waiting := (s.regionsOn cl).filter (s.waitsRemap cl)
    let out : Bool := s.fencedPhys.contains (s.physOf cl)
    (waiting = [] ∨ waiting.any remapsAtOnce = true → out = false ∨ s.spares (dieOf cl) ≠ [] → ∃ n, exec (.spareRemap cl) s = .next n ∧
      (out = false → n.clmap = s.clmap) ∧
      (out = true → some (n.physOf cl) = (s.spares (dieOf cl)).head? ∧ (n.die (dieOf cl)).remaps = satInc (s.die (dieOf cl)).remaps ∧
        ∀ l, l ≠ cl → n.physOf l = s.physOf l) ∧
      (∀ g ∈ waiting, remapsAtOnce g = true → ∀ x ∈ n.awaiting, ¬ (x.1 = cl ∧ x.2.1 = g.num)) ∧
      (cl ∈ n.fencedLog ↔ ∃ g ∈ n.regionsOn cl, n.waitsRemap cl g = true) ∧
      ∀ g, waiting = [g] → remapsAtOnce g = true → s.savedOn cl g.num = false →
        (∀ l, (s.assignSpare cl).restorable cl g = some l →
          (n.threadsOn cl g.num).map (fun t => t.slot) = l.flatMap (fun x => x.ts.map (fun y => y.slot)) ∧
          ∀ x ∈ l, (∀ y ∈ l, y.f.knum = x.f.knum → y = x) → n.frame? cl g.num x.f.knum = some x.f) ∧
        ((s.assignSpare cl).restorable cl g = none →
          n.threadsOn cl g.num = [] ∧ (∀ q ∈ (n.clu cl).spawnq, q.rgn ≠ g.num) ∧
          ∀ f ∈ s.frames, f.cl = cl → f.rgn = g.num →
            (∀ f' ∈ s.frames, f'.cl = cl → f'.rgn = g.num → f'.knum = f.knum → f' = f) →
            (s.queuedOf cl g.num = [] → n.frame? cl g.num f.knum = some (newFrame cl g.num f.knum f.hdr f.hdrVa f.level f.set)) ∧
            ∀ q ∈ s.queuedOf cl g.num, q.knum = f.knum → ∀ js, js < f.hdr.ksems → q.join = some (cl, js) →
              ∃ f' x, n.frame? cl g.num f.knum = some f' ∧ f'.sems[js]? = some x ∧ x.poison = true)) ∧
    (waiting.any remapsAtOnce = true → out = true → s.spares (dieOf cl) = [] → ∃ n, exec (.spareRemap cl) s = .next n ∧
      n.clmap = s.clmap ∧ n.threads = s.threads ∧ s.sameMemory n ∧ (∀ x ∈ n.awaiting, x.1 ≠ cl) ∧
      (∀ g ∈ s.regionsOn cl, ∃ g', n.region? g.num = some g' ∧ g'.killing = true) ∧
      ∀ g ∈ waiting, s.takesRecords cl g.num → ∀ x, s.awaiting.find? (fun x => x.1 == cl && x.2.1 == g.num) = some x →
        n.holds ⟨507, false, true, s.pstate cl, g.num, cl, 0, 0xFF, 0, BitVec.ofNat 64 cl, BitVec.ofNat 64 x.2.2,
          BitVec.ofNat 64 (s.threadsOn cl g.num).length, 0⟩)) ∧
  (∀ s : State,
    (∀ p (c : BitVec 9), p < 288 → s.logicalOn p = none → s.fencedPhys.contains p = false → ∃ n, exec (.clusterFence (256 + p) c) s = .next n ∧
      p ∈ n.fencedPhys ∧ n.clmap = s.clmap ∧ n.threads = s.threads ∧ s.sameMemory n) ∧
    (∃ n, exec .heartbeatSend s = .next n ∧ (∀ p, p < 12 → (s.eport p).up = true →
        .heartbeat p s.pkgid s.timeNs s.ckseq ∈ n.hostOut) ∧
      (∀ f, f < 6 → getK n.quiet f 0 = getK s.quiet f 0 + 1) ∧ n.threads = s.threads ∧ s.sameMemory n) ∧
    (∀ f, f < 6 → 20 ≤ getK s.quiet f 0 → ∃ n, exec (.neighbourLost f (s.neighbour f)) s = .next n ∧ n.nbrlost.getLsbD f = true ∧
      field n.nbrlost 48 15 = s.neighbour f % 2 ^ 15 ∧ getK n.quiet f 0 = 0 ∧
      (s.msixMasked (field s.nbrvec 0 11) = false → n.hostOut = s.hostOut ++ [.msix (field s.nbrvec 0 11)]) ∧
      (s.msixMasked (field s.nbrvec 0 11) = true → n.hostOut = s.hostOut ∧ field s.nbrvec 0 11 ∈ n.msixPend)))

/-- 12 R270, R272, R273; 23 R421 to R423, R426, R427: what an answer does to an operation in flight: an
acknowledgement ends a write and counts its path; data ends an RLD or RATOM with its value on the way to d; a
rejection and a spent retry budget fail it with their kind; a RETRY, a NACK and a timeout send it again; an answer of
a marked packet lowers the window. That an answer to a thread of a suspended region is kept for the resumption rests
on 05 R118 and is the model's choice (log 12); an ordered write behind it may go out again. 12 R259, R260, R270, R272,
R273; 14 R317; 23 R421 to R423, R426: what answers leave in the state of a thread that is there. Every answer that
ends an operation takes it out of flight and adds one, modulo 65,536, to its path's count in the FPCNT registers and
to no other; data stands on its way to d, its low bytes extended; a failure of kind k (7 for a spent retry budget)
parks the thread of an RLD or RATOM, whose d stays as it was, with 6.6.k and R273's words, counts in the fabric half
of the latch of any other operation's thread and sends a record with those words, or becomes the error of a copy
piece's command, whose transferred bytes it lessens. A NACK or a timeout sends the same packet once more; RETRY sends
an operation anew, but for a write behind an earlier one, which waits to carry START. A NACK and an answer of a marked
packet lower the window. What goes out through the switch is said at SwitchForwards. -/
def Obligations.RemoteAnswers : Prop :=
  (∀ (s : State) (id : Nat) (a : Act) (r : Remote), s.openRemote id = some (a, r) →
    let s0 := s.heard a r
    (s.marked.contains r.psn = false → s0 = s) ∧
    (s.absent a = false → a.slot < 1024 →
      (r.opc ≠ 1 → r.opc ≠ 2 → exec (.remoteAck id) s = .next (s0.endRemote a r)) ∧
      (∀ v, r.opc = 1 ∨ r.opc = 2 → exec (.remoteReturn id v) s = .next (
        let s1 := s0.endRemote a r
        { s1 with acts := s1.acts ++ [{ a with job := .result (.g r.d) (loadValue r.sext (leBytes r.sz v.toNat)) none }] })) ∧
      (∀ (k : BitVec 3) (w : Word), 1 ≤ k.toNat → k.toNat ≤ 6 → exec (.remoteReject id k w) s = .next (s0.remoteFailed a r k.toNat w)) ∧
      exec (.retryBudgetExpiry id) s = .next (s.remoteFailed a r 7 0)) ∧
    (s.absent a = true →
      let keeps (o : Host.Outcome State Fault Refusal) (x : State) (k : Nat) (v w : Word) : Prop :=
        let y := x.setRemote id { r with answered := some (k, v, w) }
        o = .next (y.resendAll y.acts)
      (r.opc ≠ 1 → r.opc ≠ 2 → keeps (exec (.remoteAck id) s) s0 0 0 0) ∧
      (r.opc = 1 ∨ r.opc = 2 → ∀ v, keeps (exec (.remoteReturn id v) s) s0 1 v 0) ∧ keeps (exec (.retryBudgetExpiry id) s) s 2 7 0 ∧
      ∀ (k : BitVec 3) (w : Word), 1 ≤ k.toNat → k.toNat ≤ 6 → keeps (exec (.remoteReject id k w) s) s0 2 (k.setWidth 64) w) ∧
    (r.resend = false → exec (.remoteRetry id) s = .next (s0.retried a r) ∧
      exec (.nack id) s = .next ((s.cutWindow a r).sendPacket (s.packetOf a.cl a.slot r)) ∧
      exec (.retransmitTimeout id) s = .next (s.sendPacket (s.packetOf a.cl a.slot r))) ∧
    (r.resend = true → exec (.remoteRetry id) s = .next s ∧ exec (.nack id) s = .next s ∧ exec (.retransmitTimeout id) s = .next s)) ∧
  (∀ (s : State) (id : Nat) (a : Act) (r : Remote) (t : Thread), s.openRemote id = some (a, r) → s.absent a = false →
    s.thread? a.cl a.slot = some t → a.slot < 512 → t.fpcnt.length = 4 → r.path < 16 →
    let count (l : List Word) (j : Nat) : Nat := (nth l (j / 4) 0).toNat / 2 ^ (16 * (j % 4)) % 65536
    let i1 : Word := BitVec.ofNat 64 (r.seq.toNat + r.path * 2 ^ 32 + r.opc * 2 ^ 40)
    let cuts (n : State) : Nat := (n.stream r.rgn a.cl (a.slot % 512) r.target).cuts
    let ended (n : State) (u : Thread) : Prop :=
      n.thread? a.cl a.slot = some u ∧ (∀ k q, ¬ (k = a.cl ∧ q = a.slot) → n.thread? k q = s.thread? k q) ∧ n.frames = s.frames ∧ s.sameMemory n ∧
      (∀ x ∈ n.acts, x.id = id → ∀ q, x.job ≠ .remote q) ∧ u.fpcnt.length = 4 ∧
      ∀ j, j < 16 → count u.fpcnt j = if j = r.path then (count t.fpcnt j + 1) % 65536 else count t.fpcnt j
    let same (u : Thread) : Prop := u = { t with fpcnt := u.fpcnt, fpAt := u.fpAt, fpPaths := u.fpPaths }
    let heardAs (n : State) : Prop := cuts n = cuts s + (if s.marked.contains r.psn then 1 else 0)
    let fails (k : Nat) (w : Word) (n : State) : Prop := ∃ u, ended n u ∧
      (r.dead = true → same u ∧ n.regions = s.regions ∧ n.deferred = s.deferred) ∧
      (r.dead = false → r.cmd = none → r.opc = 1 ∨ r.opc = 2 → t.wait = .none → t.late = [] →
        u.wait = .parked ∧ u.pc = t.pc ∧ u.g = t.g ∧ u.p = t.p ∧ u.pendG.getLsbD r.d.toNat = false ∧
        s.recorded n (s.parkRecord t t.pc ⟨432 + k, r.addr, i1, r.bundle, w⟩)) ∧
      (r.dead = false → r.cmd = none → r.opc ≠ 1 → r.opc ≠ 2 →
        u.wait = t.wait ∧ u.pc = t.pc ∧ u.g = t.g ∧ u.p = t.p ∧ u.pendG = t.pendG ∧ u.errMem = t.errMem ∧
        (t.errFab.n = 0 → u.errFab.n = 1 ∧ u.errFab.cause = BitVec.ofNat 9 (432 + k) ∧ u.errFab.i0 = r.addr ∧ u.errFab.i1 = i1 ∧ u.errFab.i3 = w) ∧
        (t.errFab.n ≠ 0 → u.errFab = { t.errFab with n := if t.errFab.n = 0xFFFF then 0xFFFF else t.errFab.n + 1 }) ∧
        (s.takesRecords a.cl r.rgn →
          n.holds ⟨432 + k, false, false, s.pstate a.cl, r.rgn, a.cl, a.slot, r.knum, 0, r.addr, i1, r.bundle, w⟩)) ∧
      (r.dead = false → ∀ cid, r.cmd = some cid → (s.acts.map (fun x => x.id)).Nodup → same u ∧
        ∀ b ∈ s.acts, ∀ e, b.job = .ending e → e.cid = cid → e.err = none →
          let i0 : Word := BitVec.ofNat 64 (a.slot + r.bundle.toNat % 65536 * 2 ^ 16 + b.cl * 2 ^ 40)
          { b with job := .ending { e with bytes := e.bytes - r.bytes.length, err := some (416 + k, i0, 0, r.addr, w) } } ∈ n.acts)
    let p := s.packetOf a.cl a.slot r
    let again (r' : Remote) (n : State) : Prop := { a with job := .remote r' } ∈ n.acts ∧ n.psn = s.psn + 1 ∧ n.threads = s.threads ∧ n.frames = s.frames ∧
      (BitVec.ofNat 15 r.target = s.pkgid → n.loop = s.loop ++ [(s.now + Config.fabricLoop, s.packetOf a.cl a.slot r')])
    (r.opc ≠ 1 → r.opc ≠ 2 → ∃ n u, exec (.remoteAck id) s = .next n ∧ ended n u ∧ same u ∧ heardAs n ∧ n.regions = s.regions) ∧
    (∀ v : Word, r.opc = 1 ∨ r.opc = 2 → r.sz ∈ [1, 2, 4, 8] → ∃ n u, exec (.remoteReturn id v) s = .next n ∧ ended n u ∧ same u ∧ heardAs n ∧
      let x : Word := if r.sext then (v.setWidth (8 * r.sz)).signExtend 64 else (v.setWidth (8 * r.sz)).setWidth 64
      n.regions = s.regions ∧ { a with job := .result (.g r.d) x none } ∈ n.acts) ∧
    (∀ (k : BitVec 3) (w : Word), 1 ≤ k.toNat → k.toNat ≤ 6 → ∃ n, exec (.remoteReject id k w) s = .next n ∧ fails k.toNat w n ∧ heardAs n) ∧
    (∃ n, exec (.retryBudgetExpiry id) s = .next n ∧ fails 7 0 n) ∧
    (r.resend = false → p.target = s.pkgid →
      exec (.retransmitTimeout id) s = .next { s with loop := s.loop ++ [(s.now + Config.fabricLoop, p)] } ∧
      ∃ n, exec (.nack id) s = .next n ∧ n.loop = s.loop ++ [(s.now + Config.fabricLoop, p)] ∧ cuts n = cuts s + 1 ∧ n.acts = s.acts ∧
        n.threads = s.threads ∧ n.frames = s.frames ∧ s.sameMemory n) ∧
    (r.resend = false → p.target ≠ s.pkgid → ∀ x, s.forward p = some x → exec (.retransmitTimeout id) s = .next x) ∧
    (r.resend = false → ∃ n, exec (.remoteRetry id) s = .next n ∧ heardAs n ∧
      (r.isWrite = false → again { r with psn := BitVec.ofNat 32 s.psn } n) ∧
      (r.isWrite = true → s.earlierWrites id a.cl a.slot r = false →
        again { r with start := true, ncount := List.replicate 16 0, psn := BitVec.ofNat 32 s.psn } n) ∧
      (r.isWrite = true → s.earlierWrites id a.cl a.slot r = true → { a with job := .remote { r with resend := true } } ∈ n.acts ∧ n.psn = s.psn ∧
        n.loop = s.loop ∧ n.hostOut = s.hostOut)))

/-- 23 R421, R422, R424 to R426, R428; 12 R268: a packet that is addressed to the package, passes its CRC and lies
inside the tables is taken up by its opcode: trimmed, or a write that the full buffer trims, it is answered NACK; one
taken up before gets the answer of the packet that it repeats, once there is one; any other is performed (a write with
OF in its stream's order). 12 R268, R273; 23 R424, R425: an inbound RLD of a key that names a region, whose page
translates and whose line is sound, answers the bytes there; a key that names none is rejected with kind 2, an address
that does not translate with kind 3, and a line in error with kind 6. 12 R268, R269, R273; 14 R317; 23 R425, R426,
R428, R429; 04 R93: what a new inbound operation of a known key, in its order or without one, leaves here. A write, an
RATOM and a copy piece whose page translates enter the store queue of the region's landing cluster as a system write
of the translated line, with their bytes or operands, or wait for one; an address that does not translate is answered
with kind 3. RSIG adds its increment to the semaphore, or is held for a cluster that is not resident; RSPAWN's request
stands last in its target's queue, or is held while that has no room, or is refused with the code of its field; both
are acknowledged when they have acted. The answer to another package goes out, is kept for a repeated packet, and
counts a write on its path. Buffer order and answers' form are the model's (log 25). 12 R268; 23 R421, R426: an
inbound write that performs leaves its bytes at its line, where they are read back, and an inbound atomic its result,
its line in error counted instead; each then waits for the endpoint, which answers it: with an acknowledgement, with
the old value, or with kind 6 and the class-7 cause. Every other byte of memory stays. -/
def Obligations.InboundPackets : Prop :=
  (∀ (s : State) (p : Packet), s.addressed p = true → p.crcBad = false → pktInTable p = true →
    ∀ x ∈ [(0, Instr.inboundRst p), (1, .inboundRld p), (2, .inboundRatom p), (3, .inboundRsig p), (4, .inboundRspawn p), (6, .inboundCopyPiece p)],
      p.opc.toNat = x.1 →
      (p.trimmed = true → exec x.2 s = .next (s.respond p 4 0 0)) ∧
      (∀ k v w, p.trimmed = false → s.seenOf p = some (some (k, v, w)) → exec x.2 s = .next (s.respond p k v w)) ∧
      (p.trimmed = false → s.seenOf p = some none → exec x.2 s = .next s) ∧
      (p.trimmed = false → s.seenOf p = none → s.bufferFull p = true → exec x.2 s = .next (s.respond p 4 0 0)) ∧
      (p.trimmed = false → s.seenOf p = none → s.bufferFull p = false →
        (pktWrite p = false → exec x.2 s = .next ((s.note p).performOp p)) ∧
        (pktWrite p = true → pktStart p = true → exec x.2 s = .next (((s.note p).startEntry p).performOp p)) ∧
        (pktWrite p = true → pktStart p = false → exec x.2 s =
          .next (if pktOf p = true then (s.note p).orderedWrite p else (s.note p).performOp p)))) ∧
  (∀ (s : State) (p : Packet), s.addressed p = true → p.crcBad = false → pktInTable p = true → p.trimmed = false → s.seenOf p = none → p.opc = 1 →
    let s1 := s.note p
    (s1.keyRegion p.fkey = none → exec (.inboundRld p) s = .next (s1.finish p 2 2 0)) ∧
    ∀ g, s1.keyRegion p.fkey = some g →
      (∀ pf, s1.translate g p.addr.toNat 0 false = .error pf → exec (.inboundRld p) s =
        .next ((s1.walkFor 256 g p.addr.toNat).finish p 2 3 (BitVec.ofNat 64 (136 + pf.kind)))) ∧
      ∀ loc k w, s1.translate g p.addr.toNat 0 false = .ok (loc, k, w) → let bad := s1.badAt g.num 0 (.global loc k w)
        let s2 := s1.touchAt (256 + locDie loc) g.num (.global loc k w)
        (bad = none → exec (.inboundRld p) s = .next (s2.finish p 1 (BitVec.ofNat 64 (fromLE (s1.hbmRead k loc (pktOpSize p)))) 0)) ∧
        (bad = some true → exec (.inboundRld p) s = .next ((s2.countCrc (locDie loc)).finish p 2 6 457)) ∧
        (bad = some false → exec (.inboundRld p) s = .next ((s2.countEcc (locDie loc)).finish p 2 6 456))) ∧
  (∀ (s : State) (p : Packet) (g : Region), s.addressed p = true → p.crcBad = false → pktInTable p = true → p.trimmed = false → s.seenOf p = none →
    s.bufferFull p = false → (pktOf p = false ∨ pktStart p = true) → s.keyRegion p.fkey = some g →
    let answered (n : State) (kind : Nat) (v w : Word) : Prop :=
      (∃ x ∈ n.seen, pktSame p x = true ∧ x.ans = some (kind, v, w)) ∧
      (p.stream.toNat % 2 ^ 15 ≠ s.pkgid.toNat → n.hostOut = s.hostOut ++ [.answer p.stream p.seq kind v w p.ce]) ∧
      (pktWrite p = true → pktStart p = false → ∀ e, s.entry? p = some e → ∃ e', n.entry? p = some e' ∧
        e'.counts = e.counts.set (p.ev.toNat % 16) (nth e.counts (p.ev.toNat % 16) 0 + 1))
    let lands (loc key : Nat) (w : Walked) (kind : WriteKind) (n : State) : Prop := n.hostOut = s.hostOut ∧ n.threads = s.threads ∧ s.sameMemory n ∧
      (∀ c, s.landingOf g.num = some c → getK n.landing g.num 0 = c + 1 ∧ ∃ y ∈ n.acts, ∃ e v, y.cl = c ∧ y.slot = 512 ∧ y.job = .entry e ∧
        e.cls = 2 ∧ e.queued = true ∧ e.rgn = g.num ∧ e.ack = some p ∧ e.release = pktOf p ∧ e.line = .global (loc / 64 * 64) key v ∧ e.kind = kind) ∧
      (s.landingOf g.num = none → n.inbuf = s.inbuf ++ [(g.num, .global loc key w, p)])
    let operand (i len : Nat) : Word := BitVec.ofNat 64 (fromLE ((p.payload.drop i).take len))
    let outcome (i : Instr) (access : Nat) (kind : Nat → WriteKind) : Prop :=
      (∀ loc key w, s.translate g p.addr.toNat access false = .ok (loc, key, w) → ∃ n, exec i s = .next n ∧ lands loc key w (kind loc) n) ∧
      ∀ pf, s.translate g p.addr.toNat access false = .error pf → ∃ n, exec i s = .next n ∧ answered n 2 3 (BitVec.ofNat 64 (136 + pf.kind))
    (p.opc = 0 → outcome (.inboundRst p) 1 (fun loc =>
      .data ((List.range p.payload.length).map (fun k => (loc % 64 + k, p.payload.getD k 0))))) ∧
    (p.opc = 6 → outcome (.inboundCopyPiece p) 1 (fun _ =>
      .data (((List.range 64).filter (fun k => (fromLE (p.payload.take 8)).testBit k)).map (fun k => (k, p.payload.getD (8 + k) 0))))) ∧
    (p.opc = 2 → outcome (.inboundRatom p) 2 (fun loc => let sz := if p.arg.getLsbD 4 then 8 else 4
      .atomic (loc % 64) sz (p.arg.toNat % 16) (operand 0 sz) (operand sz p.payload.length) 0)) ∧
    (p.opc = 3 → let knum := field p.addr 32 6
      let cl := field p.addr 16 8
      let k := field p.addr 0 8
      ∀ f h, s.anyFrameOf g.num knum = some f → inSet f.set cl = true → k < f.hdr.ksems → s.frame? cl g.num knum = some h →
        (h.stopped = true → ∃ n, exec (.inboundRsig p) s = .next n ∧ n.heldSig = s.heldSig ++ [(g.num, p)] ∧ n.frames = s.frames ∧ n.hostOut = s.hostOut) ∧
        (h.stopped = false → k < h.sems.length → s.semWaiters cl g.num knum k = [] → ∃ n h', exec (.inboundRsig p) s = .next n ∧
          n.frame? cl g.num knum = some h' ∧ h' = { h with sems := h.sems.set k ((h.sem k).signal (fromLE p.payload)) } ∧ n.threads = s.threads ∧
          s.sameMemory n ∧ answered n 0 0 0)) ∧
    (p.opc = 4 → ∀ f, s.anyFrameOf g.num (field p.addr 32 6) = some f →
      let t := if p.addr.getLsbD 8 then s.resolveAny g.num f.knum f.set else field p.addr 0 8
      let q : SpawnReq := {
        rgn := g.num, knum := field p.addr 32 6, target := t, entry := field p.addr 9 3,
        args := [operand 0 8, operand 8 8, operand 16 8, operand 24 8],
        join := if p.addr.getLsbD 15 then some (field p.addr 24 8, field p.addr 16 8) else none,
        bpri := (operand 32 1).setWidth 3, swlim := (operand 33 4).setWidth 32, spwlim := (operand 37 4).setWidth 32, origin := 1 }
      (spawnRefusal f p.addr ≠ 0 → ∃ n, exec (.inboundRspawn p) s = .next n ∧ answered n 2 4 (BitVec.ofNat 64 (spawnRefusal f p.addr))) ∧
      (spawnRefusal f p.addr = 0 → s.spawnFits q = true → ∃ n, exec (.inboundRspawn p) s = .next n ∧
        (n.clu t).spawnq = (s.clu t).spawnq ++ [q] ∧ n.threads = s.threads ∧ n.frames = s.frames ∧ answered n 0 0 0) ∧
      (spawnRefusal f p.addr = 0 → s.spawnFits q = false →
        (s.heldSpawn.length < 256 → ∃ n, exec (.inboundRspawn p) s = .next n ∧ n.heldSpawn = s.heldSpawn ++ [(q, p)] ∧ n.clus = s.clus) ∧
        (256 ≤ s.heldSpawn.length → ∃ n, exec (.inboundRspawn p) s = .next n ∧ answered n 3 0 0 ∧ n.clus = s.clus)))) ∧
  ((∀ (s : State) (id : Nat) (a : Act) (e : Entry) (p : Packet) (loc key : Nat) (w : Walked), s.memsOk = true → s.act? id = some a → a.id = id →
    s.mayPerform a = some e → e.ack = some p → e.line = .global loc key w → loc % 64 = 0 → (s.keyOf key).isSome = true →
    (∀ bs, e.kind = .data bs → (∀ x ∈ bs, x.1 < 64) → (bs.map (fun x => x.1)).Nodup → ∃ n, exec (.writePerform id false) s = .next n ∧
      n.settled = s.settled ++ [(p, 0, 0)] ∧ (∀ x ∈ bs, ∀ rgn knum v, n.readByte rgn knum (.global (loc + x.1) key v) = x.2) ∧
      (∀ l v rgn knum, (∀ x ∈ bs, l ≠ loc + x.1) → n.readByte rgn knum (.global l key v) = s.readByte rgn knum (.global l key v)) ∧
      (∀ l k v rgn knum, l / 64 ≠ loc / 64 → n.readByte rgn knum (.global l k v) = s.readByte rgn knum (.global l k v)) ∧
      n.threads = s.threads ∧ n.frames = s.frames ∧ n.hostMem = s.hostMem) ∧
    ∀ off sz op x y d, e.kind = .atomic off sz op x y d → off + sz ≤ 64 →
      let old := fromLE (s.readAt e.rgn e.knum (e.line.plus off) sz)
      (s.badAt e.rgn e.knum (e.line.plus off) = none → ∃ n, exec (.writePerform id false) s = .next n ∧ n.settled = s.settled ++ [(p, 0, old)] ∧
        (∀ v, atomicNew op sz old (x.toNat % 2 ^ (8 * sz)) (y.toNat % 2 ^ (8 * sz)) = some v →
          n.readAt e.rgn e.knum (e.line.plus off) sz = leBytes sz v) ∧
        (atomicNew op sz old (x.toNat % 2 ^ (8 * sz)) (y.toNat % 2 ^ (8 * sz)) = none → s.sameMemory n) ∧ n.threads = s.threads ∧ n.frames = s.frames) ∧
      ∀ crc, s.badAt e.rgn e.knum (e.line.plus off) = some crc → ∃ n, exec (.writePerform id false) s = .next n ∧ s.sameMemory n ∧
        n.settled = s.settled ++ [(p, if crc then 457 else 456, 0)]) ∧
  ∀ (s : State) (p : Packet) (cause old : Nat) (rest : List (Packet × Nat × Nat)), s.agenda = [] → s.auto = true → s.windowEvent = none →
    s.dueEvent s.acts = none → s.stateEvent = none → s.settled = (p, cause, old) :: rest → p.stream.toNat % 2 ^ 15 ≠ s.pkgid.toNat →
    ∃ n, step s = .next n ∧ n.settled = rest ∧ n.hostOut = s.hostOut ++ [if cause ≠ 0 then .answer p.stream p.seq 2 6 (BitVec.ofNat 64 cause) p.ce
      else if p.opc = 2 then .answer p.stream p.seq 1 (BitVec.ofNat 64 old) 0 p.ce else .answer p.stream p.seq 0 0 0 p.ce])

/-- 23 R417 to R430: a link's change is shown and counted; a packet for another package is forwarded; one that fails
its CRC is dropped and counted as such; one that arrives foreign from a row port, lies outside the tables or has no
port to go by is dropped and counted; what is held too long is discarded, and a stream entry without a held write. 23
R417, R419, R420, R422, R430: how the switch forwards. Within the pod a packet leaves by the up port of a productive
direction (that of the shorter way round, both at distance 8) that has the fewest bytes queued, a tie going by the
entropy value; one in an escape channel, which a packet enters where it finds no free adaptive buffer (the hardware's
choice), goes in the order X, Y, Z and changes channel from coordinate 15 to 0. With no such port it makes a hop in
the + direction of the lowest non-productive dimension, at most two; another pod's leaves by the network port that its
entropy selects among those up. A queue of 64 KiB marks it, and one of 512 KiB trims it to its headers and makes it
urgent. One that can make no hop is dropped and counted. That a mismatch in leaving is counted, and the packet not
sent, is log 18's. -/
def Obligations.SwitchAndHoldEvents : Prop :=
  (∀ (s : State) (port : Nat) (p : Packet),
    let crc (o : Host.Outcome State Fault Refusal) : Prop := ∃ n, o = .next n ∧ (n.eport port).crc = satInc (s.eport port).crc ∧
      (n.eport port).drops = (s.eport port).drops ∧ n.hostOut = s.hostOut ∧ n.threads = s.threads ∧ s.sameMemory n
    let drop (o : Host.Outcome State Fault Refusal) : Prop := ∃ n, o = .next n ∧ (n.eport port).drops = satInc (s.eport port).drops ∧
      (n.eport port).crc = (s.eport port).crc ∧ n.hostOut = s.hostOut ∧ n.threads = s.threads ∧ s.sameMemory n
    (∀ up, port < 16 → ((s.eport port).up ≠ up → ∃ n, exec (.linkChange port up) s = .next n ∧ (n.eport port).up = up ∧
        (n.eport port).changes = satInc (s.eport port).changes ∧ n.threads = s.threads ∧ s.sameMemory n) ∧
      ((s.eport port).up = up → exec (.linkChange port up) s = .next s)) ∧
    (s.addressed p = false → (p.crcBad = true → crc (exec (.transitPacket port p) s)) ∧
      (p.crcBad = false → (s.foreign p = true → 12 ≤ port → drop (exec (.transitPacket port p) s)) ∧
        (¬ (s.foreign p = true ∧ 12 ≤ port) → (∀ n, s.forward p = some n → exec (.transitPacket port p) s = .next n) ∧
          (s.forward p = none → drop (exec (.transitPacket port p) s))))) ∧
    (p.crcBad = true → crc (exec (.inboundDroppedPacket port p) s)) ∧
    (p.crcBad = false → s.addressed p = true → pktInTable p = false → drop (exec (.inboundDroppedPacket port p) s)) ∧
    ∀ k, exec (.ofHoldExpiry k) s = .next { s with heldOf := s.heldOf.eraseIdx k } ∧
      exec (.rspawnHoldExpiry k) s = .next { s with heldSpawn := s.heldSpawn.eraseIdx k } ∧
      exec (.rsigHoldExpiry k) s = .next { s with heldSig := s.heldSig.eraseIdx k } ∧
      ∀ e, s.entries[k]? = some e →
        ((∀ q ∈ s.heldOf, ¬ (q.stream = e.stream ∧ q.fkey = e.fkey)) → exec (.streamEntryDiscard k) s = .next { s with entries := s.entries.eraseIdx k }) ∧
        ((∃ q ∈ s.heldOf, q.stream = e.stream ∧ q.fkey = e.fkey) → exec (.streamEntryDiscard k) s = .next s)) ∧
  (∀ (s : State) (inp : Nat) (p : Packet), s.addressed p = false → p.crcBad = false → ¬ (s.foreign p = true ∧ 12 ≤ inp) →
    let me := s.pkgid.toNat
    let tgt := p.target.toNat
    let d (k : Nat) : Nat := (tgt / 16 ^ k % 16 + 16 - me / 16 ^ k % 16) % 16
    let up (q : Nat) : Bool := (s.eport q).up
    let queue (q : Nat) : Nat := (s.eport q).queued - 181 * (s.now - (s.eport q).at_)
    let good := (List.range 12).filter (fun q => up q && (if q % 4 < 2 then decide (1 ≤ d (q / 4) ∧ d (q / 4) ≤ 8) else decide (8 ≤ d (q / 4))))
    let fewest (l : List Nat) : List Nat := l.filter (fun q => l.all (fun x => decide (queue q ≤ queue x)))
    let picked (l : List Nat) : Option Nat := l[p.ev.toNat % l.length]?
    let sent (n : State) (q vc hops : Nat) : Prop :=
      let b := queue q
      let p1 : Packet := { p with
        hops := hops, vc := if vc = 1 ∧ q % 4 < 2 ∧ me / 16 ^ (q / 4) % 16 = 15 then 2 else vc, ce := p.ce || decide (65536 ≤ b),
        trimmed := p.trimmed || decide (524288 ≤ b), urgent := p.urgent || decide (524288 ≤ b),
        payload := if 524288 ≤ b then [] else p.payload }
      n.threads = s.threads ∧ s.sameMemory n ∧
      (s.txBad.contains q = true → n.hostOut = s.hostOut ∧ (n.eport q).crc = satInc (s.eport q).crc) ∧
      (s.txBad.contains q = false → n.hostOut = s.hostOut ++ [.packet p1 q] ∧ (n.eport q).queued = b + packetSize p1 ∧ (n.eport q).at_ = s.now)
    let goes (l : Nat → List Nat) (hops : Nat) : Prop := ∃ n q vc, exec (.transitPacket inp p) s = .next n ∧ (vc = p.vc ∨ p.vc = 0 ∧ vc = 1) ∧
      picked (l vc) = some q ∧ sent n q vc hops
    let dropped : Prop := ∃ n, exec (.transitPacket inp p) s = .next n ∧ n.hostOut = s.hostOut ∧
      (n.eport inp).drops = satInc (s.eport inp).drops ∧ n.threads = s.threads ∧ s.sameMemory n
    (me / 4096 = tgt / 4096 → good ≠ [] →
      goes (fun vc => fewest (if vc = 0 then good else good.filter (fun q => q / 4 == (good.head?.getD 0) / 4))) p.hops) ∧
    (me / 4096 = tgt / 4096 → good = [] → p.hops < 2 → ∀ k, k < 3 → d k = 0 → (up (4 * k) || up (4 * k + 1)) = true →
      (∀ j, j < k → d j = 0 → (up (4 * j) || up (4 * j + 1)) = false) → goes (fun _ => fewest ([4 * k, 4 * k + 1].filter up)) (p.hops + 1)) ∧
    (me / 4096 = tgt / 4096 → good = [] → (2 ≤ p.hops ∨ ∀ k, k < 3 → d k = 0 → (up (4 * k) || up (4 * k + 1)) = false) → dropped) ∧
    (me / 4096 ≠ tgt / 4096 → ([12, 13, 14, 15].filter up ≠ [] → goes (fun _ => [12, 13, 14, 15].filter up) p.hops) ∧
      ([12, 13, 14, 15].filter up = [] → dropped)))
end

