-- ==== Sys2Proof/Laws/Decode.lean ====
section
/-! SUPPORT. Fields of words put together, and the decoder by major: for the encoding statements. -/

namespace Sys2Proof

/-- A field above the low part lies in the high part. -/
theorem extract_append_high {m n lo len : Nat} (u : BitVec m) (v : BitVec n) (h : n ≤ lo) :
    (u ++ v).extractLsb' lo len = u.extractLsb' (lo - n) len := by
  ext i hi
  simp only [BitVec.getElem_extractLsb', BitVec.getLsbD_append]
  have : ¬ lo + i < n := by omega
  simp [this]; congr 1; omega

/-- A field inside the low part is that part's. -/
theorem extract_append_low {m n lo len : Nat} (u : BitVec m) (v : BitVec n) (h : lo + len ≤ n) :
    (u ++ v).extractLsb' lo len = v.extractLsb' lo len := by
  ext i hi
  simp only [BitVec.getElem_extractLsb', BitVec.getLsbD_append]
  have : lo + i < n := by omega
  simp [this]

/-- The whole of a value is that value. -/
theorem extract_all {n : Nat} (v : BitVec n) : v.extractLsb' 0 n = v := by
  ext i hi; simp

theorem decodeWord_major00 (w : Insn) (h : x w 24 6 = 0x00#6) : decodeWord w = decode00 w := by
  unfold decodeWord; rw [h]; rfl

theorem decodeWord_major01 (w : Insn) (h : x w 24 6 = 0x01#6) : decodeWord w = decode01 w := by
  unfold decodeWord; rw [h]; rfl

theorem decodeWord_major02 (w : Insn) (h : x w 24 6 = 0x02#6) : decodeWord w = decode02 w := by
  unfold decodeWord; rw [h]; rfl

theorem decodeWord_major03 (w : Insn) (h : x w 24 6 = 0x03#6) : decodeWord w = decode03 w := by
  unfold decodeWord; rw [h]; rfl

theorem decodeWord_major04 (w : Insn) (h : x w 24 6 = 0x04#6) : decodeWord w = decode04 w := by
  unfold decodeWord; rw [h]; rfl

theorem decodeWord_major05 (w : Insn) (h : x w 24 6 = 0x05#6) : decodeWord w = decode05 w := by
  unfold decodeWord; rw [h]; rfl

theorem decodeWord_major06 (w : Insn) (h : x w 24 6 = 0x06#6) : decodeWord w = decode06 w := by
  unfold decodeWord; rw [h]; rfl

theorem decodeWord_major07 (w : Insn) (h : x w 24 6 = 0x07#6) : decodeWord w = decode07 w := by
  unfold decodeWord; rw [h]; rfl

theorem decodeWord_major08 (w : Insn) (h : x w 24 6 = 0x08#6) : decodeWord w = decode08 w := by
  unfold decodeWord; rw [h]; rfl

theorem decodeWord_major09 (w : Insn) (h : x w 24 6 = 0x09#6) : decodeWord w = decode09 w := by
  unfold decodeWord; rw [h]; rfl

theorem decodeWord_major0A (w : Insn) (h : x w 24 6 = 0x0A#6) : decodeWord w = decode0A w := by
  unfold decodeWord; rw [h]; rfl

theorem decodeWord_major0B (w : Insn) (h : x w 24 6 = 0x0B#6) : decodeWord w = decode0B w := by
  unfold decodeWord; rw [h]; rfl

theorem decodeWord_major0C (w : Insn) (h : x w 24 6 = 0x0C#6) : decodeWord w = decode0C w := by
  unfold decodeWord; rw [h]; rfl

theorem decodeWord_major18 (w : Insn) (h : x w 24 6 = 0x18#6) : decodeWord w = decode18 w := by
  unfold decodeWord; rw [h]; rfl

theorem decodeWord_major19 (w : Insn) (h : x w 24 6 = 0x19#6) : decodeWord w = decode19 w := by
  unfold decodeWord; rw [h]; rfl

theorem decodeWord_major1A (w : Insn) (h : x w 24 6 = 0x1A#6) : decodeWord w = decode1A w := by
  unfold decodeWord; rw [h]; rfl

theorem decodeWord_major1B (w : Insn) (h : x w 24 6 = 0x1B#6) : decodeWord w = decode1B w := by
  unfold decodeWord; rw [h]; rfl

theorem decodeWord_major1C (w : Insn) (h : x w 24 6 = 0x1C#6) : decodeWord w = decode1C w := by
  unfold decodeWord; rw [h]; rfl

theorem decodeWord_major1D (w : Insn) (h : x w 24 6 = 0x1D#6) : decodeWord w = decode1D w := by
  unfold decodeWord; rw [h]; rfl

theorem decodeWord_major1E (w : Insn) (h : x w 24 6 = 0x1E#6) : decodeWord w = decode1E w := by
  unfold decodeWord; rw [h]; rfl

theorem decodeWord_major1F (w : Insn) (h : x w 24 6 = 0x1F#6) : decodeWord w = decode1F w := by
  unfold decodeWord; rw [h]; rfl

theorem decodeWord_major20 (w : Insn) (h : x w 24 6 = 0x20#6) : decodeWord w = decode20 w := by
  unfold decodeWord; rw [h]; rfl

theorem decodeWord_major21 (w : Insn) (h : x w 24 6 = 0x21#6) : decodeWord w = decode21 w := by
  unfold decodeWord; rw [h]; rfl

theorem decodeWord_major22 (w : Insn) (h : x w 24 6 = 0x22#6) : decodeWord w = decode22 w := by
  unfold decodeWord; rw [h]; rfl

theorem decodeWord_major23 (w : Insn) (h : x w 24 6 = 0x23#6) : decodeWord w = decode23 w := by
  unfold decodeWord; rw [h]; rfl

theorem decodeWord_major24 (w : Insn) (h : x w 24 6 = 0x24#6) : decodeWord w = decode24 w := by
  unfold decodeWord; rw [h]; rfl

theorem decodeWord_major28 (w : Insn) (h : x w 24 6 = 0x28#6) : decodeWord w = decode28 w := by
  unfold decodeWord; rw [h]; rfl

theorem decodeWord_major29 (w : Insn) (h : x w 24 6 = 0x29#6) : decodeWord w = decode29 w := by
  unfold decodeWord; rw [h]; rfl

theorem decodeWord_major2A (w : Insn) (h : x w 24 6 = 0x2A#6) : decodeWord w = decode2A w := by
  unfold decodeWord; rw [h]; rfl

theorem decodeWord_major2B (w : Insn) (h : x w 24 6 = 0x2B#6) : decodeWord w = decode2B w := by
  unfold decodeWord; rw [h]; rfl

theorem decodeWord_major2C (w : Insn) (h : x w 24 6 = 0x2C#6) : decodeWord w = decode2C w := by
  unfold decodeWord; rw [h]; rfl

theorem decodeWord_major2D (w : Insn) (h : x w 24 6 = 0x2D#6) : decodeWord w = decode2D w := by
  unfold decodeWord; rw [h]; rfl

theorem decodeWord_major2E (w : Insn) (h : x w 24 6 = 0x2E#6) : decodeWord w = decode2E w := by
  unfold decodeWord; rw [h]; rfl

theorem decodeWord_major2F (w : Insn) (h : x w 24 6 = 0x2F#6) : decodeWord w = decode2F w := by
  unfold decodeWord; rw [h]; rfl

theorem decodeWord_major30 (w : Insn) (h : x w 24 6 = 0x30#6) : decodeWord w = decode30 w := by
  unfold decodeWord; rw [h]; rfl

theorem decodeWord_major31 (w : Insn) (h : x w 24 6 = 0x31#6) : decodeWord w = decode31 w := by
  unfold decodeWord; rw [h]; rfl

theorem decodeWord_major32 (w : Insn) (h : x w 24 6 = 0x32#6) : decodeWord w = decode32 w := by
  unfold decodeWord; rw [h]; rfl

theorem decodeWord_major33 (w : Insn) (h : x w 24 6 = 0x33#6) : decodeWord w = decode33 w := by
  unfold decodeWord; rw [h]; rfl

end Sys2Proof
end

