-- ==== Sys2Proof/Laws/State.lean ====
section
/-! SUPPORT. One lemma for each field that an update of the state leaves as it was, true by unfolding. -/

namespace Sys2Proof.Machine

@[simp] theorem State.modThread_time (s : State) (cl slot : Nat) (f : Thread → Thread) : (s.modThread cl slot f).time = s.time := rfl
@[simp] theorem State.modThread_pkgid (s : State) (cl slot : Nat) (f : Thread → Thread) : (s.modThread cl slot f).pkgid = s.pkgid := rfl
@[simp] theorem State.modThread_netId (s : State) (cl slot : Nat) (f : Thread → Thread) : (s.modThread cl slot f).netId = s.netId := rfl
@[simp] theorem State.modThread_iface (s : State) (cl slot : Nat) (f : Thread → Thread) : (s.modThread cl slot f).iface = s.iface := rfl
@[simp] theorem State.modThread_bootstat (s : State) (cl slot : Nat) (f : Thread → Thread) : (s.modThread cl slot f).bootstat = s.bootstat := rfl
@[simp] theorem State.modThread_hostmem (s : State) (cl slot : Nat) (f : Thread → Thread) : (s.modThread cl slot f).hostmem = s.hostmem := rfl
@[simp] theorem State.modThread_hdmBase (s : State) (cl slot : Nat) (f : Thread → Thread) : (s.modThread cl slot f).hdmBase = s.hdmBase := rfl
@[simp] theorem State.modThread_nbrlost (s : State) (cl slot : Nat) (f : Thread → Thread) : (s.modThread cl slot f).nbrlost = s.nbrlost := rfl
@[simp] theorem State.modThread_nbrvec (s : State) (cl slot : Nat) (f : Thread → Thread) : (s.modThread cl slot f).nbrvec = s.nbrvec := rfl
@[simp] theorem State.modThread_rcmd (s : State) (cl slot : Nat) (f : Thread → Thread) : (s.modThread cl slot f).rcmd = s.rcmd := rfl
@[simp] theorem State.modThread_rstat (s : State) (cl slot : Nat) (f : Thread → Thread) : (s.modThread cl slot f).rstat = s.rstat := rfl
@[simp] theorem State.modThread_ccmdDesc (s : State) (cl slot : Nat) (f : Thread → Thread) : (s.modThread cl slot f).ccmdDesc = s.ccmdDesc := rfl
@[simp] theorem State.modThread_ccmd (s : State) (cl slot : Nat) (f : Thread → Thread) : (s.modThread cl slot f).ccmd = s.ccmd := rfl
@[simp] theorem State.modThread_bcmdDesc (s : State) (cl slot : Nat) (f : Thread → Thread) : (s.modThread cl slot f).bcmdDesc = s.bcmdDesc := rfl
@[simp] theorem State.modThread_bcmd (s : State) (cl slot : Nat) (f : Thread → Thread) : (s.modThread cl slot f).bcmd = s.bcmd := rfl
@[simp] theorem State.modThread_mbcmd (s : State) (cl slot : Nat) (f : Thread → Thread) : (s.modThread cl slot f).mbcmd = s.mbcmd := rfl
@[simp] theorem State.modThread_mbstat (s : State) (cl slot : Nat) (f : Thread → Thread) : (s.modThread cl slot f).mbstat = s.mbstat := rfl
@[simp] theorem State.modThread_rollback (s : State) (cl slot : Nat) (f : Thread → Thread) : (s.modThread cl slot f).rollback = s.rollback := rfl
@[simp] theorem State.modThread_firmware (s : State) (cl slot : Nat) (f : Thread → Thread) : (s.modThread cl slot f).firmware = s.firmware := rfl
@[simp] theorem State.modThread_fwDigest (s : State) (cl slot : Nat) (f : Thread → Thread) : (s.modThread cl slot f).fwDigest = s.fwDigest := rfl
@[simp] theorem State.modThread_fusedKey (s : State) (cl slot : Nat) (f : Thread → Thread) : (s.modThread cl slot f).fusedKey = s.fusedKey := rfl
@[simp] theorem State.modThread_attestUsed (s : State) (cl slot : Nat) (f : Thread → Thread) : (s.modThread cl slot f).attestUsed = s.attestUsed := rfl
@[simp] theorem State.modThread_kemSeed (s : State) (cl slot : Nat) (f : Thread → Thread) : (s.modThread cl slot f).kemSeed = s.kemSeed := rfl
@[simp] theorem State.modThread_badPhys (s : State) (cl slot : Nat) (f : Thread → Thread) : (s.modThread cl slot f).badPhys = s.badPhys := rfl
@[simp] theorem State.modThread_entries (s : State) (cl slot : Nat) (f : Thread → Thread) : (s.modThread cl slot f).entries = s.entries := rfl
@[simp] theorem State.modThread_heldOf (s : State) (cl slot : Nat) (f : Thread → Thread) : (s.modThread cl slot f).heldOf = s.heldOf := rfl
@[simp] theorem State.modThread_heldSpawn (s : State) (cl slot : Nat) (f : Thread → Thread) : (s.modThread cl slot f).heldSpawn = s.heldSpawn := rfl
@[simp] theorem State.modThread_heldSig (s : State) (cl slot : Nat) (f : Thread → Thread) : (s.modThread cl slot f).heldSig = s.heldSig := rfl
@[simp] theorem State.modThread_txBad (s : State) (cl slot : Nat) (f : Thread → Thread) : (s.modThread cl slot f).txBad = s.txBad := rfl
@[simp] theorem State.modThread_inbuf (s : State) (cl slot : Nat) (f : Thread → Thread) : (s.modThread cl slot f).inbuf = s.inbuf := rfl
@[simp] theorem State.modThread_loop (s : State) (cl slot : Nat) (f : Thread → Thread) : (s.modThread cl slot f).loop = s.loop := rfl
@[simp] theorem State.modThread_landing (s : State) (cl slot : Nat) (f : Thread → Thread) : (s.modThread cl slot f).landing = s.landing := rfl
@[simp] theorem State.modThread_refreshed (s : State) (cl slot : Nat) (f : Thread → Thread) : (s.modThread cl slot f).refreshed = s.refreshed := rfl
@[simp] theorem State.modThread_msc (s : State) (cl slot : Nat) (f : Thread → Thread) : (s.modThread cl slot f).msc = s.msc := rfl
@[simp] theorem State.modThread_quiet (s : State) (cl slot : Nat) (f : Thread → Thread) : (s.modThread cl slot f).quiet = s.quiet := rfl
@[simp] theorem State.modThread_teardowns (s : State) (cl slot : Nat) (f : Thread → Thread) : (s.modThread cl slot f).teardowns = s.teardowns := rfl
@[simp] theorem State.modThread_hostBad (s : State) (cl slot : Nat) (f : Thread → Thread) : (s.modThread cl slot f).hostBad = s.hostBad := rfl
@[simp] theorem State.modThread_clmap (s : State) (cl slot : Nat) (f : Thread → Thread) : (s.modThread cl slot f).clmap = s.clmap := rfl
@[simp] theorem State.modThread_awaiting (s : State) (cl slot : Nat) (f : Thread → Thread) : (s.modThread cl slot f).awaiting = s.awaiting := rfl
@[simp] theorem State.modThread_fusedBad (s : State) (cl slot : Nat) (f : Thread → Thread) : (s.modThread cl slot f).fusedBad = s.fusedBad := rfl
@[simp] theorem State.modThread_fencedPhys (s : State) (cl slot : Nat) (f : Thread → Thread) : (s.modThread cl slot f).fencedPhys = s.fencedPhys := rfl
@[simp] theorem State.modThread_fencedLog (s : State) (cl slot : Nat) (f : Thread → Thread) : (s.modThread cl slot f).fencedLog = s.fencedLog := rfl
@[simp] theorem State.modThread_psn (s : State) (cl slot : Nat) (f : Thread → Thread) : (s.modThread cl slot f).psn = s.psn := rfl
@[simp] theorem State.modThread_marked (s : State) (cl slot : Nat) (f : Thread → Thread) : (s.modThread cl slot f).marked = s.marked := rfl
@[simp] theorem State.modThread_hostWBad (s : State) (cl slot : Nat) (f : Thread → Thread) : (s.modThread cl slot f).hostWBad = s.hostWBad := rfl
@[simp] theorem State.modThread_eccFix (s : State) (cl slot : Nat) (f : Thread → Thread) : (s.modThread cl slot f).eccFix = s.eccFix := rfl
@[simp] theorem State.modThread_tlb (s : State) (cl slot : Nat) (f : Thread → Thread) : (s.modThread cl slot f).tlb = s.tlb := rfl
@[simp] theorem State.modThread_ckpts (s : State) (cl slot : Nat) (f : Thread → Thread) : (s.modThread cl slot f).ckpts = s.ckpts := rfl
@[simp] theorem State.modThread_ckJobs (s : State) (cl slot : Nat) (f : Thread → Thread) : (s.modThread cl slot f).ckJobs = s.ckJobs := rfl
@[simp] theorem State.modThread_hbm (s : State) (cl slot : Nat) (f : Thread → Thread) : (s.modThread cl slot f).hbm = s.hbm := rfl
@[simp] theorem State.modThread_lineKey (s : State) (cl slot : Nat) (f : Thread → Thread) : (s.modThread cl slot f).lineKey = s.lineKey := rfl
@[simp] theorem State.modThread_hostMem (s : State) (cl slot : Nat) (f : Thread → Thread) : (s.modThread cl slot f).hostMem = s.hostMem := rfl
@[simp] theorem State.modThread_regions (s : State) (cl slot : Nat) (f : Thread → Thread) : (s.modThread cl slot f).regions = s.regions := rfl
@[simp] theorem State.modThread_frames (s : State) (cl slot : Nat) (f : Thread → Thread) : (s.modThread cl slot f).frames = s.frames := rfl
@[simp] theorem State.modThread_phys (s : State) (cl slot : Nat) (f : Thread → Thread) : (s.modThread cl slot f).phys = s.phys := rfl
@[simp] theorem State.modThread_pairs (s : State) (cl slot : Nat) (f : Thread → Thread) : (s.modThread cl slot f).pairs = s.pairs := rfl
@[simp] theorem State.modThread_clus (s : State) (cl slot : Nat) (f : Thread → Thread) : (s.modThread cl slot f).clus = s.clus := rfl
@[simp] theorem State.modThread_dies (s : State) (cl slot : Nat) (f : Thread → Thread) : (s.modThread cl slot f).dies = s.dies := rfl
@[simp] theorem State.modThread_keys (s : State) (cl slot : Nat) (f : Thread → Thread) : (s.modThread cl slot f).keys = s.keys := rfl
@[simp] theorem State.modThread_lanes (s : State) (cl slot : Nat) (f : Thread → Thread) : (s.modThread cl slot f).lanes = s.lanes := rfl
@[simp] theorem State.modThread_cmds (s : State) (cl slot : Nat) (f : Thread → Thread) : (s.modThread cl slot f).cmds = s.cmds := rfl
@[simp] theorem State.modThread_acts (s : State) (cl slot : Nat) (f : Thread → Thread) : (s.modThread cl slot f).acts = s.acts := rfl
@[simp] theorem State.modThread_streams (s : State) (cl slot : Nat) (f : Thread → Thread) : (s.modThread cl slot f).streams = s.streams := rfl
@[simp] theorem State.modThread_eports (s : State) (cl slot : Nat) (f : Thread → Thread) : (s.modThread cl slot f).eports = s.eports := rfl
@[simp] theorem State.modThread_msixTable (s : State) (cl slot : Nat) (f : Thread → Thread) : (s.modThread cl slot f).msixTable = s.msixTable := rfl
@[simp] theorem State.modThread_msixPend (s : State) (cl slot : Nat) (f : Thread → Thread) : (s.modThread cl slot f).msixPend = s.msixPend := rfl
@[simp] theorem State.modThread_hostWrites (s : State) (cl slot : Nat) (f : Thread → Thread) : (s.modThread cl slot f).hostWrites = s.hostWrites := rfl
@[simp] theorem State.modThread_seen (s : State) (cl slot : Nat) (f : Thread → Thread) : (s.modThread cl slot f).seen = s.seen := rfl
@[simp] theorem State.modThread_settled (s : State) (cl slot : Nat) (f : Thread → Thread) : (s.modThread cl slot f).settled = s.settled := rfl
@[simp] theorem State.modThread_rows (s : State) (cl slot : Nat) (f : Thread → Thread) : (s.modThread cl slot f).rows = s.rows := rfl
@[simp] theorem State.modThread_deferred (s : State) (cl slot : Nat) (f : Thread → Thread) : (s.modThread cl slot f).deferred = s.deferred := rfl
@[simp] theorem State.modThread_hostOut (s : State) (cl slot : Nat) (f : Thread → Thread) : (s.modThread cl slot f).hostOut = s.hostOut := rfl
@[simp] theorem State.modThread_eccG (s : State) (cl slot : Nat) (f : Thread → Thread) : (s.modThread cl slot f).eccG = s.eccG := rfl
@[simp] theorem State.modThread_bad (s : State) (cl slot : Nat) (f : Thread → Thread) : (s.modThread cl slot f).bad = s.bad := rfl
@[simp] theorem State.modThread_away (s : State) (cl slot : Nat) (f : Thread → Thread) : (s.modThread cl slot f).away = s.away := rfl
@[simp] theorem State.modThread_cur (s : State) (cl slot : Nat) (f : Thread → Thread) : (s.modThread cl slot f).cur = s.cur := rfl
@[simp] theorem State.modThread_agenda (s : State) (cl slot : Nat) (f : Thread → Thread) : (s.modThread cl slot f).agenda = s.agenda := rfl
@[simp] theorem State.modThread_auto (s : State) (cl slot : Nat) (f : Thread → Thread) : (s.modThread cl slot f).auto = s.auto := rfl
@[simp] theorem State.modThread_now (s : State) (cl slot : Nat) (f : Thread → Thread) : (s.modThread cl slot f).now = s.now := rfl
@[simp] theorem State.modThread_turn (s : State) (cl slot : Nat) (f : Thread → Thread) : (s.modThread cl slot f).turn = s.turn := rfl
@[simp] theorem State.modThread_seq (s : State) (cl slot : Nat) (f : Thread → Thread) : (s.modThread cl slot f).seq = s.seq := rfl
@[simp] theorem State.modThread_free (s : State) (cl slot : Nat) (f : Thread → Thread) : (s.modThread cl slot f).free = s.free := rfl

@[simp] theorem State.modFrame_time (s : State) (cl rgn knum : Nat) (f : Frame → Frame) : (s.modFrame cl rgn knum f).time = s.time := rfl
@[simp] theorem State.modFrame_pkgid (s : State) (cl rgn knum : Nat) (f : Frame → Frame) : (s.modFrame cl rgn knum f).pkgid = s.pkgid := rfl
@[simp] theorem State.modFrame_netId (s : State) (cl rgn knum : Nat) (f : Frame → Frame) : (s.modFrame cl rgn knum f).netId = s.netId := rfl
@[simp] theorem State.modFrame_iface (s : State) (cl rgn knum : Nat) (f : Frame → Frame) : (s.modFrame cl rgn knum f).iface = s.iface := rfl
@[simp] theorem State.modFrame_bootstat (s : State) (cl rgn knum : Nat) (f : Frame → Frame) : (s.modFrame cl rgn knum f).bootstat = s.bootstat := rfl
@[simp] theorem State.modFrame_hostmem (s : State) (cl rgn knum : Nat) (f : Frame → Frame) : (s.modFrame cl rgn knum f).hostmem = s.hostmem := rfl
@[simp] theorem State.modFrame_hdmBase (s : State) (cl rgn knum : Nat) (f : Frame → Frame) : (s.modFrame cl rgn knum f).hdmBase = s.hdmBase := rfl
@[simp] theorem State.modFrame_nbrlost (s : State) (cl rgn knum : Nat) (f : Frame → Frame) : (s.modFrame cl rgn knum f).nbrlost = s.nbrlost := rfl
@[simp] theorem State.modFrame_nbrvec (s : State) (cl rgn knum : Nat) (f : Frame → Frame) : (s.modFrame cl rgn knum f).nbrvec = s.nbrvec := rfl
@[simp] theorem State.modFrame_rcmd (s : State) (cl rgn knum : Nat) (f : Frame → Frame) : (s.modFrame cl rgn knum f).rcmd = s.rcmd := rfl
@[simp] theorem State.modFrame_rstat (s : State) (cl rgn knum : Nat) (f : Frame → Frame) : (s.modFrame cl rgn knum f).rstat = s.rstat := rfl
@[simp] theorem State.modFrame_ccmdDesc (s : State) (cl rgn knum : Nat) (f : Frame → Frame) : (s.modFrame cl rgn knum f).ccmdDesc = s.ccmdDesc := rfl
@[simp] theorem State.modFrame_ccmd (s : State) (cl rgn knum : Nat) (f : Frame → Frame) : (s.modFrame cl rgn knum f).ccmd = s.ccmd := rfl
@[simp] theorem State.modFrame_bcmdDesc (s : State) (cl rgn knum : Nat) (f : Frame → Frame) : (s.modFrame cl rgn knum f).bcmdDesc = s.bcmdDesc := rfl
@[simp] theorem State.modFrame_bcmd (s : State) (cl rgn knum : Nat) (f : Frame → Frame) : (s.modFrame cl rgn knum f).bcmd = s.bcmd := rfl
@[simp] theorem State.modFrame_mbcmd (s : State) (cl rgn knum : Nat) (f : Frame → Frame) : (s.modFrame cl rgn knum f).mbcmd = s.mbcmd := rfl
@[simp] theorem State.modFrame_mbstat (s : State) (cl rgn knum : Nat) (f : Frame → Frame) : (s.modFrame cl rgn knum f).mbstat = s.mbstat := rfl
@[simp] theorem State.modFrame_rollback (s : State) (cl rgn knum : Nat) (f : Frame → Frame) : (s.modFrame cl rgn knum f).rollback = s.rollback := rfl
@[simp] theorem State.modFrame_firmware (s : State) (cl rgn knum : Nat) (f : Frame → Frame) : (s.modFrame cl rgn knum f).firmware = s.firmware := rfl
@[simp] theorem State.modFrame_fwDigest (s : State) (cl rgn knum : Nat) (f : Frame → Frame) : (s.modFrame cl rgn knum f).fwDigest = s.fwDigest := rfl
@[simp] theorem State.modFrame_fusedKey (s : State) (cl rgn knum : Nat) (f : Frame → Frame) : (s.modFrame cl rgn knum f).fusedKey = s.fusedKey := rfl
@[simp] theorem State.modFrame_attestUsed (s : State) (cl rgn knum : Nat) (f : Frame → Frame) : (s.modFrame cl rgn knum f).attestUsed = s.attestUsed := rfl
@[simp] theorem State.modFrame_kemSeed (s : State) (cl rgn knum : Nat) (f : Frame → Frame) : (s.modFrame cl rgn knum f).kemSeed = s.kemSeed := rfl
@[simp] theorem State.modFrame_badPhys (s : State) (cl rgn knum : Nat) (f : Frame → Frame) : (s.modFrame cl rgn knum f).badPhys = s.badPhys := rfl
@[simp] theorem State.modFrame_entries (s : State) (cl rgn knum : Nat) (f : Frame → Frame) : (s.modFrame cl rgn knum f).entries = s.entries := rfl
@[simp] theorem State.modFrame_heldOf (s : State) (cl rgn knum : Nat) (f : Frame → Frame) : (s.modFrame cl rgn knum f).heldOf = s.heldOf := rfl
@[simp] theorem State.modFrame_heldSpawn (s : State) (cl rgn knum : Nat) (f : Frame → Frame) : (s.modFrame cl rgn knum f).heldSpawn = s.heldSpawn := rfl
@[simp] theorem State.modFrame_heldSig (s : State) (cl rgn knum : Nat) (f : Frame → Frame) : (s.modFrame cl rgn knum f).heldSig = s.heldSig := rfl
@[simp] theorem State.modFrame_txBad (s : State) (cl rgn knum : Nat) (f : Frame → Frame) : (s.modFrame cl rgn knum f).txBad = s.txBad := rfl
@[simp] theorem State.modFrame_inbuf (s : State) (cl rgn knum : Nat) (f : Frame → Frame) : (s.modFrame cl rgn knum f).inbuf = s.inbuf := rfl
@[simp] theorem State.modFrame_loop (s : State) (cl rgn knum : Nat) (f : Frame → Frame) : (s.modFrame cl rgn knum f).loop = s.loop := rfl
@[simp] theorem State.modFrame_landing (s : State) (cl rgn knum : Nat) (f : Frame → Frame) : (s.modFrame cl rgn knum f).landing = s.landing := rfl
@[simp] theorem State.modFrame_refreshed (s : State) (cl rgn knum : Nat) (f : Frame → Frame) : (s.modFrame cl rgn knum f).refreshed = s.refreshed := rfl
@[simp] theorem State.modFrame_msc (s : State) (cl rgn knum : Nat) (f : Frame → Frame) : (s.modFrame cl rgn knum f).msc = s.msc := rfl
@[simp] theorem State.modFrame_quiet (s : State) (cl rgn knum : Nat) (f : Frame → Frame) : (s.modFrame cl rgn knum f).quiet = s.quiet := rfl
@[simp] theorem State.modFrame_teardowns (s : State) (cl rgn knum : Nat) (f : Frame → Frame) : (s.modFrame cl rgn knum f).teardowns = s.teardowns := rfl
@[simp] theorem State.modFrame_hostBad (s : State) (cl rgn knum : Nat) (f : Frame → Frame) : (s.modFrame cl rgn knum f).hostBad = s.hostBad := rfl
@[simp] theorem State.modFrame_clmap (s : State) (cl rgn knum : Nat) (f : Frame → Frame) : (s.modFrame cl rgn knum f).clmap = s.clmap := rfl
@[simp] theorem State.modFrame_awaiting (s : State) (cl rgn knum : Nat) (f : Frame → Frame) : (s.modFrame cl rgn knum f).awaiting = s.awaiting := rfl
@[simp] theorem State.modFrame_fusedBad (s : State) (cl rgn knum : Nat) (f : Frame → Frame) : (s.modFrame cl rgn knum f).fusedBad = s.fusedBad := rfl
@[simp] theorem State.modFrame_fencedPhys (s : State) (cl rgn knum : Nat) (f : Frame → Frame) : (s.modFrame cl rgn knum f).fencedPhys = s.fencedPhys := rfl
@[simp] theorem State.modFrame_fencedLog (s : State) (cl rgn knum : Nat) (f : Frame → Frame) : (s.modFrame cl rgn knum f).fencedLog = s.fencedLog := rfl
@[simp] theorem State.modFrame_psn (s : State) (cl rgn knum : Nat) (f : Frame → Frame) : (s.modFrame cl rgn knum f).psn = s.psn := rfl
@[simp] theorem State.modFrame_marked (s : State) (cl rgn knum : Nat) (f : Frame → Frame) : (s.modFrame cl rgn knum f).marked = s.marked := rfl
@[simp] theorem State.modFrame_hostWBad (s : State) (cl rgn knum : Nat) (f : Frame → Frame) : (s.modFrame cl rgn knum f).hostWBad = s.hostWBad := rfl
@[simp] theorem State.modFrame_eccFix (s : State) (cl rgn knum : Nat) (f : Frame → Frame) : (s.modFrame cl rgn knum f).eccFix = s.eccFix := rfl
@[simp] theorem State.modFrame_tlb (s : State) (cl rgn knum : Nat) (f : Frame → Frame) : (s.modFrame cl rgn knum f).tlb = s.tlb := rfl
@[simp] theorem State.modFrame_ckpts (s : State) (cl rgn knum : Nat) (f : Frame → Frame) : (s.modFrame cl rgn knum f).ckpts = s.ckpts := rfl
@[simp] theorem State.modFrame_ckJobs (s : State) (cl rgn knum : Nat) (f : Frame → Frame) : (s.modFrame cl rgn knum f).ckJobs = s.ckJobs := rfl
@[simp] theorem State.modFrame_hbm (s : State) (cl rgn knum : Nat) (f : Frame → Frame) : (s.modFrame cl rgn knum f).hbm = s.hbm := rfl
@[simp] theorem State.modFrame_lineKey (s : State) (cl rgn knum : Nat) (f : Frame → Frame) : (s.modFrame cl rgn knum f).lineKey = s.lineKey := rfl
@[simp] theorem State.modFrame_hostMem (s : State) (cl rgn knum : Nat) (f : Frame → Frame) : (s.modFrame cl rgn knum f).hostMem = s.hostMem := rfl
@[simp] theorem State.modFrame_regions (s : State) (cl rgn knum : Nat) (f : Frame → Frame) : (s.modFrame cl rgn knum f).regions = s.regions := rfl
@[simp] theorem State.modFrame_threads (s : State) (cl rgn knum : Nat) (f : Frame → Frame) : (s.modFrame cl rgn knum f).threads = s.threads := rfl
@[simp] theorem State.modFrame_phys (s : State) (cl rgn knum : Nat) (f : Frame → Frame) : (s.modFrame cl rgn knum f).phys = s.phys := rfl
@[simp] theorem State.modFrame_pairs (s : State) (cl rgn knum : Nat) (f : Frame → Frame) : (s.modFrame cl rgn knum f).pairs = s.pairs := rfl
@[simp] theorem State.modFrame_clus (s : State) (cl rgn knum : Nat) (f : Frame → Frame) : (s.modFrame cl rgn knum f).clus = s.clus := rfl
@[simp] theorem State.modFrame_dies (s : State) (cl rgn knum : Nat) (f : Frame → Frame) : (s.modFrame cl rgn knum f).dies = s.dies := rfl
@[simp] theorem State.modFrame_keys (s : State) (cl rgn knum : Nat) (f : Frame → Frame) : (s.modFrame cl rgn knum f).keys = s.keys := rfl
@[simp] theorem State.modFrame_lanes (s : State) (cl rgn knum : Nat) (f : Frame → Frame) : (s.modFrame cl rgn knum f).lanes = s.lanes := rfl
@[simp] theorem State.modFrame_cmds (s : State) (cl rgn knum : Nat) (f : Frame → Frame) : (s.modFrame cl rgn knum f).cmds = s.cmds := rfl
@[simp] theorem State.modFrame_acts (s : State) (cl rgn knum : Nat) (f : Frame → Frame) : (s.modFrame cl rgn knum f).acts = s.acts := rfl
@[simp] theorem State.modFrame_streams (s : State) (cl rgn knum : Nat) (f : Frame → Frame) : (s.modFrame cl rgn knum f).streams = s.streams := rfl
@[simp] theorem State.modFrame_eports (s : State) (cl rgn knum : Nat) (f : Frame → Frame) : (s.modFrame cl rgn knum f).eports = s.eports := rfl
@[simp] theorem State.modFrame_msixTable (s : State) (cl rgn knum : Nat) (f : Frame → Frame) : (s.modFrame cl rgn knum f).msixTable = s.msixTable := rfl
@[simp] theorem State.modFrame_msixPend (s : State) (cl rgn knum : Nat) (f : Frame → Frame) : (s.modFrame cl rgn knum f).msixPend = s.msixPend := rfl
@[simp] theorem State.modFrame_hostWrites (s : State) (cl rgn knum : Nat) (f : Frame → Frame) : (s.modFrame cl rgn knum f).hostWrites = s.hostWrites := rfl
@[simp] theorem State.modFrame_seen (s : State) (cl rgn knum : Nat) (f : Frame → Frame) : (s.modFrame cl rgn knum f).seen = s.seen := rfl
@[simp] theorem State.modFrame_settled (s : State) (cl rgn knum : Nat) (f : Frame → Frame) : (s.modFrame cl rgn knum f).settled = s.settled := rfl
@[simp] theorem State.modFrame_rows (s : State) (cl rgn knum : Nat) (f : Frame → Frame) : (s.modFrame cl rgn knum f).rows = s.rows := rfl
@[simp] theorem State.modFrame_deferred (s : State) (cl rgn knum : Nat) (f : Frame → Frame) : (s.modFrame cl rgn knum f).deferred = s.deferred := rfl
@[simp] theorem State.modFrame_hostOut (s : State) (cl rgn knum : Nat) (f : Frame → Frame) : (s.modFrame cl rgn knum f).hostOut = s.hostOut := rfl
@[simp] theorem State.modFrame_eccG (s : State) (cl rgn knum : Nat) (f : Frame → Frame) : (s.modFrame cl rgn knum f).eccG = s.eccG := rfl
@[simp] theorem State.modFrame_bad (s : State) (cl rgn knum : Nat) (f : Frame → Frame) : (s.modFrame cl rgn knum f).bad = s.bad := rfl
@[simp] theorem State.modFrame_away (s : State) (cl rgn knum : Nat) (f : Frame → Frame) : (s.modFrame cl rgn knum f).away = s.away := rfl
@[simp] theorem State.modFrame_cur (s : State) (cl rgn knum : Nat) (f : Frame → Frame) : (s.modFrame cl rgn knum f).cur = s.cur := rfl
@[simp] theorem State.modFrame_agenda (s : State) (cl rgn knum : Nat) (f : Frame → Frame) : (s.modFrame cl rgn knum f).agenda = s.agenda := rfl
@[simp] theorem State.modFrame_auto (s : State) (cl rgn knum : Nat) (f : Frame → Frame) : (s.modFrame cl rgn knum f).auto = s.auto := rfl
@[simp] theorem State.modFrame_now (s : State) (cl rgn knum : Nat) (f : Frame → Frame) : (s.modFrame cl rgn knum f).now = s.now := rfl
@[simp] theorem State.modFrame_turn (s : State) (cl rgn knum : Nat) (f : Frame → Frame) : (s.modFrame cl rgn knum f).turn = s.turn := rfl
@[simp] theorem State.modFrame_seq (s : State) (cl rgn knum : Nat) (f : Frame → Frame) : (s.modFrame cl rgn knum f).seq = s.seq := rfl
@[simp] theorem State.modFrame_free (s : State) (cl rgn knum : Nat) (f : Frame → Frame) : (s.modFrame cl rgn knum f).free = s.free := rfl

@[simp] theorem State.modRegion_time (s : State) (n : Nat) (f : Region → Region) : (s.modRegion n f).time = s.time := rfl
@[simp] theorem State.modRegion_pkgid (s : State) (n : Nat) (f : Region → Region) : (s.modRegion n f).pkgid = s.pkgid := rfl
@[simp] theorem State.modRegion_netId (s : State) (n : Nat) (f : Region → Region) : (s.modRegion n f).netId = s.netId := rfl
@[simp] theorem State.modRegion_iface (s : State) (n : Nat) (f : Region → Region) : (s.modRegion n f).iface = s.iface := rfl
@[simp] theorem State.modRegion_bootstat (s : State) (n : Nat) (f : Region → Region) : (s.modRegion n f).bootstat = s.bootstat := rfl
@[simp] theorem State.modRegion_hostmem (s : State) (n : Nat) (f : Region → Region) : (s.modRegion n f).hostmem = s.hostmem := rfl
@[simp] theorem State.modRegion_hdmBase (s : State) (n : Nat) (f : Region → Region) : (s.modRegion n f).hdmBase = s.hdmBase := rfl
@[simp] theorem State.modRegion_nbrlost (s : State) (n : Nat) (f : Region → Region) : (s.modRegion n f).nbrlost = s.nbrlost := rfl
@[simp] theorem State.modRegion_nbrvec (s : State) (n : Nat) (f : Region → Region) : (s.modRegion n f).nbrvec = s.nbrvec := rfl
@[simp] theorem State.modRegion_rcmd (s : State) (n : Nat) (f : Region → Region) : (s.modRegion n f).rcmd = s.rcmd := rfl
@[simp] theorem State.modRegion_rstat (s : State) (n : Nat) (f : Region → Region) : (s.modRegion n f).rstat = s.rstat := rfl
@[simp] theorem State.modRegion_ccmdDesc (s : State) (n : Nat) (f : Region → Region) : (s.modRegion n f).ccmdDesc = s.ccmdDesc := rfl
@[simp] theorem State.modRegion_ccmd (s : State) (n : Nat) (f : Region → Region) : (s.modRegion n f).ccmd = s.ccmd := rfl
@[simp] theorem State.modRegion_bcmdDesc (s : State) (n : Nat) (f : Region → Region) : (s.modRegion n f).bcmdDesc = s.bcmdDesc := rfl
@[simp] theorem State.modRegion_bcmd (s : State) (n : Nat) (f : Region → Region) : (s.modRegion n f).bcmd = s.bcmd := rfl
@[simp] theorem State.modRegion_mbcmd (s : State) (n : Nat) (f : Region → Region) : (s.modRegion n f).mbcmd = s.mbcmd := rfl
@[simp] theorem State.modRegion_mbstat (s : State) (n : Nat) (f : Region → Region) : (s.modRegion n f).mbstat = s.mbstat := rfl
@[simp] theorem State.modRegion_rollback (s : State) (n : Nat) (f : Region → Region) : (s.modRegion n f).rollback = s.rollback := rfl
@[simp] theorem State.modRegion_firmware (s : State) (n : Nat) (f : Region → Region) : (s.modRegion n f).firmware = s.firmware := rfl
@[simp] theorem State.modRegion_fwDigest (s : State) (n : Nat) (f : Region → Region) : (s.modRegion n f).fwDigest = s.fwDigest := rfl
@[simp] theorem State.modRegion_fusedKey (s : State) (n : Nat) (f : Region → Region) : (s.modRegion n f).fusedKey = s.fusedKey := rfl
@[simp] theorem State.modRegion_attestUsed (s : State) (n : Nat) (f : Region → Region) : (s.modRegion n f).attestUsed = s.attestUsed := rfl
@[simp] theorem State.modRegion_kemSeed (s : State) (n : Nat) (f : Region → Region) : (s.modRegion n f).kemSeed = s.kemSeed := rfl
@[simp] theorem State.modRegion_badPhys (s : State) (n : Nat) (f : Region → Region) : (s.modRegion n f).badPhys = s.badPhys := rfl
@[simp] theorem State.modRegion_entries (s : State) (n : Nat) (f : Region → Region) : (s.modRegion n f).entries = s.entries := rfl
@[simp] theorem State.modRegion_heldOf (s : State) (n : Nat) (f : Region → Region) : (s.modRegion n f).heldOf = s.heldOf := rfl
@[simp] theorem State.modRegion_heldSpawn (s : State) (n : Nat) (f : Region → Region) : (s.modRegion n f).heldSpawn = s.heldSpawn := rfl
@[simp] theorem State.modRegion_heldSig (s : State) (n : Nat) (f : Region → Region) : (s.modRegion n f).heldSig = s.heldSig := rfl
@[simp] theorem State.modRegion_txBad (s : State) (n : Nat) (f : Region → Region) : (s.modRegion n f).txBad = s.txBad := rfl
@[simp] theorem State.modRegion_inbuf (s : State) (n : Nat) (f : Region → Region) : (s.modRegion n f).inbuf = s.inbuf := rfl
@[simp] theorem State.modRegion_loop (s : State) (n : Nat) (f : Region → Region) : (s.modRegion n f).loop = s.loop := rfl
@[simp] theorem State.modRegion_landing (s : State) (n : Nat) (f : Region → Region) : (s.modRegion n f).landing = s.landing := rfl
@[simp] theorem State.modRegion_refreshed (s : State) (n : Nat) (f : Region → Region) : (s.modRegion n f).refreshed = s.refreshed := rfl
@[simp] theorem State.modRegion_msc (s : State) (n : Nat) (f : Region → Region) : (s.modRegion n f).msc = s.msc := rfl
@[simp] theorem State.modRegion_quiet (s : State) (n : Nat) (f : Region → Region) : (s.modRegion n f).quiet = s.quiet := rfl
@[simp] theorem State.modRegion_teardowns (s : State) (n : Nat) (f : Region → Region) : (s.modRegion n f).teardowns = s.teardowns := rfl
@[simp] theorem State.modRegion_hostBad (s : State) (n : Nat) (f : Region → Region) : (s.modRegion n f).hostBad = s.hostBad := rfl
@[simp] theorem State.modRegion_clmap (s : State) (n : Nat) (f : Region → Region) : (s.modRegion n f).clmap = s.clmap := rfl
@[simp] theorem State.modRegion_awaiting (s : State) (n : Nat) (f : Region → Region) : (s.modRegion n f).awaiting = s.awaiting := rfl
@[simp] theorem State.modRegion_fusedBad (s : State) (n : Nat) (f : Region → Region) : (s.modRegion n f).fusedBad = s.fusedBad := rfl
@[simp] theorem State.modRegion_fencedPhys (s : State) (n : Nat) (f : Region → Region) : (s.modRegion n f).fencedPhys = s.fencedPhys := rfl
@[simp] theorem State.modRegion_fencedLog (s : State) (n : Nat) (f : Region → Region) : (s.modRegion n f).fencedLog = s.fencedLog := rfl
@[simp] theorem State.modRegion_psn (s : State) (n : Nat) (f : Region → Region) : (s.modRegion n f).psn = s.psn := rfl
@[simp] theorem State.modRegion_marked (s : State) (n : Nat) (f : Region → Region) : (s.modRegion n f).marked = s.marked := rfl
@[simp] theorem State.modRegion_hostWBad (s : State) (n : Nat) (f : Region → Region) : (s.modRegion n f).hostWBad = s.hostWBad := rfl
@[simp] theorem State.modRegion_eccFix (s : State) (n : Nat) (f : Region → Region) : (s.modRegion n f).eccFix = s.eccFix := rfl
@[simp] theorem State.modRegion_tlb (s : State) (n : Nat) (f : Region → Region) : (s.modRegion n f).tlb = s.tlb := rfl
@[simp] theorem State.modRegion_ckpts (s : State) (n : Nat) (f : Region → Region) : (s.modRegion n f).ckpts = s.ckpts := rfl
@[simp] theorem State.modRegion_ckJobs (s : State) (n : Nat) (f : Region → Region) : (s.modRegion n f).ckJobs = s.ckJobs := rfl
@[simp] theorem State.modRegion_hbm (s : State) (n : Nat) (f : Region → Region) : (s.modRegion n f).hbm = s.hbm := rfl
@[simp] theorem State.modRegion_lineKey (s : State) (n : Nat) (f : Region → Region) : (s.modRegion n f).lineKey = s.lineKey := rfl
@[simp] theorem State.modRegion_hostMem (s : State) (n : Nat) (f : Region → Region) : (s.modRegion n f).hostMem = s.hostMem := rfl
@[simp] theorem State.modRegion_frames (s : State) (n : Nat) (f : Region → Region) : (s.modRegion n f).frames = s.frames := rfl
@[simp] theorem State.modRegion_threads (s : State) (n : Nat) (f : Region → Region) : (s.modRegion n f).threads = s.threads := rfl
@[simp] theorem State.modRegion_phys (s : State) (n : Nat) (f : Region → Region) : (s.modRegion n f).phys = s.phys := rfl
@[simp] theorem State.modRegion_pairs (s : State) (n : Nat) (f : Region → Region) : (s.modRegion n f).pairs = s.pairs := rfl
@[simp] theorem State.modRegion_clus (s : State) (n : Nat) (f : Region → Region) : (s.modRegion n f).clus = s.clus := rfl
@[simp] theorem State.modRegion_dies (s : State) (n : Nat) (f : Region → Region) : (s.modRegion n f).dies = s.dies := rfl
@[simp] theorem State.modRegion_keys (s : State) (n : Nat) (f : Region → Region) : (s.modRegion n f).keys = s.keys := rfl
@[simp] theorem State.modRegion_lanes (s : State) (n : Nat) (f : Region → Region) : (s.modRegion n f).lanes = s.lanes := rfl
@[simp] theorem State.modRegion_cmds (s : State) (n : Nat) (f : Region → Region) : (s.modRegion n f).cmds = s.cmds := rfl
@[simp] theorem State.modRegion_acts (s : State) (n : Nat) (f : Region → Region) : (s.modRegion n f).acts = s.acts := rfl
@[simp] theorem State.modRegion_streams (s : State) (n : Nat) (f : Region → Region) : (s.modRegion n f).streams = s.streams := rfl
@[simp] theorem State.modRegion_eports (s : State) (n : Nat) (f : Region → Region) : (s.modRegion n f).eports = s.eports := rfl
@[simp] theorem State.modRegion_msixTable (s : State) (n : Nat) (f : Region → Region) : (s.modRegion n f).msixTable = s.msixTable := rfl
@[simp] theorem State.modRegion_msixPend (s : State) (n : Nat) (f : Region → Region) : (s.modRegion n f).msixPend = s.msixPend := rfl
@[simp] theorem State.modRegion_hostWrites (s : State) (n : Nat) (f : Region → Region) : (s.modRegion n f).hostWrites = s.hostWrites := rfl
@[simp] theorem State.modRegion_seen (s : State) (n : Nat) (f : Region → Region) : (s.modRegion n f).seen = s.seen := rfl
@[simp] theorem State.modRegion_settled (s : State) (n : Nat) (f : Region → Region) : (s.modRegion n f).settled = s.settled := rfl
@[simp] theorem State.modRegion_rows (s : State) (n : Nat) (f : Region → Region) : (s.modRegion n f).rows = s.rows := rfl
@[simp] theorem State.modRegion_deferred (s : State) (n : Nat) (f : Region → Region) : (s.modRegion n f).deferred = s.deferred := rfl
@[simp] theorem State.modRegion_hostOut (s : State) (n : Nat) (f : Region → Region) : (s.modRegion n f).hostOut = s.hostOut := rfl
@[simp] theorem State.modRegion_eccG (s : State) (n : Nat) (f : Region → Region) : (s.modRegion n f).eccG = s.eccG := rfl
@[simp] theorem State.modRegion_bad (s : State) (n : Nat) (f : Region → Region) : (s.modRegion n f).bad = s.bad := rfl
@[simp] theorem State.modRegion_away (s : State) (n : Nat) (f : Region → Region) : (s.modRegion n f).away = s.away := rfl
@[simp] theorem State.modRegion_cur (s : State) (n : Nat) (f : Region → Region) : (s.modRegion n f).cur = s.cur := rfl
@[simp] theorem State.modRegion_agenda (s : State) (n : Nat) (f : Region → Region) : (s.modRegion n f).agenda = s.agenda := rfl
@[simp] theorem State.modRegion_auto (s : State) (n : Nat) (f : Region → Region) : (s.modRegion n f).auto = s.auto := rfl
@[simp] theorem State.modRegion_now (s : State) (n : Nat) (f : Region → Region) : (s.modRegion n f).now = s.now := rfl
@[simp] theorem State.modRegion_turn (s : State) (n : Nat) (f : Region → Region) : (s.modRegion n f).turn = s.turn := rfl
@[simp] theorem State.modRegion_seq (s : State) (n : Nat) (f : Region → Region) : (s.modRegion n f).seq = s.seq := rfl
@[simp] theorem State.modRegion_free (s : State) (n : Nat) (f : Region → Region) : (s.modRegion n f).free = s.free := rfl

@[simp] theorem State.modClu_time (s : State) (c : Nat) (f : Clus → Clus) : (s.modClu c f).time = s.time := rfl
@[simp] theorem State.modClu_pkgid (s : State) (c : Nat) (f : Clus → Clus) : (s.modClu c f).pkgid = s.pkgid := rfl
@[simp] theorem State.modClu_netId (s : State) (c : Nat) (f : Clus → Clus) : (s.modClu c f).netId = s.netId := rfl
@[simp] theorem State.modClu_iface (s : State) (c : Nat) (f : Clus → Clus) : (s.modClu c f).iface = s.iface := rfl
@[simp] theorem State.modClu_bootstat (s : State) (c : Nat) (f : Clus → Clus) : (s.modClu c f).bootstat = s.bootstat := rfl
@[simp] theorem State.modClu_hostmem (s : State) (c : Nat) (f : Clus → Clus) : (s.modClu c f).hostmem = s.hostmem := rfl
@[simp] theorem State.modClu_hdmBase (s : State) (c : Nat) (f : Clus → Clus) : (s.modClu c f).hdmBase = s.hdmBase := rfl
@[simp] theorem State.modClu_nbrlost (s : State) (c : Nat) (f : Clus → Clus) : (s.modClu c f).nbrlost = s.nbrlost := rfl
@[simp] theorem State.modClu_nbrvec (s : State) (c : Nat) (f : Clus → Clus) : (s.modClu c f).nbrvec = s.nbrvec := rfl
@[simp] theorem State.modClu_rcmd (s : State) (c : Nat) (f : Clus → Clus) : (s.modClu c f).rcmd = s.rcmd := rfl
@[simp] theorem State.modClu_rstat (s : State) (c : Nat) (f : Clus → Clus) : (s.modClu c f).rstat = s.rstat := rfl
@[simp] theorem State.modClu_ccmdDesc (s : State) (c : Nat) (f : Clus → Clus) : (s.modClu c f).ccmdDesc = s.ccmdDesc := rfl
@[simp] theorem State.modClu_ccmd (s : State) (c : Nat) (f : Clus → Clus) : (s.modClu c f).ccmd = s.ccmd := rfl
@[simp] theorem State.modClu_bcmdDesc (s : State) (c : Nat) (f : Clus → Clus) : (s.modClu c f).bcmdDesc = s.bcmdDesc := rfl
@[simp] theorem State.modClu_bcmd (s : State) (c : Nat) (f : Clus → Clus) : (s.modClu c f).bcmd = s.bcmd := rfl
@[simp] theorem State.modClu_mbcmd (s : State) (c : Nat) (f : Clus → Clus) : (s.modClu c f).mbcmd = s.mbcmd := rfl
@[simp] theorem State.modClu_mbstat (s : State) (c : Nat) (f : Clus → Clus) : (s.modClu c f).mbstat = s.mbstat := rfl
@[simp] theorem State.modClu_rollback (s : State) (c : Nat) (f : Clus → Clus) : (s.modClu c f).rollback = s.rollback := rfl
@[simp] theorem State.modClu_firmware (s : State) (c : Nat) (f : Clus → Clus) : (s.modClu c f).firmware = s.firmware := rfl
@[simp] theorem State.modClu_fwDigest (s : State) (c : Nat) (f : Clus → Clus) : (s.modClu c f).fwDigest = s.fwDigest := rfl
@[simp] theorem State.modClu_fusedKey (s : State) (c : Nat) (f : Clus → Clus) : (s.modClu c f).fusedKey = s.fusedKey := rfl
@[simp] theorem State.modClu_attestUsed (s : State) (c : Nat) (f : Clus → Clus) : (s.modClu c f).attestUsed = s.attestUsed := rfl
@[simp] theorem State.modClu_kemSeed (s : State) (c : Nat) (f : Clus → Clus) : (s.modClu c f).kemSeed = s.kemSeed := rfl
@[simp] theorem State.modClu_badPhys (s : State) (c : Nat) (f : Clus → Clus) : (s.modClu c f).badPhys = s.badPhys := rfl
@[simp] theorem State.modClu_entries (s : State) (c : Nat) (f : Clus → Clus) : (s.modClu c f).entries = s.entries := rfl
@[simp] theorem State.modClu_heldOf (s : State) (c : Nat) (f : Clus → Clus) : (s.modClu c f).heldOf = s.heldOf := rfl
@[simp] theorem State.modClu_heldSpawn (s : State) (c : Nat) (f : Clus → Clus) : (s.modClu c f).heldSpawn = s.heldSpawn := rfl
@[simp] theorem State.modClu_heldSig (s : State) (c : Nat) (f : Clus → Clus) : (s.modClu c f).heldSig = s.heldSig := rfl
@[simp] theorem State.modClu_txBad (s : State) (c : Nat) (f : Clus → Clus) : (s.modClu c f).txBad = s.txBad := rfl
@[simp] theorem State.modClu_inbuf (s : State) (c : Nat) (f : Clus → Clus) : (s.modClu c f).inbuf = s.inbuf := rfl
@[simp] theorem State.modClu_loop (s : State) (c : Nat) (f : Clus → Clus) : (s.modClu c f).loop = s.loop := rfl
@[simp] theorem State.modClu_landing (s : State) (c : Nat) (f : Clus → Clus) : (s.modClu c f).landing = s.landing := rfl
@[simp] theorem State.modClu_refreshed (s : State) (c : Nat) (f : Clus → Clus) : (s.modClu c f).refreshed = s.refreshed := rfl
@[simp] theorem State.modClu_msc (s : State) (c : Nat) (f : Clus → Clus) : (s.modClu c f).msc = s.msc := rfl
@[simp] theorem State.modClu_quiet (s : State) (c : Nat) (f : Clus → Clus) : (s.modClu c f).quiet = s.quiet := rfl
@[simp] theorem State.modClu_teardowns (s : State) (c : Nat) (f : Clus → Clus) : (s.modClu c f).teardowns = s.teardowns := rfl
@[simp] theorem State.modClu_hostBad (s : State) (c : Nat) (f : Clus → Clus) : (s.modClu c f).hostBad = s.hostBad := rfl
@[simp] theorem State.modClu_clmap (s : State) (c : Nat) (f : Clus → Clus) : (s.modClu c f).clmap = s.clmap := rfl
@[simp] theorem State.modClu_awaiting (s : State) (c : Nat) (f : Clus → Clus) : (s.modClu c f).awaiting = s.awaiting := rfl
@[simp] theorem State.modClu_fusedBad (s : State) (c : Nat) (f : Clus → Clus) : (s.modClu c f).fusedBad = s.fusedBad := rfl
@[simp] theorem State.modClu_fencedPhys (s : State) (c : Nat) (f : Clus → Clus) : (s.modClu c f).fencedPhys = s.fencedPhys := rfl
@[simp] theorem State.modClu_fencedLog (s : State) (c : Nat) (f : Clus → Clus) : (s.modClu c f).fencedLog = s.fencedLog := rfl
@[simp] theorem State.modClu_psn (s : State) (c : Nat) (f : Clus → Clus) : (s.modClu c f).psn = s.psn := rfl
@[simp] theorem State.modClu_marked (s : State) (c : Nat) (f : Clus → Clus) : (s.modClu c f).marked = s.marked := rfl
@[simp] theorem State.modClu_hostWBad (s : State) (c : Nat) (f : Clus → Clus) : (s.modClu c f).hostWBad = s.hostWBad := rfl
@[simp] theorem State.modClu_eccFix (s : State) (c : Nat) (f : Clus → Clus) : (s.modClu c f).eccFix = s.eccFix := rfl
@[simp] theorem State.modClu_tlb (s : State) (c : Nat) (f : Clus → Clus) : (s.modClu c f).tlb = s.tlb := rfl
@[simp] theorem State.modClu_ckpts (s : State) (c : Nat) (f : Clus → Clus) : (s.modClu c f).ckpts = s.ckpts := rfl
@[simp] theorem State.modClu_ckJobs (s : State) (c : Nat) (f : Clus → Clus) : (s.modClu c f).ckJobs = s.ckJobs := rfl
@[simp] theorem State.modClu_hbm (s : State) (c : Nat) (f : Clus → Clus) : (s.modClu c f).hbm = s.hbm := rfl
@[simp] theorem State.modClu_lineKey (s : State) (c : Nat) (f : Clus → Clus) : (s.modClu c f).lineKey = s.lineKey := rfl
@[simp] theorem State.modClu_hostMem (s : State) (c : Nat) (f : Clus → Clus) : (s.modClu c f).hostMem = s.hostMem := rfl
@[simp] theorem State.modClu_regions (s : State) (c : Nat) (f : Clus → Clus) : (s.modClu c f).regions = s.regions := rfl
@[simp] theorem State.modClu_frames (s : State) (c : Nat) (f : Clus → Clus) : (s.modClu c f).frames = s.frames := rfl
@[simp] theorem State.modClu_threads (s : State) (c : Nat) (f : Clus → Clus) : (s.modClu c f).threads = s.threads := rfl
@[simp] theorem State.modClu_phys (s : State) (c : Nat) (f : Clus → Clus) : (s.modClu c f).phys = s.phys := rfl
@[simp] theorem State.modClu_pairs (s : State) (c : Nat) (f : Clus → Clus) : (s.modClu c f).pairs = s.pairs := rfl
@[simp] theorem State.modClu_dies (s : State) (c : Nat) (f : Clus → Clus) : (s.modClu c f).dies = s.dies := rfl
@[simp] theorem State.modClu_keys (s : State) (c : Nat) (f : Clus → Clus) : (s.modClu c f).keys = s.keys := rfl
@[simp] theorem State.modClu_lanes (s : State) (c : Nat) (f : Clus → Clus) : (s.modClu c f).lanes = s.lanes := rfl
@[simp] theorem State.modClu_cmds (s : State) (c : Nat) (f : Clus → Clus) : (s.modClu c f).cmds = s.cmds := rfl
@[simp] theorem State.modClu_acts (s : State) (c : Nat) (f : Clus → Clus) : (s.modClu c f).acts = s.acts := rfl
@[simp] theorem State.modClu_streams (s : State) (c : Nat) (f : Clus → Clus) : (s.modClu c f).streams = s.streams := rfl
@[simp] theorem State.modClu_eports (s : State) (c : Nat) (f : Clus → Clus) : (s.modClu c f).eports = s.eports := rfl
@[simp] theorem State.modClu_msixTable (s : State) (c : Nat) (f : Clus → Clus) : (s.modClu c f).msixTable = s.msixTable := rfl
@[simp] theorem State.modClu_msixPend (s : State) (c : Nat) (f : Clus → Clus) : (s.modClu c f).msixPend = s.msixPend := rfl
@[simp] theorem State.modClu_hostWrites (s : State) (c : Nat) (f : Clus → Clus) : (s.modClu c f).hostWrites = s.hostWrites := rfl
@[simp] theorem State.modClu_seen (s : State) (c : Nat) (f : Clus → Clus) : (s.modClu c f).seen = s.seen := rfl
@[simp] theorem State.modClu_settled (s : State) (c : Nat) (f : Clus → Clus) : (s.modClu c f).settled = s.settled := rfl
@[simp] theorem State.modClu_rows (s : State) (c : Nat) (f : Clus → Clus) : (s.modClu c f).rows = s.rows := rfl
@[simp] theorem State.modClu_deferred (s : State) (c : Nat) (f : Clus → Clus) : (s.modClu c f).deferred = s.deferred := rfl
@[simp] theorem State.modClu_hostOut (s : State) (c : Nat) (f : Clus → Clus) : (s.modClu c f).hostOut = s.hostOut := rfl
@[simp] theorem State.modClu_eccG (s : State) (c : Nat) (f : Clus → Clus) : (s.modClu c f).eccG = s.eccG := rfl
@[simp] theorem State.modClu_bad (s : State) (c : Nat) (f : Clus → Clus) : (s.modClu c f).bad = s.bad := rfl
@[simp] theorem State.modClu_away (s : State) (c : Nat) (f : Clus → Clus) : (s.modClu c f).away = s.away := rfl
@[simp] theorem State.modClu_cur (s : State) (c : Nat) (f : Clus → Clus) : (s.modClu c f).cur = s.cur := rfl
@[simp] theorem State.modClu_agenda (s : State) (c : Nat) (f : Clus → Clus) : (s.modClu c f).agenda = s.agenda := rfl
@[simp] theorem State.modClu_auto (s : State) (c : Nat) (f : Clus → Clus) : (s.modClu c f).auto = s.auto := rfl
@[simp] theorem State.modClu_now (s : State) (c : Nat) (f : Clus → Clus) : (s.modClu c f).now = s.now := rfl
@[simp] theorem State.modClu_turn (s : State) (c : Nat) (f : Clus → Clus) : (s.modClu c f).turn = s.turn := rfl
@[simp] theorem State.modClu_seq (s : State) (c : Nat) (f : Clus → Clus) : (s.modClu c f).seq = s.seq := rfl
@[simp] theorem State.modClu_free (s : State) (c : Nat) (f : Clus → Clus) : (s.modClu c f).free = s.free := rfl

@[simp] theorem State.modDie_time (s : State) (d : Nat) (f : Die → Die) : (s.modDie d f).time = s.time := rfl
@[simp] theorem State.modDie_pkgid (s : State) (d : Nat) (f : Die → Die) : (s.modDie d f).pkgid = s.pkgid := rfl
@[simp] theorem State.modDie_netId (s : State) (d : Nat) (f : Die → Die) : (s.modDie d f).netId = s.netId := rfl
@[simp] theorem State.modDie_iface (s : State) (d : Nat) (f : Die → Die) : (s.modDie d f).iface = s.iface := rfl
@[simp] theorem State.modDie_bootstat (s : State) (d : Nat) (f : Die → Die) : (s.modDie d f).bootstat = s.bootstat := rfl
@[simp] theorem State.modDie_hostmem (s : State) (d : Nat) (f : Die → Die) : (s.modDie d f).hostmem = s.hostmem := rfl
@[simp] theorem State.modDie_hdmBase (s : State) (d : Nat) (f : Die → Die) : (s.modDie d f).hdmBase = s.hdmBase := rfl
@[simp] theorem State.modDie_nbrlost (s : State) (d : Nat) (f : Die → Die) : (s.modDie d f).nbrlost = s.nbrlost := rfl
@[simp] theorem State.modDie_nbrvec (s : State) (d : Nat) (f : Die → Die) : (s.modDie d f).nbrvec = s.nbrvec := rfl
@[simp] theorem State.modDie_rcmd (s : State) (d : Nat) (f : Die → Die) : (s.modDie d f).rcmd = s.rcmd := rfl
@[simp] theorem State.modDie_rstat (s : State) (d : Nat) (f : Die → Die) : (s.modDie d f).rstat = s.rstat := rfl
@[simp] theorem State.modDie_ccmdDesc (s : State) (d : Nat) (f : Die → Die) : (s.modDie d f).ccmdDesc = s.ccmdDesc := rfl
@[simp] theorem State.modDie_ccmd (s : State) (d : Nat) (f : Die → Die) : (s.modDie d f).ccmd = s.ccmd := rfl
@[simp] theorem State.modDie_bcmdDesc (s : State) (d : Nat) (f : Die → Die) : (s.modDie d f).bcmdDesc = s.bcmdDesc := rfl
@[simp] theorem State.modDie_bcmd (s : State) (d : Nat) (f : Die → Die) : (s.modDie d f).bcmd = s.bcmd := rfl
@[simp] theorem State.modDie_mbcmd (s : State) (d : Nat) (f : Die → Die) : (s.modDie d f).mbcmd = s.mbcmd := rfl
@[simp] theorem State.modDie_mbstat (s : State) (d : Nat) (f : Die → Die) : (s.modDie d f).mbstat = s.mbstat := rfl
@[simp] theorem State.modDie_rollback (s : State) (d : Nat) (f : Die → Die) : (s.modDie d f).rollback = s.rollback := rfl
@[simp] theorem State.modDie_firmware (s : State) (d : Nat) (f : Die → Die) : (s.modDie d f).firmware = s.firmware := rfl
@[simp] theorem State.modDie_fwDigest (s : State) (d : Nat) (f : Die → Die) : (s.modDie d f).fwDigest = s.fwDigest := rfl
@[simp] theorem State.modDie_fusedKey (s : State) (d : Nat) (f : Die → Die) : (s.modDie d f).fusedKey = s.fusedKey := rfl
@[simp] theorem State.modDie_attestUsed (s : State) (d : Nat) (f : Die → Die) : (s.modDie d f).attestUsed = s.attestUsed := rfl
@[simp] theorem State.modDie_kemSeed (s : State) (d : Nat) (f : Die → Die) : (s.modDie d f).kemSeed = s.kemSeed := rfl
@[simp] theorem State.modDie_badPhys (s : State) (d : Nat) (f : Die → Die) : (s.modDie d f).badPhys = s.badPhys := rfl
@[simp] theorem State.modDie_entries (s : State) (d : Nat) (f : Die → Die) : (s.modDie d f).entries = s.entries := rfl
@[simp] theorem State.modDie_heldOf (s : State) (d : Nat) (f : Die → Die) : (s.modDie d f).heldOf = s.heldOf := rfl
@[simp] theorem State.modDie_heldSpawn (s : State) (d : Nat) (f : Die → Die) : (s.modDie d f).heldSpawn = s.heldSpawn := rfl
@[simp] theorem State.modDie_heldSig (s : State) (d : Nat) (f : Die → Die) : (s.modDie d f).heldSig = s.heldSig := rfl
@[simp] theorem State.modDie_txBad (s : State) (d : Nat) (f : Die → Die) : (s.modDie d f).txBad = s.txBad := rfl
@[simp] theorem State.modDie_inbuf (s : State) (d : Nat) (f : Die → Die) : (s.modDie d f).inbuf = s.inbuf := rfl
@[simp] theorem State.modDie_loop (s : State) (d : Nat) (f : Die → Die) : (s.modDie d f).loop = s.loop := rfl
@[simp] theorem State.modDie_landing (s : State) (d : Nat) (f : Die → Die) : (s.modDie d f).landing = s.landing := rfl
@[simp] theorem State.modDie_refreshed (s : State) (d : Nat) (f : Die → Die) : (s.modDie d f).refreshed = s.refreshed := rfl
@[simp] theorem State.modDie_msc (s : State) (d : Nat) (f : Die → Die) : (s.modDie d f).msc = s.msc := rfl
@[simp] theorem State.modDie_quiet (s : State) (d : Nat) (f : Die → Die) : (s.modDie d f).quiet = s.quiet := rfl
@[simp] theorem State.modDie_teardowns (s : State) (d : Nat) (f : Die → Die) : (s.modDie d f).teardowns = s.teardowns := rfl
@[simp] theorem State.modDie_hostBad (s : State) (d : Nat) (f : Die → Die) : (s.modDie d f).hostBad = s.hostBad := rfl
@[simp] theorem State.modDie_clmap (s : State) (d : Nat) (f : Die → Die) : (s.modDie d f).clmap = s.clmap := rfl
@[simp] theorem State.modDie_awaiting (s : State) (d : Nat) (f : Die → Die) : (s.modDie d f).awaiting = s.awaiting := rfl
@[simp] theorem State.modDie_fusedBad (s : State) (d : Nat) (f : Die → Die) : (s.modDie d f).fusedBad = s.fusedBad := rfl
@[simp] theorem State.modDie_fencedPhys (s : State) (d : Nat) (f : Die → Die) : (s.modDie d f).fencedPhys = s.fencedPhys := rfl
@[simp] theorem State.modDie_fencedLog (s : State) (d : Nat) (f : Die → Die) : (s.modDie d f).fencedLog = s.fencedLog := rfl
@[simp] theorem State.modDie_psn (s : State) (d : Nat) (f : Die → Die) : (s.modDie d f).psn = s.psn := rfl
@[simp] theorem State.modDie_marked (s : State) (d : Nat) (f : Die → Die) : (s.modDie d f).marked = s.marked := rfl
@[simp] theorem State.modDie_hostWBad (s : State) (d : Nat) (f : Die → Die) : (s.modDie d f).hostWBad = s.hostWBad := rfl
@[simp] theorem State.modDie_eccFix (s : State) (d : Nat) (f : Die → Die) : (s.modDie d f).eccFix = s.eccFix := rfl
@[simp] theorem State.modDie_tlb (s : State) (d : Nat) (f : Die → Die) : (s.modDie d f).tlb = s.tlb := rfl
@[simp] theorem State.modDie_ckpts (s : State) (d : Nat) (f : Die → Die) : (s.modDie d f).ckpts = s.ckpts := rfl
@[simp] theorem State.modDie_ckJobs (s : State) (d : Nat) (f : Die → Die) : (s.modDie d f).ckJobs = s.ckJobs := rfl
@[simp] theorem State.modDie_hbm (s : State) (d : Nat) (f : Die → Die) : (s.modDie d f).hbm = s.hbm := rfl
@[simp] theorem State.modDie_lineKey (s : State) (d : Nat) (f : Die → Die) : (s.modDie d f).lineKey = s.lineKey := rfl
@[simp] theorem State.modDie_hostMem (s : State) (d : Nat) (f : Die → Die) : (s.modDie d f).hostMem = s.hostMem := rfl
@[simp] theorem State.modDie_regions (s : State) (d : Nat) (f : Die → Die) : (s.modDie d f).regions = s.regions := rfl
@[simp] theorem State.modDie_frames (s : State) (d : Nat) (f : Die → Die) : (s.modDie d f).frames = s.frames := rfl
@[simp] theorem State.modDie_threads (s : State) (d : Nat) (f : Die → Die) : (s.modDie d f).threads = s.threads := rfl
@[simp] theorem State.modDie_phys (s : State) (d : Nat) (f : Die → Die) : (s.modDie d f).phys = s.phys := rfl
@[simp] theorem State.modDie_pairs (s : State) (d : Nat) (f : Die → Die) : (s.modDie d f).pairs = s.pairs := rfl
@[simp] theorem State.modDie_clus (s : State) (d : Nat) (f : Die → Die) : (s.modDie d f).clus = s.clus := rfl
@[simp] theorem State.modDie_keys (s : State) (d : Nat) (f : Die → Die) : (s.modDie d f).keys = s.keys := rfl
@[simp] theorem State.modDie_lanes (s : State) (d : Nat) (f : Die → Die) : (s.modDie d f).lanes = s.lanes := rfl
@[simp] theorem State.modDie_cmds (s : State) (d : Nat) (f : Die → Die) : (s.modDie d f).cmds = s.cmds := rfl
@[simp] theorem State.modDie_acts (s : State) (d : Nat) (f : Die → Die) : (s.modDie d f).acts = s.acts := rfl
@[simp] theorem State.modDie_streams (s : State) (d : Nat) (f : Die → Die) : (s.modDie d f).streams = s.streams := rfl
@[simp] theorem State.modDie_eports (s : State) (d : Nat) (f : Die → Die) : (s.modDie d f).eports = s.eports := rfl
@[simp] theorem State.modDie_msixTable (s : State) (d : Nat) (f : Die → Die) : (s.modDie d f).msixTable = s.msixTable := rfl
@[simp] theorem State.modDie_msixPend (s : State) (d : Nat) (f : Die → Die) : (s.modDie d f).msixPend = s.msixPend := rfl
@[simp] theorem State.modDie_hostWrites (s : State) (d : Nat) (f : Die → Die) : (s.modDie d f).hostWrites = s.hostWrites := rfl
@[simp] theorem State.modDie_seen (s : State) (d : Nat) (f : Die → Die) : (s.modDie d f).seen = s.seen := rfl
@[simp] theorem State.modDie_settled (s : State) (d : Nat) (f : Die → Die) : (s.modDie d f).settled = s.settled := rfl
@[simp] theorem State.modDie_rows (s : State) (d : Nat) (f : Die → Die) : (s.modDie d f).rows = s.rows := rfl
@[simp] theorem State.modDie_deferred (s : State) (d : Nat) (f : Die → Die) : (s.modDie d f).deferred = s.deferred := rfl
@[simp] theorem State.modDie_hostOut (s : State) (d : Nat) (f : Die → Die) : (s.modDie d f).hostOut = s.hostOut := rfl
@[simp] theorem State.modDie_eccG (s : State) (d : Nat) (f : Die → Die) : (s.modDie d f).eccG = s.eccG := rfl
@[simp] theorem State.modDie_bad (s : State) (d : Nat) (f : Die → Die) : (s.modDie d f).bad = s.bad := rfl
@[simp] theorem State.modDie_away (s : State) (d : Nat) (f : Die → Die) : (s.modDie d f).away = s.away := rfl
@[simp] theorem State.modDie_cur (s : State) (d : Nat) (f : Die → Die) : (s.modDie d f).cur = s.cur := rfl
@[simp] theorem State.modDie_agenda (s : State) (d : Nat) (f : Die → Die) : (s.modDie d f).agenda = s.agenda := rfl
@[simp] theorem State.modDie_auto (s : State) (d : Nat) (f : Die → Die) : (s.modDie d f).auto = s.auto := rfl
@[simp] theorem State.modDie_now (s : State) (d : Nat) (f : Die → Die) : (s.modDie d f).now = s.now := rfl
@[simp] theorem State.modDie_turn (s : State) (d : Nat) (f : Die → Die) : (s.modDie d f).turn = s.turn := rfl
@[simp] theorem State.modDie_seq (s : State) (d : Nat) (f : Die → Die) : (s.modDie d f).seq = s.seq := rfl
@[simp] theorem State.modDie_free (s : State) (d : Nat) (f : Die → Die) : (s.modDie d f).free = s.free := rfl

@[simp] theorem State.modPhy_time (s : State) (p : Nat) (f : Phys → Phys) : (s.modPhy p f).time = s.time := rfl
@[simp] theorem State.modPhy_pkgid (s : State) (p : Nat) (f : Phys → Phys) : (s.modPhy p f).pkgid = s.pkgid := rfl
@[simp] theorem State.modPhy_netId (s : State) (p : Nat) (f : Phys → Phys) : (s.modPhy p f).netId = s.netId := rfl
@[simp] theorem State.modPhy_iface (s : State) (p : Nat) (f : Phys → Phys) : (s.modPhy p f).iface = s.iface := rfl
@[simp] theorem State.modPhy_bootstat (s : State) (p : Nat) (f : Phys → Phys) : (s.modPhy p f).bootstat = s.bootstat := rfl
@[simp] theorem State.modPhy_hostmem (s : State) (p : Nat) (f : Phys → Phys) : (s.modPhy p f).hostmem = s.hostmem := rfl
@[simp] theorem State.modPhy_hdmBase (s : State) (p : Nat) (f : Phys → Phys) : (s.modPhy p f).hdmBase = s.hdmBase := rfl
@[simp] theorem State.modPhy_nbrlost (s : State) (p : Nat) (f : Phys → Phys) : (s.modPhy p f).nbrlost = s.nbrlost := rfl
@[simp] theorem State.modPhy_nbrvec (s : State) (p : Nat) (f : Phys → Phys) : (s.modPhy p f).nbrvec = s.nbrvec := rfl
@[simp] theorem State.modPhy_rcmd (s : State) (p : Nat) (f : Phys → Phys) : (s.modPhy p f).rcmd = s.rcmd := rfl
@[simp] theorem State.modPhy_rstat (s : State) (p : Nat) (f : Phys → Phys) : (s.modPhy p f).rstat = s.rstat := rfl
@[simp] theorem State.modPhy_ccmdDesc (s : State) (p : Nat) (f : Phys → Phys) : (s.modPhy p f).ccmdDesc = s.ccmdDesc := rfl
@[simp] theorem State.modPhy_ccmd (s : State) (p : Nat) (f : Phys → Phys) : (s.modPhy p f).ccmd = s.ccmd := rfl
@[simp] theorem State.modPhy_bcmdDesc (s : State) (p : Nat) (f : Phys → Phys) : (s.modPhy p f).bcmdDesc = s.bcmdDesc := rfl
@[simp] theorem State.modPhy_bcmd (s : State) (p : Nat) (f : Phys → Phys) : (s.modPhy p f).bcmd = s.bcmd := rfl
@[simp] theorem State.modPhy_mbcmd (s : State) (p : Nat) (f : Phys → Phys) : (s.modPhy p f).mbcmd = s.mbcmd := rfl
@[simp] theorem State.modPhy_mbstat (s : State) (p : Nat) (f : Phys → Phys) : (s.modPhy p f).mbstat = s.mbstat := rfl
@[simp] theorem State.modPhy_rollback (s : State) (p : Nat) (f : Phys → Phys) : (s.modPhy p f).rollback = s.rollback := rfl
@[simp] theorem State.modPhy_firmware (s : State) (p : Nat) (f : Phys → Phys) : (s.modPhy p f).firmware = s.firmware := rfl
@[simp] theorem State.modPhy_fwDigest (s : State) (p : Nat) (f : Phys → Phys) : (s.modPhy p f).fwDigest = s.fwDigest := rfl
@[simp] theorem State.modPhy_fusedKey (s : State) (p : Nat) (f : Phys → Phys) : (s.modPhy p f).fusedKey = s.fusedKey := rfl
@[simp] theorem State.modPhy_attestUsed (s : State) (p : Nat) (f : Phys → Phys) : (s.modPhy p f).attestUsed = s.attestUsed := rfl
@[simp] theorem State.modPhy_kemSeed (s : State) (p : Nat) (f : Phys → Phys) : (s.modPhy p f).kemSeed = s.kemSeed := rfl
@[simp] theorem State.modPhy_badPhys (s : State) (p : Nat) (f : Phys → Phys) : (s.modPhy p f).badPhys = s.badPhys := rfl
@[simp] theorem State.modPhy_entries (s : State) (p : Nat) (f : Phys → Phys) : (s.modPhy p f).entries = s.entries := rfl
@[simp] theorem State.modPhy_heldOf (s : State) (p : Nat) (f : Phys → Phys) : (s.modPhy p f).heldOf = s.heldOf := rfl
@[simp] theorem State.modPhy_heldSpawn (s : State) (p : Nat) (f : Phys → Phys) : (s.modPhy p f).heldSpawn = s.heldSpawn := rfl
@[simp] theorem State.modPhy_heldSig (s : State) (p : Nat) (f : Phys → Phys) : (s.modPhy p f).heldSig = s.heldSig := rfl
@[simp] theorem State.modPhy_txBad (s : State) (p : Nat) (f : Phys → Phys) : (s.modPhy p f).txBad = s.txBad := rfl
@[simp] theorem State.modPhy_inbuf (s : State) (p : Nat) (f : Phys → Phys) : (s.modPhy p f).inbuf = s.inbuf := rfl
@[simp] theorem State.modPhy_loop (s : State) (p : Nat) (f : Phys → Phys) : (s.modPhy p f).loop = s.loop := rfl
@[simp] theorem State.modPhy_landing (s : State) (p : Nat) (f : Phys → Phys) : (s.modPhy p f).landing = s.landing := rfl
@[simp] theorem State.modPhy_refreshed (s : State) (p : Nat) (f : Phys → Phys) : (s.modPhy p f).refreshed = s.refreshed := rfl
@[simp] theorem State.modPhy_msc (s : State) (p : Nat) (f : Phys → Phys) : (s.modPhy p f).msc = s.msc := rfl
@[simp] theorem State.modPhy_quiet (s : State) (p : Nat) (f : Phys → Phys) : (s.modPhy p f).quiet = s.quiet := rfl
@[simp] theorem State.modPhy_teardowns (s : State) (p : Nat) (f : Phys → Phys) : (s.modPhy p f).teardowns = s.teardowns := rfl
@[simp] theorem State.modPhy_hostBad (s : State) (p : Nat) (f : Phys → Phys) : (s.modPhy p f).hostBad = s.hostBad := rfl
@[simp] theorem State.modPhy_clmap (s : State) (p : Nat) (f : Phys → Phys) : (s.modPhy p f).clmap = s.clmap := rfl
@[simp] theorem State.modPhy_awaiting (s : State) (p : Nat) (f : Phys → Phys) : (s.modPhy p f).awaiting = s.awaiting := rfl
@[simp] theorem State.modPhy_fusedBad (s : State) (p : Nat) (f : Phys → Phys) : (s.modPhy p f).fusedBad = s.fusedBad := rfl
@[simp] theorem State.modPhy_fencedPhys (s : State) (p : Nat) (f : Phys → Phys) : (s.modPhy p f).fencedPhys = s.fencedPhys := rfl
@[simp] theorem State.modPhy_fencedLog (s : State) (p : Nat) (f : Phys → Phys) : (s.modPhy p f).fencedLog = s.fencedLog := rfl
@[simp] theorem State.modPhy_psn (s : State) (p : Nat) (f : Phys → Phys) : (s.modPhy p f).psn = s.psn := rfl
@[simp] theorem State.modPhy_marked (s : State) (p : Nat) (f : Phys → Phys) : (s.modPhy p f).marked = s.marked := rfl
@[simp] theorem State.modPhy_hostWBad (s : State) (p : Nat) (f : Phys → Phys) : (s.modPhy p f).hostWBad = s.hostWBad := rfl
@[simp] theorem State.modPhy_eccFix (s : State) (p : Nat) (f : Phys → Phys) : (s.modPhy p f).eccFix = s.eccFix := rfl
@[simp] theorem State.modPhy_tlb (s : State) (p : Nat) (f : Phys → Phys) : (s.modPhy p f).tlb = s.tlb := rfl
@[simp] theorem State.modPhy_ckpts (s : State) (p : Nat) (f : Phys → Phys) : (s.modPhy p f).ckpts = s.ckpts := rfl
@[simp] theorem State.modPhy_ckJobs (s : State) (p : Nat) (f : Phys → Phys) : (s.modPhy p f).ckJobs = s.ckJobs := rfl
@[simp] theorem State.modPhy_hbm (s : State) (p : Nat) (f : Phys → Phys) : (s.modPhy p f).hbm = s.hbm := rfl
@[simp] theorem State.modPhy_lineKey (s : State) (p : Nat) (f : Phys → Phys) : (s.modPhy p f).lineKey = s.lineKey := rfl
@[simp] theorem State.modPhy_hostMem (s : State) (p : Nat) (f : Phys → Phys) : (s.modPhy p f).hostMem = s.hostMem := rfl
@[simp] theorem State.modPhy_regions (s : State) (p : Nat) (f : Phys → Phys) : (s.modPhy p f).regions = s.regions := rfl
@[simp] theorem State.modPhy_frames (s : State) (p : Nat) (f : Phys → Phys) : (s.modPhy p f).frames = s.frames := rfl
@[simp] theorem State.modPhy_threads (s : State) (p : Nat) (f : Phys → Phys) : (s.modPhy p f).threads = s.threads := rfl
@[simp] theorem State.modPhy_pairs (s : State) (p : Nat) (f : Phys → Phys) : (s.modPhy p f).pairs = s.pairs := rfl
@[simp] theorem State.modPhy_clus (s : State) (p : Nat) (f : Phys → Phys) : (s.modPhy p f).clus = s.clus := rfl
@[simp] theorem State.modPhy_dies (s : State) (p : Nat) (f : Phys → Phys) : (s.modPhy p f).dies = s.dies := rfl
@[simp] theorem State.modPhy_keys (s : State) (p : Nat) (f : Phys → Phys) : (s.modPhy p f).keys = s.keys := rfl
@[simp] theorem State.modPhy_lanes (s : State) (p : Nat) (f : Phys → Phys) : (s.modPhy p f).lanes = s.lanes := rfl
@[simp] theorem State.modPhy_cmds (s : State) (p : Nat) (f : Phys → Phys) : (s.modPhy p f).cmds = s.cmds := rfl
@[simp] theorem State.modPhy_acts (s : State) (p : Nat) (f : Phys → Phys) : (s.modPhy p f).acts = s.acts := rfl
@[simp] theorem State.modPhy_streams (s : State) (p : Nat) (f : Phys → Phys) : (s.modPhy p f).streams = s.streams := rfl
@[simp] theorem State.modPhy_eports (s : State) (p : Nat) (f : Phys → Phys) : (s.modPhy p f).eports = s.eports := rfl
@[simp] theorem State.modPhy_msixTable (s : State) (p : Nat) (f : Phys → Phys) : (s.modPhy p f).msixTable = s.msixTable := rfl
@[simp] theorem State.modPhy_msixPend (s : State) (p : Nat) (f : Phys → Phys) : (s.modPhy p f).msixPend = s.msixPend := rfl
@[simp] theorem State.modPhy_hostWrites (s : State) (p : Nat) (f : Phys → Phys) : (s.modPhy p f).hostWrites = s.hostWrites := rfl
@[simp] theorem State.modPhy_seen (s : State) (p : Nat) (f : Phys → Phys) : (s.modPhy p f).seen = s.seen := rfl
@[simp] theorem State.modPhy_settled (s : State) (p : Nat) (f : Phys → Phys) : (s.modPhy p f).settled = s.settled := rfl
@[simp] theorem State.modPhy_rows (s : State) (p : Nat) (f : Phys → Phys) : (s.modPhy p f).rows = s.rows := rfl
@[simp] theorem State.modPhy_deferred (s : State) (p : Nat) (f : Phys → Phys) : (s.modPhy p f).deferred = s.deferred := rfl
@[simp] theorem State.modPhy_hostOut (s : State) (p : Nat) (f : Phys → Phys) : (s.modPhy p f).hostOut = s.hostOut := rfl
@[simp] theorem State.modPhy_eccG (s : State) (p : Nat) (f : Phys → Phys) : (s.modPhy p f).eccG = s.eccG := rfl
@[simp] theorem State.modPhy_bad (s : State) (p : Nat) (f : Phys → Phys) : (s.modPhy p f).bad = s.bad := rfl
@[simp] theorem State.modPhy_away (s : State) (p : Nat) (f : Phys → Phys) : (s.modPhy p f).away = s.away := rfl
@[simp] theorem State.modPhy_cur (s : State) (p : Nat) (f : Phys → Phys) : (s.modPhy p f).cur = s.cur := rfl
@[simp] theorem State.modPhy_agenda (s : State) (p : Nat) (f : Phys → Phys) : (s.modPhy p f).agenda = s.agenda := rfl
@[simp] theorem State.modPhy_auto (s : State) (p : Nat) (f : Phys → Phys) : (s.modPhy p f).auto = s.auto := rfl
@[simp] theorem State.modPhy_now (s : State) (p : Nat) (f : Phys → Phys) : (s.modPhy p f).now = s.now := rfl
@[simp] theorem State.modPhy_turn (s : State) (p : Nat) (f : Phys → Phys) : (s.modPhy p f).turn = s.turn := rfl
@[simp] theorem State.modPhy_seq (s : State) (p : Nat) (f : Phys → Phys) : (s.modPhy p f).seq = s.seq := rfl
@[simp] theorem State.modPhy_free (s : State) (p : Nat) (f : Phys → Phys) : (s.modPhy p f).free = s.free := rfl

@[simp] theorem State.modPair_time (s : State) (p : Nat) (f : Pair → Pair) : (s.modPair p f).time = s.time := rfl
@[simp] theorem State.modPair_pkgid (s : State) (p : Nat) (f : Pair → Pair) : (s.modPair p f).pkgid = s.pkgid := rfl
@[simp] theorem State.modPair_netId (s : State) (p : Nat) (f : Pair → Pair) : (s.modPair p f).netId = s.netId := rfl
@[simp] theorem State.modPair_iface (s : State) (p : Nat) (f : Pair → Pair) : (s.modPair p f).iface = s.iface := rfl
@[simp] theorem State.modPair_bootstat (s : State) (p : Nat) (f : Pair → Pair) : (s.modPair p f).bootstat = s.bootstat := rfl
@[simp] theorem State.modPair_hostmem (s : State) (p : Nat) (f : Pair → Pair) : (s.modPair p f).hostmem = s.hostmem := rfl
@[simp] theorem State.modPair_hdmBase (s : State) (p : Nat) (f : Pair → Pair) : (s.modPair p f).hdmBase = s.hdmBase := rfl
@[simp] theorem State.modPair_nbrlost (s : State) (p : Nat) (f : Pair → Pair) : (s.modPair p f).nbrlost = s.nbrlost := rfl
@[simp] theorem State.modPair_nbrvec (s : State) (p : Nat) (f : Pair → Pair) : (s.modPair p f).nbrvec = s.nbrvec := rfl
@[simp] theorem State.modPair_rcmd (s : State) (p : Nat) (f : Pair → Pair) : (s.modPair p f).rcmd = s.rcmd := rfl
@[simp] theorem State.modPair_rstat (s : State) (p : Nat) (f : Pair → Pair) : (s.modPair p f).rstat = s.rstat := rfl
@[simp] theorem State.modPair_ccmdDesc (s : State) (p : Nat) (f : Pair → Pair) : (s.modPair p f).ccmdDesc = s.ccmdDesc := rfl
@[simp] theorem State.modPair_ccmd (s : State) (p : Nat) (f : Pair → Pair) : (s.modPair p f).ccmd = s.ccmd := rfl
@[simp] theorem State.modPair_bcmdDesc (s : State) (p : Nat) (f : Pair → Pair) : (s.modPair p f).bcmdDesc = s.bcmdDesc := rfl
@[simp] theorem State.modPair_bcmd (s : State) (p : Nat) (f : Pair → Pair) : (s.modPair p f).bcmd = s.bcmd := rfl
@[simp] theorem State.modPair_mbcmd (s : State) (p : Nat) (f : Pair → Pair) : (s.modPair p f).mbcmd = s.mbcmd := rfl
@[simp] theorem State.modPair_mbstat (s : State) (p : Nat) (f : Pair → Pair) : (s.modPair p f).mbstat = s.mbstat := rfl
@[simp] theorem State.modPair_rollback (s : State) (p : Nat) (f : Pair → Pair) : (s.modPair p f).rollback = s.rollback := rfl
@[simp] theorem State.modPair_firmware (s : State) (p : Nat) (f : Pair → Pair) : (s.modPair p f).firmware = s.firmware := rfl
@[simp] theorem State.modPair_fwDigest (s : State) (p : Nat) (f : Pair → Pair) : (s.modPair p f).fwDigest = s.fwDigest := rfl
@[simp] theorem State.modPair_fusedKey (s : State) (p : Nat) (f : Pair → Pair) : (s.modPair p f).fusedKey = s.fusedKey := rfl
@[simp] theorem State.modPair_attestUsed (s : State) (p : Nat) (f : Pair → Pair) : (s.modPair p f).attestUsed = s.attestUsed := rfl
@[simp] theorem State.modPair_kemSeed (s : State) (p : Nat) (f : Pair → Pair) : (s.modPair p f).kemSeed = s.kemSeed := rfl
@[simp] theorem State.modPair_badPhys (s : State) (p : Nat) (f : Pair → Pair) : (s.modPair p f).badPhys = s.badPhys := rfl
@[simp] theorem State.modPair_entries (s : State) (p : Nat) (f : Pair → Pair) : (s.modPair p f).entries = s.entries := rfl
@[simp] theorem State.modPair_heldOf (s : State) (p : Nat) (f : Pair → Pair) : (s.modPair p f).heldOf = s.heldOf := rfl
@[simp] theorem State.modPair_heldSpawn (s : State) (p : Nat) (f : Pair → Pair) : (s.modPair p f).heldSpawn = s.heldSpawn := rfl
@[simp] theorem State.modPair_heldSig (s : State) (p : Nat) (f : Pair → Pair) : (s.modPair p f).heldSig = s.heldSig := rfl
@[simp] theorem State.modPair_txBad (s : State) (p : Nat) (f : Pair → Pair) : (s.modPair p f).txBad = s.txBad := rfl
@[simp] theorem State.modPair_inbuf (s : State) (p : Nat) (f : Pair → Pair) : (s.modPair p f).inbuf = s.inbuf := rfl
@[simp] theorem State.modPair_loop (s : State) (p : Nat) (f : Pair → Pair) : (s.modPair p f).loop = s.loop := rfl
@[simp] theorem State.modPair_landing (s : State) (p : Nat) (f : Pair → Pair) : (s.modPair p f).landing = s.landing := rfl
@[simp] theorem State.modPair_refreshed (s : State) (p : Nat) (f : Pair → Pair) : (s.modPair p f).refreshed = s.refreshed := rfl
@[simp] theorem State.modPair_msc (s : State) (p : Nat) (f : Pair → Pair) : (s.modPair p f).msc = s.msc := rfl
@[simp] theorem State.modPair_quiet (s : State) (p : Nat) (f : Pair → Pair) : (s.modPair p f).quiet = s.quiet := rfl
@[simp] theorem State.modPair_teardowns (s : State) (p : Nat) (f : Pair → Pair) : (s.modPair p f).teardowns = s.teardowns := rfl
@[simp] theorem State.modPair_hostBad (s : State) (p : Nat) (f : Pair → Pair) : (s.modPair p f).hostBad = s.hostBad := rfl
@[simp] theorem State.modPair_clmap (s : State) (p : Nat) (f : Pair → Pair) : (s.modPair p f).clmap = s.clmap := rfl
@[simp] theorem State.modPair_awaiting (s : State) (p : Nat) (f : Pair → Pair) : (s.modPair p f).awaiting = s.awaiting := rfl
@[simp] theorem State.modPair_fusedBad (s : State) (p : Nat) (f : Pair → Pair) : (s.modPair p f).fusedBad = s.fusedBad := rfl
@[simp] theorem State.modPair_fencedPhys (s : State) (p : Nat) (f : Pair → Pair) : (s.modPair p f).fencedPhys = s.fencedPhys := rfl
@[simp] theorem State.modPair_fencedLog (s : State) (p : Nat) (f : Pair → Pair) : (s.modPair p f).fencedLog = s.fencedLog := rfl
@[simp] theorem State.modPair_psn (s : State) (p : Nat) (f : Pair → Pair) : (s.modPair p f).psn = s.psn := rfl
@[simp] theorem State.modPair_marked (s : State) (p : Nat) (f : Pair → Pair) : (s.modPair p f).marked = s.marked := rfl
@[simp] theorem State.modPair_hostWBad (s : State) (p : Nat) (f : Pair → Pair) : (s.modPair p f).hostWBad = s.hostWBad := rfl
@[simp] theorem State.modPair_eccFix (s : State) (p : Nat) (f : Pair → Pair) : (s.modPair p f).eccFix = s.eccFix := rfl
@[simp] theorem State.modPair_tlb (s : State) (p : Nat) (f : Pair → Pair) : (s.modPair p f).tlb = s.tlb := rfl
@[simp] theorem State.modPair_ckpts (s : State) (p : Nat) (f : Pair → Pair) : (s.modPair p f).ckpts = s.ckpts := rfl
@[simp] theorem State.modPair_ckJobs (s : State) (p : Nat) (f : Pair → Pair) : (s.modPair p f).ckJobs = s.ckJobs := rfl
@[simp] theorem State.modPair_hbm (s : State) (p : Nat) (f : Pair → Pair) : (s.modPair p f).hbm = s.hbm := rfl
@[simp] theorem State.modPair_lineKey (s : State) (p : Nat) (f : Pair → Pair) : (s.modPair p f).lineKey = s.lineKey := rfl
@[simp] theorem State.modPair_hostMem (s : State) (p : Nat) (f : Pair → Pair) : (s.modPair p f).hostMem = s.hostMem := rfl
@[simp] theorem State.modPair_regions (s : State) (p : Nat) (f : Pair → Pair) : (s.modPair p f).regions = s.regions := rfl
@[simp] theorem State.modPair_frames (s : State) (p : Nat) (f : Pair → Pair) : (s.modPair p f).frames = s.frames := rfl
@[simp] theorem State.modPair_threads (s : State) (p : Nat) (f : Pair → Pair) : (s.modPair p f).threads = s.threads := rfl
@[simp] theorem State.modPair_phys (s : State) (p : Nat) (f : Pair → Pair) : (s.modPair p f).phys = s.phys := rfl
@[simp] theorem State.modPair_clus (s : State) (p : Nat) (f : Pair → Pair) : (s.modPair p f).clus = s.clus := rfl
@[simp] theorem State.modPair_dies (s : State) (p : Nat) (f : Pair → Pair) : (s.modPair p f).dies = s.dies := rfl
@[simp] theorem State.modPair_keys (s : State) (p : Nat) (f : Pair → Pair) : (s.modPair p f).keys = s.keys := rfl
@[simp] theorem State.modPair_lanes (s : State) (p : Nat) (f : Pair → Pair) : (s.modPair p f).lanes = s.lanes := rfl
@[simp] theorem State.modPair_cmds (s : State) (p : Nat) (f : Pair → Pair) : (s.modPair p f).cmds = s.cmds := rfl
@[simp] theorem State.modPair_acts (s : State) (p : Nat) (f : Pair → Pair) : (s.modPair p f).acts = s.acts := rfl
@[simp] theorem State.modPair_streams (s : State) (p : Nat) (f : Pair → Pair) : (s.modPair p f).streams = s.streams := rfl
@[simp] theorem State.modPair_eports (s : State) (p : Nat) (f : Pair → Pair) : (s.modPair p f).eports = s.eports := rfl
@[simp] theorem State.modPair_msixTable (s : State) (p : Nat) (f : Pair → Pair) : (s.modPair p f).msixTable = s.msixTable := rfl
@[simp] theorem State.modPair_msixPend (s : State) (p : Nat) (f : Pair → Pair) : (s.modPair p f).msixPend = s.msixPend := rfl
@[simp] theorem State.modPair_hostWrites (s : State) (p : Nat) (f : Pair → Pair) : (s.modPair p f).hostWrites = s.hostWrites := rfl
@[simp] theorem State.modPair_seen (s : State) (p : Nat) (f : Pair → Pair) : (s.modPair p f).seen = s.seen := rfl
@[simp] theorem State.modPair_settled (s : State) (p : Nat) (f : Pair → Pair) : (s.modPair p f).settled = s.settled := rfl
@[simp] theorem State.modPair_rows (s : State) (p : Nat) (f : Pair → Pair) : (s.modPair p f).rows = s.rows := rfl
@[simp] theorem State.modPair_deferred (s : State) (p : Nat) (f : Pair → Pair) : (s.modPair p f).deferred = s.deferred := rfl
@[simp] theorem State.modPair_hostOut (s : State) (p : Nat) (f : Pair → Pair) : (s.modPair p f).hostOut = s.hostOut := rfl
@[simp] theorem State.modPair_eccG (s : State) (p : Nat) (f : Pair → Pair) : (s.modPair p f).eccG = s.eccG := rfl
@[simp] theorem State.modPair_bad (s : State) (p : Nat) (f : Pair → Pair) : (s.modPair p f).bad = s.bad := rfl
@[simp] theorem State.modPair_away (s : State) (p : Nat) (f : Pair → Pair) : (s.modPair p f).away = s.away := rfl
@[simp] theorem State.modPair_cur (s : State) (p : Nat) (f : Pair → Pair) : (s.modPair p f).cur = s.cur := rfl
@[simp] theorem State.modPair_agenda (s : State) (p : Nat) (f : Pair → Pair) : (s.modPair p f).agenda = s.agenda := rfl
@[simp] theorem State.modPair_auto (s : State) (p : Nat) (f : Pair → Pair) : (s.modPair p f).auto = s.auto := rfl
@[simp] theorem State.modPair_now (s : State) (p : Nat) (f : Pair → Pair) : (s.modPair p f).now = s.now := rfl
@[simp] theorem State.modPair_turn (s : State) (p : Nat) (f : Pair → Pair) : (s.modPair p f).turn = s.turn := rfl
@[simp] theorem State.modPair_seq (s : State) (p : Nat) (f : Pair → Pair) : (s.modPair p f).seq = s.seq := rfl
@[simp] theorem State.modPair_free (s : State) (p : Nat) (f : Pair → Pair) : (s.modPair p f).free = s.free := rfl

@[simp] theorem State.modEport_time (s : State) (p : Nat) (f : EPort → EPort) : (s.modEport p f).time = s.time := rfl
@[simp] theorem State.modEport_pkgid (s : State) (p : Nat) (f : EPort → EPort) : (s.modEport p f).pkgid = s.pkgid := rfl
@[simp] theorem State.modEport_netId (s : State) (p : Nat) (f : EPort → EPort) : (s.modEport p f).netId = s.netId := rfl
@[simp] theorem State.modEport_iface (s : State) (p : Nat) (f : EPort → EPort) : (s.modEport p f).iface = s.iface := rfl
@[simp] theorem State.modEport_bootstat (s : State) (p : Nat) (f : EPort → EPort) : (s.modEport p f).bootstat = s.bootstat := rfl
@[simp] theorem State.modEport_hostmem (s : State) (p : Nat) (f : EPort → EPort) : (s.modEport p f).hostmem = s.hostmem := rfl
@[simp] theorem State.modEport_hdmBase (s : State) (p : Nat) (f : EPort → EPort) : (s.modEport p f).hdmBase = s.hdmBase := rfl
@[simp] theorem State.modEport_nbrlost (s : State) (p : Nat) (f : EPort → EPort) : (s.modEport p f).nbrlost = s.nbrlost := rfl
@[simp] theorem State.modEport_nbrvec (s : State) (p : Nat) (f : EPort → EPort) : (s.modEport p f).nbrvec = s.nbrvec := rfl
@[simp] theorem State.modEport_rcmd (s : State) (p : Nat) (f : EPort → EPort) : (s.modEport p f).rcmd = s.rcmd := rfl
@[simp] theorem State.modEport_rstat (s : State) (p : Nat) (f : EPort → EPort) : (s.modEport p f).rstat = s.rstat := rfl
@[simp] theorem State.modEport_ccmdDesc (s : State) (p : Nat) (f : EPort → EPort) : (s.modEport p f).ccmdDesc = s.ccmdDesc := rfl
@[simp] theorem State.modEport_ccmd (s : State) (p : Nat) (f : EPort → EPort) : (s.modEport p f).ccmd = s.ccmd := rfl
@[simp] theorem State.modEport_bcmdDesc (s : State) (p : Nat) (f : EPort → EPort) : (s.modEport p f).bcmdDesc = s.bcmdDesc := rfl
@[simp] theorem State.modEport_bcmd (s : State) (p : Nat) (f : EPort → EPort) : (s.modEport p f).bcmd = s.bcmd := rfl
@[simp] theorem State.modEport_mbcmd (s : State) (p : Nat) (f : EPort → EPort) : (s.modEport p f).mbcmd = s.mbcmd := rfl
@[simp] theorem State.modEport_mbstat (s : State) (p : Nat) (f : EPort → EPort) : (s.modEport p f).mbstat = s.mbstat := rfl
@[simp] theorem State.modEport_rollback (s : State) (p : Nat) (f : EPort → EPort) : (s.modEport p f).rollback = s.rollback := rfl
@[simp] theorem State.modEport_firmware (s : State) (p : Nat) (f : EPort → EPort) : (s.modEport p f).firmware = s.firmware := rfl
@[simp] theorem State.modEport_fwDigest (s : State) (p : Nat) (f : EPort → EPort) : (s.modEport p f).fwDigest = s.fwDigest := rfl
@[simp] theorem State.modEport_fusedKey (s : State) (p : Nat) (f : EPort → EPort) : (s.modEport p f).fusedKey = s.fusedKey := rfl
@[simp] theorem State.modEport_attestUsed (s : State) (p : Nat) (f : EPort → EPort) : (s.modEport p f).attestUsed = s.attestUsed := rfl
@[simp] theorem State.modEport_kemSeed (s : State) (p : Nat) (f : EPort → EPort) : (s.modEport p f).kemSeed = s.kemSeed := rfl
@[simp] theorem State.modEport_badPhys (s : State) (p : Nat) (f : EPort → EPort) : (s.modEport p f).badPhys = s.badPhys := rfl
@[simp] theorem State.modEport_entries (s : State) (p : Nat) (f : EPort → EPort) : (s.modEport p f).entries = s.entries := rfl
@[simp] theorem State.modEport_heldOf (s : State) (p : Nat) (f : EPort → EPort) : (s.modEport p f).heldOf = s.heldOf := rfl
@[simp] theorem State.modEport_heldSpawn (s : State) (p : Nat) (f : EPort → EPort) : (s.modEport p f).heldSpawn = s.heldSpawn := rfl
@[simp] theorem State.modEport_heldSig (s : State) (p : Nat) (f : EPort → EPort) : (s.modEport p f).heldSig = s.heldSig := rfl
@[simp] theorem State.modEport_txBad (s : State) (p : Nat) (f : EPort → EPort) : (s.modEport p f).txBad = s.txBad := rfl
@[simp] theorem State.modEport_inbuf (s : State) (p : Nat) (f : EPort → EPort) : (s.modEport p f).inbuf = s.inbuf := rfl
@[simp] theorem State.modEport_loop (s : State) (p : Nat) (f : EPort → EPort) : (s.modEport p f).loop = s.loop := rfl
@[simp] theorem State.modEport_landing (s : State) (p : Nat) (f : EPort → EPort) : (s.modEport p f).landing = s.landing := rfl
@[simp] theorem State.modEport_refreshed (s : State) (p : Nat) (f : EPort → EPort) : (s.modEport p f).refreshed = s.refreshed := rfl
@[simp] theorem State.modEport_msc (s : State) (p : Nat) (f : EPort → EPort) : (s.modEport p f).msc = s.msc := rfl
@[simp] theorem State.modEport_quiet (s : State) (p : Nat) (f : EPort → EPort) : (s.modEport p f).quiet = s.quiet := rfl
@[simp] theorem State.modEport_teardowns (s : State) (p : Nat) (f : EPort → EPort) : (s.modEport p f).teardowns = s.teardowns := rfl
@[simp] theorem State.modEport_hostBad (s : State) (p : Nat) (f : EPort → EPort) : (s.modEport p f).hostBad = s.hostBad := rfl
@[simp] theorem State.modEport_clmap (s : State) (p : Nat) (f : EPort → EPort) : (s.modEport p f).clmap = s.clmap := rfl
@[simp] theorem State.modEport_awaiting (s : State) (p : Nat) (f : EPort → EPort) : (s.modEport p f).awaiting = s.awaiting := rfl
@[simp] theorem State.modEport_fusedBad (s : State) (p : Nat) (f : EPort → EPort) : (s.modEport p f).fusedBad = s.fusedBad := rfl
@[simp] theorem State.modEport_fencedPhys (s : State) (p : Nat) (f : EPort → EPort) : (s.modEport p f).fencedPhys = s.fencedPhys := rfl
@[simp] theorem State.modEport_fencedLog (s : State) (p : Nat) (f : EPort → EPort) : (s.modEport p f).fencedLog = s.fencedLog := rfl
@[simp] theorem State.modEport_psn (s : State) (p : Nat) (f : EPort → EPort) : (s.modEport p f).psn = s.psn := rfl
@[simp] theorem State.modEport_marked (s : State) (p : Nat) (f : EPort → EPort) : (s.modEport p f).marked = s.marked := rfl
@[simp] theorem State.modEport_hostWBad (s : State) (p : Nat) (f : EPort → EPort) : (s.modEport p f).hostWBad = s.hostWBad := rfl
@[simp] theorem State.modEport_eccFix (s : State) (p : Nat) (f : EPort → EPort) : (s.modEport p f).eccFix = s.eccFix := rfl
@[simp] theorem State.modEport_tlb (s : State) (p : Nat) (f : EPort → EPort) : (s.modEport p f).tlb = s.tlb := rfl
@[simp] theorem State.modEport_ckpts (s : State) (p : Nat) (f : EPort → EPort) : (s.modEport p f).ckpts = s.ckpts := rfl
@[simp] theorem State.modEport_ckJobs (s : State) (p : Nat) (f : EPort → EPort) : (s.modEport p f).ckJobs = s.ckJobs := rfl
@[simp] theorem State.modEport_hbm (s : State) (p : Nat) (f : EPort → EPort) : (s.modEport p f).hbm = s.hbm := rfl
@[simp] theorem State.modEport_lineKey (s : State) (p : Nat) (f : EPort → EPort) : (s.modEport p f).lineKey = s.lineKey := rfl
@[simp] theorem State.modEport_hostMem (s : State) (p : Nat) (f : EPort → EPort) : (s.modEport p f).hostMem = s.hostMem := rfl
@[simp] theorem State.modEport_regions (s : State) (p : Nat) (f : EPort → EPort) : (s.modEport p f).regions = s.regions := rfl
@[simp] theorem State.modEport_frames (s : State) (p : Nat) (f : EPort → EPort) : (s.modEport p f).frames = s.frames := rfl
@[simp] theorem State.modEport_threads (s : State) (p : Nat) (f : EPort → EPort) : (s.modEport p f).threads = s.threads := rfl
@[simp] theorem State.modEport_phys (s : State) (p : Nat) (f : EPort → EPort) : (s.modEport p f).phys = s.phys := rfl
@[simp] theorem State.modEport_pairs (s : State) (p : Nat) (f : EPort → EPort) : (s.modEport p f).pairs = s.pairs := rfl
@[simp] theorem State.modEport_clus (s : State) (p : Nat) (f : EPort → EPort) : (s.modEport p f).clus = s.clus := rfl
@[simp] theorem State.modEport_dies (s : State) (p : Nat) (f : EPort → EPort) : (s.modEport p f).dies = s.dies := rfl
@[simp] theorem State.modEport_keys (s : State) (p : Nat) (f : EPort → EPort) : (s.modEport p f).keys = s.keys := rfl
@[simp] theorem State.modEport_lanes (s : State) (p : Nat) (f : EPort → EPort) : (s.modEport p f).lanes = s.lanes := rfl
@[simp] theorem State.modEport_cmds (s : State) (p : Nat) (f : EPort → EPort) : (s.modEport p f).cmds = s.cmds := rfl
@[simp] theorem State.modEport_acts (s : State) (p : Nat) (f : EPort → EPort) : (s.modEport p f).acts = s.acts := rfl
@[simp] theorem State.modEport_streams (s : State) (p : Nat) (f : EPort → EPort) : (s.modEport p f).streams = s.streams := rfl
@[simp] theorem State.modEport_msixTable (s : State) (p : Nat) (f : EPort → EPort) : (s.modEport p f).msixTable = s.msixTable := rfl
@[simp] theorem State.modEport_msixPend (s : State) (p : Nat) (f : EPort → EPort) : (s.modEport p f).msixPend = s.msixPend := rfl
@[simp] theorem State.modEport_hostWrites (s : State) (p : Nat) (f : EPort → EPort) : (s.modEport p f).hostWrites = s.hostWrites := rfl
@[simp] theorem State.modEport_seen (s : State) (p : Nat) (f : EPort → EPort) : (s.modEport p f).seen = s.seen := rfl
@[simp] theorem State.modEport_settled (s : State) (p : Nat) (f : EPort → EPort) : (s.modEport p f).settled = s.settled := rfl
@[simp] theorem State.modEport_rows (s : State) (p : Nat) (f : EPort → EPort) : (s.modEport p f).rows = s.rows := rfl
@[simp] theorem State.modEport_deferred (s : State) (p : Nat) (f : EPort → EPort) : (s.modEport p f).deferred = s.deferred := rfl
@[simp] theorem State.modEport_hostOut (s : State) (p : Nat) (f : EPort → EPort) : (s.modEport p f).hostOut = s.hostOut := rfl
@[simp] theorem State.modEport_eccG (s : State) (p : Nat) (f : EPort → EPort) : (s.modEport p f).eccG = s.eccG := rfl
@[simp] theorem State.modEport_bad (s : State) (p : Nat) (f : EPort → EPort) : (s.modEport p f).bad = s.bad := rfl
@[simp] theorem State.modEport_away (s : State) (p : Nat) (f : EPort → EPort) : (s.modEport p f).away = s.away := rfl
@[simp] theorem State.modEport_cur (s : State) (p : Nat) (f : EPort → EPort) : (s.modEport p f).cur = s.cur := rfl
@[simp] theorem State.modEport_agenda (s : State) (p : Nat) (f : EPort → EPort) : (s.modEport p f).agenda = s.agenda := rfl
@[simp] theorem State.modEport_auto (s : State) (p : Nat) (f : EPort → EPort) : (s.modEport p f).auto = s.auto := rfl
@[simp] theorem State.modEport_now (s : State) (p : Nat) (f : EPort → EPort) : (s.modEport p f).now = s.now := rfl
@[simp] theorem State.modEport_turn (s : State) (p : Nat) (f : EPort → EPort) : (s.modEport p f).turn = s.turn := rfl
@[simp] theorem State.modEport_seq (s : State) (p : Nat) (f : EPort → EPort) : (s.modEport p f).seq = s.seq := rfl
@[simp] theorem State.modEport_free (s : State) (p : Nat) (f : EPort → EPort) : (s.modEport p f).free = s.free := rfl

@[simp] theorem State.modLane_time (s : State) (k : Nat) (f : Lane → Lane) : (s.modLane k f).time = s.time := rfl
@[simp] theorem State.modLane_pkgid (s : State) (k : Nat) (f : Lane → Lane) : (s.modLane k f).pkgid = s.pkgid := rfl
@[simp] theorem State.modLane_netId (s : State) (k : Nat) (f : Lane → Lane) : (s.modLane k f).netId = s.netId := rfl
@[simp] theorem State.modLane_iface (s : State) (k : Nat) (f : Lane → Lane) : (s.modLane k f).iface = s.iface := rfl
@[simp] theorem State.modLane_bootstat (s : State) (k : Nat) (f : Lane → Lane) : (s.modLane k f).bootstat = s.bootstat := rfl
@[simp] theorem State.modLane_hostmem (s : State) (k : Nat) (f : Lane → Lane) : (s.modLane k f).hostmem = s.hostmem := rfl
@[simp] theorem State.modLane_hdmBase (s : State) (k : Nat) (f : Lane → Lane) : (s.modLane k f).hdmBase = s.hdmBase := rfl
@[simp] theorem State.modLane_nbrlost (s : State) (k : Nat) (f : Lane → Lane) : (s.modLane k f).nbrlost = s.nbrlost := rfl
@[simp] theorem State.modLane_nbrvec (s : State) (k : Nat) (f : Lane → Lane) : (s.modLane k f).nbrvec = s.nbrvec := rfl
@[simp] theorem State.modLane_rcmd (s : State) (k : Nat) (f : Lane → Lane) : (s.modLane k f).rcmd = s.rcmd := rfl
@[simp] theorem State.modLane_rstat (s : State) (k : Nat) (f : Lane → Lane) : (s.modLane k f).rstat = s.rstat := rfl
@[simp] theorem State.modLane_ccmdDesc (s : State) (k : Nat) (f : Lane → Lane) : (s.modLane k f).ccmdDesc = s.ccmdDesc := rfl
@[simp] theorem State.modLane_ccmd (s : State) (k : Nat) (f : Lane → Lane) : (s.modLane k f).ccmd = s.ccmd := rfl
@[simp] theorem State.modLane_bcmdDesc (s : State) (k : Nat) (f : Lane → Lane) : (s.modLane k f).bcmdDesc = s.bcmdDesc := rfl
@[simp] theorem State.modLane_bcmd (s : State) (k : Nat) (f : Lane → Lane) : (s.modLane k f).bcmd = s.bcmd := rfl
@[simp] theorem State.modLane_mbcmd (s : State) (k : Nat) (f : Lane → Lane) : (s.modLane k f).mbcmd = s.mbcmd := rfl
@[simp] theorem State.modLane_mbstat (s : State) (k : Nat) (f : Lane → Lane) : (s.modLane k f).mbstat = s.mbstat := rfl
@[simp] theorem State.modLane_rollback (s : State) (k : Nat) (f : Lane → Lane) : (s.modLane k f).rollback = s.rollback := rfl
@[simp] theorem State.modLane_firmware (s : State) (k : Nat) (f : Lane → Lane) : (s.modLane k f).firmware = s.firmware := rfl
@[simp] theorem State.modLane_fwDigest (s : State) (k : Nat) (f : Lane → Lane) : (s.modLane k f).fwDigest = s.fwDigest := rfl
@[simp] theorem State.modLane_fusedKey (s : State) (k : Nat) (f : Lane → Lane) : (s.modLane k f).fusedKey = s.fusedKey := rfl
@[simp] theorem State.modLane_attestUsed (s : State) (k : Nat) (f : Lane → Lane) : (s.modLane k f).attestUsed = s.attestUsed := rfl
@[simp] theorem State.modLane_kemSeed (s : State) (k : Nat) (f : Lane → Lane) : (s.modLane k f).kemSeed = s.kemSeed := rfl
@[simp] theorem State.modLane_badPhys (s : State) (k : Nat) (f : Lane → Lane) : (s.modLane k f).badPhys = s.badPhys := rfl
@[simp] theorem State.modLane_entries (s : State) (k : Nat) (f : Lane → Lane) : (s.modLane k f).entries = s.entries := rfl
@[simp] theorem State.modLane_heldOf (s : State) (k : Nat) (f : Lane → Lane) : (s.modLane k f).heldOf = s.heldOf := rfl
@[simp] theorem State.modLane_heldSpawn (s : State) (k : Nat) (f : Lane → Lane) : (s.modLane k f).heldSpawn = s.heldSpawn := rfl
@[simp] theorem State.modLane_heldSig (s : State) (k : Nat) (f : Lane → Lane) : (s.modLane k f).heldSig = s.heldSig := rfl
@[simp] theorem State.modLane_txBad (s : State) (k : Nat) (f : Lane → Lane) : (s.modLane k f).txBad = s.txBad := rfl
@[simp] theorem State.modLane_inbuf (s : State) (k : Nat) (f : Lane → Lane) : (s.modLane k f).inbuf = s.inbuf := rfl
@[simp] theorem State.modLane_loop (s : State) (k : Nat) (f : Lane → Lane) : (s.modLane k f).loop = s.loop := rfl
@[simp] theorem State.modLane_landing (s : State) (k : Nat) (f : Lane → Lane) : (s.modLane k f).landing = s.landing := rfl
@[simp] theorem State.modLane_refreshed (s : State) (k : Nat) (f : Lane → Lane) : (s.modLane k f).refreshed = s.refreshed := rfl
@[simp] theorem State.modLane_msc (s : State) (k : Nat) (f : Lane → Lane) : (s.modLane k f).msc = s.msc := rfl
@[simp] theorem State.modLane_quiet (s : State) (k : Nat) (f : Lane → Lane) : (s.modLane k f).quiet = s.quiet := rfl
@[simp] theorem State.modLane_teardowns (s : State) (k : Nat) (f : Lane → Lane) : (s.modLane k f).teardowns = s.teardowns := rfl
@[simp] theorem State.modLane_hostBad (s : State) (k : Nat) (f : Lane → Lane) : (s.modLane k f).hostBad = s.hostBad := rfl
@[simp] theorem State.modLane_clmap (s : State) (k : Nat) (f : Lane → Lane) : (s.modLane k f).clmap = s.clmap := rfl
@[simp] theorem State.modLane_awaiting (s : State) (k : Nat) (f : Lane → Lane) : (s.modLane k f).awaiting = s.awaiting := rfl
@[simp] theorem State.modLane_fusedBad (s : State) (k : Nat) (f : Lane → Lane) : (s.modLane k f).fusedBad = s.fusedBad := rfl
@[simp] theorem State.modLane_fencedPhys (s : State) (k : Nat) (f : Lane → Lane) : (s.modLane k f).fencedPhys = s.fencedPhys := rfl
@[simp] theorem State.modLane_fencedLog (s : State) (k : Nat) (f : Lane → Lane) : (s.modLane k f).fencedLog = s.fencedLog := rfl
@[simp] theorem State.modLane_psn (s : State) (k : Nat) (f : Lane → Lane) : (s.modLane k f).psn = s.psn := rfl
@[simp] theorem State.modLane_marked (s : State) (k : Nat) (f : Lane → Lane) : (s.modLane k f).marked = s.marked := rfl
@[simp] theorem State.modLane_hostWBad (s : State) (k : Nat) (f : Lane → Lane) : (s.modLane k f).hostWBad = s.hostWBad := rfl
@[simp] theorem State.modLane_eccFix (s : State) (k : Nat) (f : Lane → Lane) : (s.modLane k f).eccFix = s.eccFix := rfl
@[simp] theorem State.modLane_tlb (s : State) (k : Nat) (f : Lane → Lane) : (s.modLane k f).tlb = s.tlb := rfl
@[simp] theorem State.modLane_ckpts (s : State) (k : Nat) (f : Lane → Lane) : (s.modLane k f).ckpts = s.ckpts := rfl
@[simp] theorem State.modLane_ckJobs (s : State) (k : Nat) (f : Lane → Lane) : (s.modLane k f).ckJobs = s.ckJobs := rfl
@[simp] theorem State.modLane_hbm (s : State) (k : Nat) (f : Lane → Lane) : (s.modLane k f).hbm = s.hbm := rfl
@[simp] theorem State.modLane_lineKey (s : State) (k : Nat) (f : Lane → Lane) : (s.modLane k f).lineKey = s.lineKey := rfl
@[simp] theorem State.modLane_hostMem (s : State) (k : Nat) (f : Lane → Lane) : (s.modLane k f).hostMem = s.hostMem := rfl
@[simp] theorem State.modLane_regions (s : State) (k : Nat) (f : Lane → Lane) : (s.modLane k f).regions = s.regions := rfl
@[simp] theorem State.modLane_frames (s : State) (k : Nat) (f : Lane → Lane) : (s.modLane k f).frames = s.frames := rfl
@[simp] theorem State.modLane_threads (s : State) (k : Nat) (f : Lane → Lane) : (s.modLane k f).threads = s.threads := rfl
@[simp] theorem State.modLane_phys (s : State) (k : Nat) (f : Lane → Lane) : (s.modLane k f).phys = s.phys := rfl
@[simp] theorem State.modLane_pairs (s : State) (k : Nat) (f : Lane → Lane) : (s.modLane k f).pairs = s.pairs := rfl
@[simp] theorem State.modLane_clus (s : State) (k : Nat) (f : Lane → Lane) : (s.modLane k f).clus = s.clus := rfl
@[simp] theorem State.modLane_dies (s : State) (k : Nat) (f : Lane → Lane) : (s.modLane k f).dies = s.dies := rfl
@[simp] theorem State.modLane_keys (s : State) (k : Nat) (f : Lane → Lane) : (s.modLane k f).keys = s.keys := rfl
@[simp] theorem State.modLane_cmds (s : State) (k : Nat) (f : Lane → Lane) : (s.modLane k f).cmds = s.cmds := rfl
@[simp] theorem State.modLane_acts (s : State) (k : Nat) (f : Lane → Lane) : (s.modLane k f).acts = s.acts := rfl
@[simp] theorem State.modLane_streams (s : State) (k : Nat) (f : Lane → Lane) : (s.modLane k f).streams = s.streams := rfl
@[simp] theorem State.modLane_eports (s : State) (k : Nat) (f : Lane → Lane) : (s.modLane k f).eports = s.eports := rfl
@[simp] theorem State.modLane_msixTable (s : State) (k : Nat) (f : Lane → Lane) : (s.modLane k f).msixTable = s.msixTable := rfl
@[simp] theorem State.modLane_msixPend (s : State) (k : Nat) (f : Lane → Lane) : (s.modLane k f).msixPend = s.msixPend := rfl
@[simp] theorem State.modLane_hostWrites (s : State) (k : Nat) (f : Lane → Lane) : (s.modLane k f).hostWrites = s.hostWrites := rfl
@[simp] theorem State.modLane_seen (s : State) (k : Nat) (f : Lane → Lane) : (s.modLane k f).seen = s.seen := rfl
@[simp] theorem State.modLane_settled (s : State) (k : Nat) (f : Lane → Lane) : (s.modLane k f).settled = s.settled := rfl
@[simp] theorem State.modLane_rows (s : State) (k : Nat) (f : Lane → Lane) : (s.modLane k f).rows = s.rows := rfl
@[simp] theorem State.modLane_deferred (s : State) (k : Nat) (f : Lane → Lane) : (s.modLane k f).deferred = s.deferred := rfl
@[simp] theorem State.modLane_hostOut (s : State) (k : Nat) (f : Lane → Lane) : (s.modLane k f).hostOut = s.hostOut := rfl
@[simp] theorem State.modLane_eccG (s : State) (k : Nat) (f : Lane → Lane) : (s.modLane k f).eccG = s.eccG := rfl
@[simp] theorem State.modLane_bad (s : State) (k : Nat) (f : Lane → Lane) : (s.modLane k f).bad = s.bad := rfl
@[simp] theorem State.modLane_away (s : State) (k : Nat) (f : Lane → Lane) : (s.modLane k f).away = s.away := rfl
@[simp] theorem State.modLane_cur (s : State) (k : Nat) (f : Lane → Lane) : (s.modLane k f).cur = s.cur := rfl
@[simp] theorem State.modLane_agenda (s : State) (k : Nat) (f : Lane → Lane) : (s.modLane k f).agenda = s.agenda := rfl
@[simp] theorem State.modLane_auto (s : State) (k : Nat) (f : Lane → Lane) : (s.modLane k f).auto = s.auto := rfl
@[simp] theorem State.modLane_now (s : State) (k : Nat) (f : Lane → Lane) : (s.modLane k f).now = s.now := rfl
@[simp] theorem State.modLane_turn (s : State) (k : Nat) (f : Lane → Lane) : (s.modLane k f).turn = s.turn := rfl
@[simp] theorem State.modLane_seq (s : State) (k : Nat) (f : Lane → Lane) : (s.modLane k f).seq = s.seq := rfl
@[simp] theorem State.modLane_free (s : State) (k : Nat) (f : Lane → Lane) : (s.modLane k f).free = s.free := rfl

@[simp] theorem State.bump_time (s : State) : (s.bump).time = s.time := rfl
@[simp] theorem State.bump_pkgid (s : State) : (s.bump).pkgid = s.pkgid := rfl
@[simp] theorem State.bump_netId (s : State) : (s.bump).netId = s.netId := rfl
@[simp] theorem State.bump_iface (s : State) : (s.bump).iface = s.iface := rfl
@[simp] theorem State.bump_bootstat (s : State) : (s.bump).bootstat = s.bootstat := rfl
@[simp] theorem State.bump_hostmem (s : State) : (s.bump).hostmem = s.hostmem := rfl
@[simp] theorem State.bump_hdmBase (s : State) : (s.bump).hdmBase = s.hdmBase := rfl
@[simp] theorem State.bump_nbrlost (s : State) : (s.bump).nbrlost = s.nbrlost := rfl
@[simp] theorem State.bump_nbrvec (s : State) : (s.bump).nbrvec = s.nbrvec := rfl
@[simp] theorem State.bump_rcmd (s : State) : (s.bump).rcmd = s.rcmd := rfl
@[simp] theorem State.bump_rstat (s : State) : (s.bump).rstat = s.rstat := rfl
@[simp] theorem State.bump_ccmdDesc (s : State) : (s.bump).ccmdDesc = s.ccmdDesc := rfl
@[simp] theorem State.bump_ccmd (s : State) : (s.bump).ccmd = s.ccmd := rfl
@[simp] theorem State.bump_bcmdDesc (s : State) : (s.bump).bcmdDesc = s.bcmdDesc := rfl
@[simp] theorem State.bump_bcmd (s : State) : (s.bump).bcmd = s.bcmd := rfl
@[simp] theorem State.bump_mbcmd (s : State) : (s.bump).mbcmd = s.mbcmd := rfl
@[simp] theorem State.bump_mbstat (s : State) : (s.bump).mbstat = s.mbstat := rfl
@[simp] theorem State.bump_rollback (s : State) : (s.bump).rollback = s.rollback := rfl
@[simp] theorem State.bump_firmware (s : State) : (s.bump).firmware = s.firmware := rfl
@[simp] theorem State.bump_fwDigest (s : State) : (s.bump).fwDigest = s.fwDigest := rfl
@[simp] theorem State.bump_fusedKey (s : State) : (s.bump).fusedKey = s.fusedKey := rfl
@[simp] theorem State.bump_attestUsed (s : State) : (s.bump).attestUsed = s.attestUsed := rfl
@[simp] theorem State.bump_kemSeed (s : State) : (s.bump).kemSeed = s.kemSeed := rfl
@[simp] theorem State.bump_badPhys (s : State) : (s.bump).badPhys = s.badPhys := rfl
@[simp] theorem State.bump_entries (s : State) : (s.bump).entries = s.entries := rfl
@[simp] theorem State.bump_heldOf (s : State) : (s.bump).heldOf = s.heldOf := rfl
@[simp] theorem State.bump_heldSpawn (s : State) : (s.bump).heldSpawn = s.heldSpawn := rfl
@[simp] theorem State.bump_heldSig (s : State) : (s.bump).heldSig = s.heldSig := rfl
@[simp] theorem State.bump_txBad (s : State) : (s.bump).txBad = s.txBad := rfl
@[simp] theorem State.bump_inbuf (s : State) : (s.bump).inbuf = s.inbuf := rfl
@[simp] theorem State.bump_loop (s : State) : (s.bump).loop = s.loop := rfl
@[simp] theorem State.bump_landing (s : State) : (s.bump).landing = s.landing := rfl
@[simp] theorem State.bump_refreshed (s : State) : (s.bump).refreshed = s.refreshed := rfl
@[simp] theorem State.bump_msc (s : State) : (s.bump).msc = s.msc := rfl
@[simp] theorem State.bump_quiet (s : State) : (s.bump).quiet = s.quiet := rfl
@[simp] theorem State.bump_teardowns (s : State) : (s.bump).teardowns = s.teardowns := rfl
@[simp] theorem State.bump_hostBad (s : State) : (s.bump).hostBad = s.hostBad := rfl
@[simp] theorem State.bump_clmap (s : State) : (s.bump).clmap = s.clmap := rfl
@[simp] theorem State.bump_awaiting (s : State) : (s.bump).awaiting = s.awaiting := rfl
@[simp] theorem State.bump_fusedBad (s : State) : (s.bump).fusedBad = s.fusedBad := rfl
@[simp] theorem State.bump_fencedPhys (s : State) : (s.bump).fencedPhys = s.fencedPhys := rfl
@[simp] theorem State.bump_fencedLog (s : State) : (s.bump).fencedLog = s.fencedLog := rfl
@[simp] theorem State.bump_psn (s : State) : (s.bump).psn = s.psn := rfl
@[simp] theorem State.bump_marked (s : State) : (s.bump).marked = s.marked := rfl
@[simp] theorem State.bump_hostWBad (s : State) : (s.bump).hostWBad = s.hostWBad := rfl
@[simp] theorem State.bump_eccFix (s : State) : (s.bump).eccFix = s.eccFix := rfl
@[simp] theorem State.bump_tlb (s : State) : (s.bump).tlb = s.tlb := rfl
@[simp] theorem State.bump_ckpts (s : State) : (s.bump).ckpts = s.ckpts := rfl
@[simp] theorem State.bump_ckJobs (s : State) : (s.bump).ckJobs = s.ckJobs := rfl
@[simp] theorem State.bump_hbm (s : State) : (s.bump).hbm = s.hbm := rfl
@[simp] theorem State.bump_lineKey (s : State) : (s.bump).lineKey = s.lineKey := rfl
@[simp] theorem State.bump_hostMem (s : State) : (s.bump).hostMem = s.hostMem := rfl
@[simp] theorem State.bump_regions (s : State) : (s.bump).regions = s.regions := rfl
@[simp] theorem State.bump_frames (s : State) : (s.bump).frames = s.frames := rfl
@[simp] theorem State.bump_threads (s : State) : (s.bump).threads = s.threads := rfl
@[simp] theorem State.bump_phys (s : State) : (s.bump).phys = s.phys := rfl
@[simp] theorem State.bump_pairs (s : State) : (s.bump).pairs = s.pairs := rfl
@[simp] theorem State.bump_clus (s : State) : (s.bump).clus = s.clus := rfl
@[simp] theorem State.bump_dies (s : State) : (s.bump).dies = s.dies := rfl
@[simp] theorem State.bump_keys (s : State) : (s.bump).keys = s.keys := rfl
@[simp] theorem State.bump_lanes (s : State) : (s.bump).lanes = s.lanes := rfl
@[simp] theorem State.bump_cmds (s : State) : (s.bump).cmds = s.cmds := rfl
@[simp] theorem State.bump_acts (s : State) : (s.bump).acts = s.acts := rfl
@[simp] theorem State.bump_streams (s : State) : (s.bump).streams = s.streams := rfl
@[simp] theorem State.bump_eports (s : State) : (s.bump).eports = s.eports := rfl
@[simp] theorem State.bump_msixTable (s : State) : (s.bump).msixTable = s.msixTable := rfl
@[simp] theorem State.bump_msixPend (s : State) : (s.bump).msixPend = s.msixPend := rfl
@[simp] theorem State.bump_hostWrites (s : State) : (s.bump).hostWrites = s.hostWrites := rfl
@[simp] theorem State.bump_seen (s : State) : (s.bump).seen = s.seen := rfl
@[simp] theorem State.bump_settled (s : State) : (s.bump).settled = s.settled := rfl
@[simp] theorem State.bump_rows (s : State) : (s.bump).rows = s.rows := rfl
@[simp] theorem State.bump_deferred (s : State) : (s.bump).deferred = s.deferred := rfl
@[simp] theorem State.bump_hostOut (s : State) : (s.bump).hostOut = s.hostOut := rfl
@[simp] theorem State.bump_eccG (s : State) : (s.bump).eccG = s.eccG := rfl
@[simp] theorem State.bump_bad (s : State) : (s.bump).bad = s.bad := rfl
@[simp] theorem State.bump_away (s : State) : (s.bump).away = s.away := rfl
@[simp] theorem State.bump_cur (s : State) : (s.bump).cur = s.cur := rfl
@[simp] theorem State.bump_agenda (s : State) : (s.bump).agenda = s.agenda := rfl
@[simp] theorem State.bump_auto (s : State) : (s.bump).auto = s.auto := rfl
@[simp] theorem State.bump_now (s : State) : (s.bump).now = s.now := rfl
@[simp] theorem State.bump_turn (s : State) : (s.bump).turn = s.turn := rfl
@[simp] theorem State.bump_free (s : State) : (s.bump).free = s.free := rfl

@[simp] theorem State.addAct_time (s : State) (delay cl slot : Nat) (after : List Nat) (job : Job) : (s.addAct delay cl slot after job).time = s.time := rfl
@[simp] theorem State.addAct_pkgid (s : State) (delay cl slot : Nat) (after : List Nat) (job : Job) : (s.addAct delay cl slot after job).pkgid = s.pkgid := rfl
@[simp] theorem State.addAct_netId (s : State) (delay cl slot : Nat) (after : List Nat) (job : Job) : (s.addAct delay cl slot after job).netId = s.netId := rfl
@[simp] theorem State.addAct_iface (s : State) (delay cl slot : Nat) (after : List Nat) (job : Job) : (s.addAct delay cl slot after job).iface = s.iface := rfl
@[simp] theorem State.addAct_bootstat (s : State) (delay cl slot : Nat) (after : List Nat) (job : Job) : (s.addAct delay cl slot after job).bootstat = s.bootstat := rfl
@[simp] theorem State.addAct_hostmem (s : State) (delay cl slot : Nat) (after : List Nat) (job : Job) : (s.addAct delay cl slot after job).hostmem = s.hostmem := rfl
@[simp] theorem State.addAct_hdmBase (s : State) (delay cl slot : Nat) (after : List Nat) (job : Job) : (s.addAct delay cl slot after job).hdmBase = s.hdmBase := rfl
@[simp] theorem State.addAct_nbrlost (s : State) (delay cl slot : Nat) (after : List Nat) (job : Job) : (s.addAct delay cl slot after job).nbrlost = s.nbrlost := rfl
@[simp] theorem State.addAct_nbrvec (s : State) (delay cl slot : Nat) (after : List Nat) (job : Job) : (s.addAct delay cl slot after job).nbrvec = s.nbrvec := rfl
@[simp] theorem State.addAct_rcmd (s : State) (delay cl slot : Nat) (after : List Nat) (job : Job) : (s.addAct delay cl slot after job).rcmd = s.rcmd := rfl
@[simp] theorem State.addAct_rstat (s : State) (delay cl slot : Nat) (after : List Nat) (job : Job) : (s.addAct delay cl slot after job).rstat = s.rstat := rfl
@[simp] theorem State.addAct_ccmdDesc (s : State) (delay cl slot : Nat) (after : List Nat) (job : Job) : (s.addAct delay cl slot after job).ccmdDesc = s.ccmdDesc := rfl
@[simp] theorem State.addAct_ccmd (s : State) (delay cl slot : Nat) (after : List Nat) (job : Job) : (s.addAct delay cl slot after job).ccmd = s.ccmd := rfl
@[simp] theorem State.addAct_bcmdDesc (s : State) (delay cl slot : Nat) (after : List Nat) (job : Job) : (s.addAct delay cl slot after job).bcmdDesc = s.bcmdDesc := rfl
@[simp] theorem State.addAct_bcmd (s : State) (delay cl slot : Nat) (after : List Nat) (job : Job) : (s.addAct delay cl slot after job).bcmd = s.bcmd := rfl
@[simp] theorem State.addAct_mbcmd (s : State) (delay cl slot : Nat) (after : List Nat) (job : Job) : (s.addAct delay cl slot after job).mbcmd = s.mbcmd := rfl
@[simp] theorem State.addAct_mbstat (s : State) (delay cl slot : Nat) (after : List Nat) (job : Job) : (s.addAct delay cl slot after job).mbstat = s.mbstat := rfl
@[simp] theorem State.addAct_rollback (s : State) (delay cl slot : Nat) (after : List Nat) (job : Job) : (s.addAct delay cl slot after job).rollback = s.rollback := rfl
@[simp] theorem State.addAct_firmware (s : State) (delay cl slot : Nat) (after : List Nat) (job : Job) : (s.addAct delay cl slot after job).firmware = s.firmware := rfl
@[simp] theorem State.addAct_fwDigest (s : State) (delay cl slot : Nat) (after : List Nat) (job : Job) : (s.addAct delay cl slot after job).fwDigest = s.fwDigest := rfl
@[simp] theorem State.addAct_fusedKey (s : State) (delay cl slot : Nat) (after : List Nat) (job : Job) : (s.addAct delay cl slot after job).fusedKey = s.fusedKey := rfl
@[simp] theorem State.addAct_attestUsed (s : State) (delay cl slot : Nat) (after : List Nat) (job : Job) : (s.addAct delay cl slot after job).attestUsed = s.attestUsed := rfl
@[simp] theorem State.addAct_kemSeed (s : State) (delay cl slot : Nat) (after : List Nat) (job : Job) : (s.addAct delay cl slot after job).kemSeed = s.kemSeed := rfl
@[simp] theorem State.addAct_badPhys (s : State) (delay cl slot : Nat) (after : List Nat) (job : Job) : (s.addAct delay cl slot after job).badPhys = s.badPhys := rfl
@[simp] theorem State.addAct_entries (s : State) (delay cl slot : Nat) (after : List Nat) (job : Job) : (s.addAct delay cl slot after job).entries = s.entries := rfl
@[simp] theorem State.addAct_heldOf (s : State) (delay cl slot : Nat) (after : List Nat) (job : Job) : (s.addAct delay cl slot after job).heldOf = s.heldOf := rfl
@[simp] theorem State.addAct_heldSpawn (s : State) (delay cl slot : Nat) (after : List Nat) (job : Job) : (s.addAct delay cl slot after job).heldSpawn = s.heldSpawn := rfl
@[simp] theorem State.addAct_heldSig (s : State) (delay cl slot : Nat) (after : List Nat) (job : Job) : (s.addAct delay cl slot after job).heldSig = s.heldSig := rfl
@[simp] theorem State.addAct_txBad (s : State) (delay cl slot : Nat) (after : List Nat) (job : Job) : (s.addAct delay cl slot after job).txBad = s.txBad := rfl
@[simp] theorem State.addAct_inbuf (s : State) (delay cl slot : Nat) (after : List Nat) (job : Job) : (s.addAct delay cl slot after job).inbuf = s.inbuf := rfl
@[simp] theorem State.addAct_loop (s : State) (delay cl slot : Nat) (after : List Nat) (job : Job) : (s.addAct delay cl slot after job).loop = s.loop := rfl
@[simp] theorem State.addAct_landing (s : State) (delay cl slot : Nat) (after : List Nat) (job : Job) : (s.addAct delay cl slot after job).landing = s.landing := rfl
@[simp] theorem State.addAct_refreshed (s : State) (delay cl slot : Nat) (after : List Nat) (job : Job) : (s.addAct delay cl slot after job).refreshed = s.refreshed := rfl
@[simp] theorem State.addAct_msc (s : State) (delay cl slot : Nat) (after : List Nat) (job : Job) : (s.addAct delay cl slot after job).msc = s.msc := rfl
@[simp] theorem State.addAct_quiet (s : State) (delay cl slot : Nat) (after : List Nat) (job : Job) : (s.addAct delay cl slot after job).quiet = s.quiet := rfl
@[simp] theorem State.addAct_teardowns (s : State) (delay cl slot : Nat) (after : List Nat) (job : Job) : (s.addAct delay cl slot after job).teardowns = s.teardowns := rfl
@[simp] theorem State.addAct_hostBad (s : State) (delay cl slot : Nat) (after : List Nat) (job : Job) : (s.addAct delay cl slot after job).hostBad = s.hostBad := rfl
@[simp] theorem State.addAct_clmap (s : State) (delay cl slot : Nat) (after : List Nat) (job : Job) : (s.addAct delay cl slot after job).clmap = s.clmap := rfl
@[simp] theorem State.addAct_awaiting (s : State) (delay cl slot : Nat) (after : List Nat) (job : Job) : (s.addAct delay cl slot after job).awaiting = s.awaiting := rfl
@[simp] theorem State.addAct_fusedBad (s : State) (delay cl slot : Nat) (after : List Nat) (job : Job) : (s.addAct delay cl slot after job).fusedBad = s.fusedBad := rfl
@[simp] theorem State.addAct_fencedPhys (s : State) (delay cl slot : Nat) (after : List Nat) (job : Job) : (s.addAct delay cl slot after job).fencedPhys = s.fencedPhys := rfl
@[simp] theorem State.addAct_fencedLog (s : State) (delay cl slot : Nat) (after : List Nat) (job : Job) : (s.addAct delay cl slot after job).fencedLog = s.fencedLog := rfl
@[simp] theorem State.addAct_psn (s : State) (delay cl slot : Nat) (after : List Nat) (job : Job) : (s.addAct delay cl slot after job).psn = s.psn := rfl
@[simp] theorem State.addAct_marked (s : State) (delay cl slot : Nat) (after : List Nat) (job : Job) : (s.addAct delay cl slot after job).marked = s.marked := rfl
@[simp] theorem State.addAct_hostWBad (s : State) (delay cl slot : Nat) (after : List Nat) (job : Job) : (s.addAct delay cl slot after job).hostWBad = s.hostWBad := rfl
@[simp] theorem State.addAct_eccFix (s : State) (delay cl slot : Nat) (after : List Nat) (job : Job) : (s.addAct delay cl slot after job).eccFix = s.eccFix := rfl
@[simp] theorem State.addAct_tlb (s : State) (delay cl slot : Nat) (after : List Nat) (job : Job) : (s.addAct delay cl slot after job).tlb = s.tlb := rfl
@[simp] theorem State.addAct_ckpts (s : State) (delay cl slot : Nat) (after : List Nat) (job : Job) : (s.addAct delay cl slot after job).ckpts = s.ckpts := rfl
@[simp] theorem State.addAct_ckJobs (s : State) (delay cl slot : Nat) (after : List Nat) (job : Job) : (s.addAct delay cl slot after job).ckJobs = s.ckJobs := rfl
@[simp] theorem State.addAct_hbm (s : State) (delay cl slot : Nat) (after : List Nat) (job : Job) : (s.addAct delay cl slot after job).hbm = s.hbm := rfl
@[simp] theorem State.addAct_lineKey (s : State) (delay cl slot : Nat) (after : List Nat) (job : Job) : (s.addAct delay cl slot after job).lineKey = s.lineKey := rfl
@[simp] theorem State.addAct_hostMem (s : State) (delay cl slot : Nat) (after : List Nat) (job : Job) : (s.addAct delay cl slot after job).hostMem = s.hostMem := rfl
@[simp] theorem State.addAct_regions (s : State) (delay cl slot : Nat) (after : List Nat) (job : Job) : (s.addAct delay cl slot after job).regions = s.regions := rfl
@[simp] theorem State.addAct_frames (s : State) (delay cl slot : Nat) (after : List Nat) (job : Job) : (s.addAct delay cl slot after job).frames = s.frames := rfl
@[simp] theorem State.addAct_threads (s : State) (delay cl slot : Nat) (after : List Nat) (job : Job) : (s.addAct delay cl slot after job).threads = s.threads := rfl
@[simp] theorem State.addAct_phys (s : State) (delay cl slot : Nat) (after : List Nat) (job : Job) : (s.addAct delay cl slot after job).phys = s.phys := rfl
@[simp] theorem State.addAct_pairs (s : State) (delay cl slot : Nat) (after : List Nat) (job : Job) : (s.addAct delay cl slot after job).pairs = s.pairs := rfl
@[simp] theorem State.addAct_clus (s : State) (delay cl slot : Nat) (after : List Nat) (job : Job) : (s.addAct delay cl slot after job).clus = s.clus := rfl
@[simp] theorem State.addAct_dies (s : State) (delay cl slot : Nat) (after : List Nat) (job : Job) : (s.addAct delay cl slot after job).dies = s.dies := rfl
@[simp] theorem State.addAct_keys (s : State) (delay cl slot : Nat) (after : List Nat) (job : Job) : (s.addAct delay cl slot after job).keys = s.keys := rfl
@[simp] theorem State.addAct_lanes (s : State) (delay cl slot : Nat) (after : List Nat) (job : Job) : (s.addAct delay cl slot after job).lanes = s.lanes := rfl
@[simp] theorem State.addAct_cmds (s : State) (delay cl slot : Nat) (after : List Nat) (job : Job) : (s.addAct delay cl slot after job).cmds = s.cmds := rfl
@[simp] theorem State.addAct_streams (s : State) (delay cl slot : Nat) (after : List Nat) (job : Job) : (s.addAct delay cl slot after job).streams = s.streams := rfl
@[simp] theorem State.addAct_eports (s : State) (delay cl slot : Nat) (after : List Nat) (job : Job) : (s.addAct delay cl slot after job).eports = s.eports := rfl
@[simp] theorem State.addAct_msixTable (s : State) (delay cl slot : Nat) (after : List Nat) (job : Job) : (s.addAct delay cl slot after job).msixTable = s.msixTable := rfl
@[simp] theorem State.addAct_msixPend (s : State) (delay cl slot : Nat) (after : List Nat) (job : Job) : (s.addAct delay cl slot after job).msixPend = s.msixPend := rfl
@[simp] theorem State.addAct_hostWrites (s : State) (delay cl slot : Nat) (after : List Nat) (job : Job) : (s.addAct delay cl slot after job).hostWrites = s.hostWrites := rfl
@[simp] theorem State.addAct_seen (s : State) (delay cl slot : Nat) (after : List Nat) (job : Job) : (s.addAct delay cl slot after job).seen = s.seen := rfl
@[simp] theorem State.addAct_settled (s : State) (delay cl slot : Nat) (after : List Nat) (job : Job) : (s.addAct delay cl slot after job).settled = s.settled := rfl
@[simp] theorem State.addAct_rows (s : State) (delay cl slot : Nat) (after : List Nat) (job : Job) : (s.addAct delay cl slot after job).rows = s.rows := rfl
@[simp] theorem State.addAct_deferred (s : State) (delay cl slot : Nat) (after : List Nat) (job : Job) : (s.addAct delay cl slot after job).deferred = s.deferred := rfl
@[simp] theorem State.addAct_hostOut (s : State) (delay cl slot : Nat) (after : List Nat) (job : Job) : (s.addAct delay cl slot after job).hostOut = s.hostOut := rfl
@[simp] theorem State.addAct_eccG (s : State) (delay cl slot : Nat) (after : List Nat) (job : Job) : (s.addAct delay cl slot after job).eccG = s.eccG := rfl
@[simp] theorem State.addAct_bad (s : State) (delay cl slot : Nat) (after : List Nat) (job : Job) : (s.addAct delay cl slot after job).bad = s.bad := rfl
@[simp] theorem State.addAct_away (s : State) (delay cl slot : Nat) (after : List Nat) (job : Job) : (s.addAct delay cl slot after job).away = s.away := rfl
@[simp] theorem State.addAct_cur (s : State) (delay cl slot : Nat) (after : List Nat) (job : Job) : (s.addAct delay cl slot after job).cur = s.cur := rfl
@[simp] theorem State.addAct_agenda (s : State) (delay cl slot : Nat) (after : List Nat) (job : Job) : (s.addAct delay cl slot after job).agenda = s.agenda := rfl
@[simp] theorem State.addAct_auto (s : State) (delay cl slot : Nat) (after : List Nat) (job : Job) : (s.addAct delay cl slot after job).auto = s.auto := rfl
@[simp] theorem State.addAct_now (s : State) (delay cl slot : Nat) (after : List Nat) (job : Job) : (s.addAct delay cl slot after job).now = s.now := rfl
@[simp] theorem State.addAct_turn (s : State) (delay cl slot : Nat) (after : List Nat) (job : Job) : (s.addAct delay cl slot after job).turn = s.turn := rfl
@[simp] theorem State.addAct_free (s : State) (delay cl slot : Nat) (after : List Nat) (job : Job) : (s.addAct delay cl slot after job).free = s.free := rfl

@[simp] theorem State.tick_time (s : State) (delay cl slot : Nat) (ev : Instr) : (s.tick delay cl slot ev).time = s.time := rfl
@[simp] theorem State.tick_pkgid (s : State) (delay cl slot : Nat) (ev : Instr) : (s.tick delay cl slot ev).pkgid = s.pkgid := rfl
@[simp] theorem State.tick_netId (s : State) (delay cl slot : Nat) (ev : Instr) : (s.tick delay cl slot ev).netId = s.netId := rfl
@[simp] theorem State.tick_iface (s : State) (delay cl slot : Nat) (ev : Instr) : (s.tick delay cl slot ev).iface = s.iface := rfl
@[simp] theorem State.tick_bootstat (s : State) (delay cl slot : Nat) (ev : Instr) : (s.tick delay cl slot ev).bootstat = s.bootstat := rfl
@[simp] theorem State.tick_hostmem (s : State) (delay cl slot : Nat) (ev : Instr) : (s.tick delay cl slot ev).hostmem = s.hostmem := rfl
@[simp] theorem State.tick_hdmBase (s : State) (delay cl slot : Nat) (ev : Instr) : (s.tick delay cl slot ev).hdmBase = s.hdmBase := rfl
@[simp] theorem State.tick_nbrlost (s : State) (delay cl slot : Nat) (ev : Instr) : (s.tick delay cl slot ev).nbrlost = s.nbrlost := rfl
@[simp] theorem State.tick_nbrvec (s : State) (delay cl slot : Nat) (ev : Instr) : (s.tick delay cl slot ev).nbrvec = s.nbrvec := rfl
@[simp] theorem State.tick_rcmd (s : State) (delay cl slot : Nat) (ev : Instr) : (s.tick delay cl slot ev).rcmd = s.rcmd := rfl
@[simp] theorem State.tick_rstat (s : State) (delay cl slot : Nat) (ev : Instr) : (s.tick delay cl slot ev).rstat = s.rstat := rfl
@[simp] theorem State.tick_ccmdDesc (s : State) (delay cl slot : Nat) (ev : Instr) : (s.tick delay cl slot ev).ccmdDesc = s.ccmdDesc := rfl
@[simp] theorem State.tick_ccmd (s : State) (delay cl slot : Nat) (ev : Instr) : (s.tick delay cl slot ev).ccmd = s.ccmd := rfl
@[simp] theorem State.tick_bcmdDesc (s : State) (delay cl slot : Nat) (ev : Instr) : (s.tick delay cl slot ev).bcmdDesc = s.bcmdDesc := rfl
@[simp] theorem State.tick_bcmd (s : State) (delay cl slot : Nat) (ev : Instr) : (s.tick delay cl slot ev).bcmd = s.bcmd := rfl
@[simp] theorem State.tick_mbcmd (s : State) (delay cl slot : Nat) (ev : Instr) : (s.tick delay cl slot ev).mbcmd = s.mbcmd := rfl
@[simp] theorem State.tick_mbstat (s : State) (delay cl slot : Nat) (ev : Instr) : (s.tick delay cl slot ev).mbstat = s.mbstat := rfl
@[simp] theorem State.tick_rollback (s : State) (delay cl slot : Nat) (ev : Instr) : (s.tick delay cl slot ev).rollback = s.rollback := rfl
@[simp] theorem State.tick_firmware (s : State) (delay cl slot : Nat) (ev : Instr) : (s.tick delay cl slot ev).firmware = s.firmware := rfl
@[simp] theorem State.tick_fwDigest (s : State) (delay cl slot : Nat) (ev : Instr) : (s.tick delay cl slot ev).fwDigest = s.fwDigest := rfl
@[simp] theorem State.tick_fusedKey (s : State) (delay cl slot : Nat) (ev : Instr) : (s.tick delay cl slot ev).fusedKey = s.fusedKey := rfl
@[simp] theorem State.tick_attestUsed (s : State) (delay cl slot : Nat) (ev : Instr) : (s.tick delay cl slot ev).attestUsed = s.attestUsed := rfl
@[simp] theorem State.tick_kemSeed (s : State) (delay cl slot : Nat) (ev : Instr) : (s.tick delay cl slot ev).kemSeed = s.kemSeed := rfl
@[simp] theorem State.tick_badPhys (s : State) (delay cl slot : Nat) (ev : Instr) : (s.tick delay cl slot ev).badPhys = s.badPhys := rfl
@[simp] theorem State.tick_entries (s : State) (delay cl slot : Nat) (ev : Instr) : (s.tick delay cl slot ev).entries = s.entries := rfl
@[simp] theorem State.tick_heldOf (s : State) (delay cl slot : Nat) (ev : Instr) : (s.tick delay cl slot ev).heldOf = s.heldOf := rfl
@[simp] theorem State.tick_heldSpawn (s : State) (delay cl slot : Nat) (ev : Instr) : (s.tick delay cl slot ev).heldSpawn = s.heldSpawn := rfl
@[simp] theorem State.tick_heldSig (s : State) (delay cl slot : Nat) (ev : Instr) : (s.tick delay cl slot ev).heldSig = s.heldSig := rfl
@[simp] theorem State.tick_txBad (s : State) (delay cl slot : Nat) (ev : Instr) : (s.tick delay cl slot ev).txBad = s.txBad := rfl
@[simp] theorem State.tick_inbuf (s : State) (delay cl slot : Nat) (ev : Instr) : (s.tick delay cl slot ev).inbuf = s.inbuf := rfl
@[simp] theorem State.tick_loop (s : State) (delay cl slot : Nat) (ev : Instr) : (s.tick delay cl slot ev).loop = s.loop := rfl
@[simp] theorem State.tick_landing (s : State) (delay cl slot : Nat) (ev : Instr) : (s.tick delay cl slot ev).landing = s.landing := rfl
@[simp] theorem State.tick_refreshed (s : State) (delay cl slot : Nat) (ev : Instr) : (s.tick delay cl slot ev).refreshed = s.refreshed := rfl
@[simp] theorem State.tick_msc (s : State) (delay cl slot : Nat) (ev : Instr) : (s.tick delay cl slot ev).msc = s.msc := rfl
@[simp] theorem State.tick_quiet (s : State) (delay cl slot : Nat) (ev : Instr) : (s.tick delay cl slot ev).quiet = s.quiet := rfl
@[simp] theorem State.tick_teardowns (s : State) (delay cl slot : Nat) (ev : Instr) : (s.tick delay cl slot ev).teardowns = s.teardowns := rfl
@[simp] theorem State.tick_hostBad (s : State) (delay cl slot : Nat) (ev : Instr) : (s.tick delay cl slot ev).hostBad = s.hostBad := rfl
@[simp] theorem State.tick_clmap (s : State) (delay cl slot : Nat) (ev : Instr) : (s.tick delay cl slot ev).clmap = s.clmap := rfl
@[simp] theorem State.tick_awaiting (s : State) (delay cl slot : Nat) (ev : Instr) : (s.tick delay cl slot ev).awaiting = s.awaiting := rfl
@[simp] theorem State.tick_fusedBad (s : State) (delay cl slot : Nat) (ev : Instr) : (s.tick delay cl slot ev).fusedBad = s.fusedBad := rfl
@[simp] theorem State.tick_fencedPhys (s : State) (delay cl slot : Nat) (ev : Instr) : (s.tick delay cl slot ev).fencedPhys = s.fencedPhys := rfl
@[simp] theorem State.tick_fencedLog (s : State) (delay cl slot : Nat) (ev : Instr) : (s.tick delay cl slot ev).fencedLog = s.fencedLog := rfl
@[simp] theorem State.tick_psn (s : State) (delay cl slot : Nat) (ev : Instr) : (s.tick delay cl slot ev).psn = s.psn := rfl
@[simp] theorem State.tick_marked (s : State) (delay cl slot : Nat) (ev : Instr) : (s.tick delay cl slot ev).marked = s.marked := rfl
@[simp] theorem State.tick_hostWBad (s : State) (delay cl slot : Nat) (ev : Instr) : (s.tick delay cl slot ev).hostWBad = s.hostWBad := rfl
@[simp] theorem State.tick_eccFix (s : State) (delay cl slot : Nat) (ev : Instr) : (s.tick delay cl slot ev).eccFix = s.eccFix := rfl
@[simp] theorem State.tick_tlb (s : State) (delay cl slot : Nat) (ev : Instr) : (s.tick delay cl slot ev).tlb = s.tlb := rfl
@[simp] theorem State.tick_ckpts (s : State) (delay cl slot : Nat) (ev : Instr) : (s.tick delay cl slot ev).ckpts = s.ckpts := rfl
@[simp] theorem State.tick_ckJobs (s : State) (delay cl slot : Nat) (ev : Instr) : (s.tick delay cl slot ev).ckJobs = s.ckJobs := rfl
@[simp] theorem State.tick_hbm (s : State) (delay cl slot : Nat) (ev : Instr) : (s.tick delay cl slot ev).hbm = s.hbm := rfl
@[simp] theorem State.tick_lineKey (s : State) (delay cl slot : Nat) (ev : Instr) : (s.tick delay cl slot ev).lineKey = s.lineKey := rfl
@[simp] theorem State.tick_hostMem (s : State) (delay cl slot : Nat) (ev : Instr) : (s.tick delay cl slot ev).hostMem = s.hostMem := rfl
@[simp] theorem State.tick_regions (s : State) (delay cl slot : Nat) (ev : Instr) : (s.tick delay cl slot ev).regions = s.regions := rfl
@[simp] theorem State.tick_frames (s : State) (delay cl slot : Nat) (ev : Instr) : (s.tick delay cl slot ev).frames = s.frames := rfl
@[simp] theorem State.tick_threads (s : State) (delay cl slot : Nat) (ev : Instr) : (s.tick delay cl slot ev).threads = s.threads := rfl
@[simp] theorem State.tick_phys (s : State) (delay cl slot : Nat) (ev : Instr) : (s.tick delay cl slot ev).phys = s.phys := rfl
@[simp] theorem State.tick_pairs (s : State) (delay cl slot : Nat) (ev : Instr) : (s.tick delay cl slot ev).pairs = s.pairs := rfl
@[simp] theorem State.tick_clus (s : State) (delay cl slot : Nat) (ev : Instr) : (s.tick delay cl slot ev).clus = s.clus := rfl
@[simp] theorem State.tick_dies (s : State) (delay cl slot : Nat) (ev : Instr) : (s.tick delay cl slot ev).dies = s.dies := rfl
@[simp] theorem State.tick_keys (s : State) (delay cl slot : Nat) (ev : Instr) : (s.tick delay cl slot ev).keys = s.keys := rfl
@[simp] theorem State.tick_lanes (s : State) (delay cl slot : Nat) (ev : Instr) : (s.tick delay cl slot ev).lanes = s.lanes := rfl
@[simp] theorem State.tick_cmds (s : State) (delay cl slot : Nat) (ev : Instr) : (s.tick delay cl slot ev).cmds = s.cmds := rfl
@[simp] theorem State.tick_streams (s : State) (delay cl slot : Nat) (ev : Instr) : (s.tick delay cl slot ev).streams = s.streams := rfl
@[simp] theorem State.tick_eports (s : State) (delay cl slot : Nat) (ev : Instr) : (s.tick delay cl slot ev).eports = s.eports := rfl
@[simp] theorem State.tick_msixTable (s : State) (delay cl slot : Nat) (ev : Instr) : (s.tick delay cl slot ev).msixTable = s.msixTable := rfl
@[simp] theorem State.tick_msixPend (s : State) (delay cl slot : Nat) (ev : Instr) : (s.tick delay cl slot ev).msixPend = s.msixPend := rfl
@[simp] theorem State.tick_hostWrites (s : State) (delay cl slot : Nat) (ev : Instr) : (s.tick delay cl slot ev).hostWrites = s.hostWrites := rfl
@[simp] theorem State.tick_seen (s : State) (delay cl slot : Nat) (ev : Instr) : (s.tick delay cl slot ev).seen = s.seen := rfl
@[simp] theorem State.tick_settled (s : State) (delay cl slot : Nat) (ev : Instr) : (s.tick delay cl slot ev).settled = s.settled := rfl
@[simp] theorem State.tick_rows (s : State) (delay cl slot : Nat) (ev : Instr) : (s.tick delay cl slot ev).rows = s.rows := rfl
@[simp] theorem State.tick_deferred (s : State) (delay cl slot : Nat) (ev : Instr) : (s.tick delay cl slot ev).deferred = s.deferred := rfl
@[simp] theorem State.tick_hostOut (s : State) (delay cl slot : Nat) (ev : Instr) : (s.tick delay cl slot ev).hostOut = s.hostOut := rfl
@[simp] theorem State.tick_eccG (s : State) (delay cl slot : Nat) (ev : Instr) : (s.tick delay cl slot ev).eccG = s.eccG := rfl
@[simp] theorem State.tick_bad (s : State) (delay cl slot : Nat) (ev : Instr) : (s.tick delay cl slot ev).bad = s.bad := rfl
@[simp] theorem State.tick_away (s : State) (delay cl slot : Nat) (ev : Instr) : (s.tick delay cl slot ev).away = s.away := rfl
@[simp] theorem State.tick_cur (s : State) (delay cl slot : Nat) (ev : Instr) : (s.tick delay cl slot ev).cur = s.cur := rfl
@[simp] theorem State.tick_agenda (s : State) (delay cl slot : Nat) (ev : Instr) : (s.tick delay cl slot ev).agenda = s.agenda := rfl
@[simp] theorem State.tick_auto (s : State) (delay cl slot : Nat) (ev : Instr) : (s.tick delay cl slot ev).auto = s.auto := rfl
@[simp] theorem State.tick_now (s : State) (delay cl slot : Nat) (ev : Instr) : (s.tick delay cl slot ev).now = s.now := rfl
@[simp] theorem State.tick_turn (s : State) (delay cl slot : Nat) (ev : Instr) : (s.tick delay cl slot ev).turn = s.turn := rfl
@[simp] theorem State.tick_free (s : State) (delay cl slot : Nat) (ev : Instr) : (s.tick delay cl slot ev).free = s.free := rfl

@[simp] theorem State.dropAct_time (s : State) (id : Nat) : (s.dropAct id).time = s.time := rfl
@[simp] theorem State.dropAct_pkgid (s : State) (id : Nat) : (s.dropAct id).pkgid = s.pkgid := rfl
@[simp] theorem State.dropAct_netId (s : State) (id : Nat) : (s.dropAct id).netId = s.netId := rfl
@[simp] theorem State.dropAct_iface (s : State) (id : Nat) : (s.dropAct id).iface = s.iface := rfl
@[simp] theorem State.dropAct_bootstat (s : State) (id : Nat) : (s.dropAct id).bootstat = s.bootstat := rfl
@[simp] theorem State.dropAct_hostmem (s : State) (id : Nat) : (s.dropAct id).hostmem = s.hostmem := rfl
@[simp] theorem State.dropAct_hdmBase (s : State) (id : Nat) : (s.dropAct id).hdmBase = s.hdmBase := rfl
@[simp] theorem State.dropAct_nbrlost (s : State) (id : Nat) : (s.dropAct id).nbrlost = s.nbrlost := rfl
@[simp] theorem State.dropAct_nbrvec (s : State) (id : Nat) : (s.dropAct id).nbrvec = s.nbrvec := rfl
@[simp] theorem State.dropAct_rcmd (s : State) (id : Nat) : (s.dropAct id).rcmd = s.rcmd := rfl
@[simp] theorem State.dropAct_rstat (s : State) (id : Nat) : (s.dropAct id).rstat = s.rstat := rfl
@[simp] theorem State.dropAct_ccmdDesc (s : State) (id : Nat) : (s.dropAct id).ccmdDesc = s.ccmdDesc := rfl
@[simp] theorem State.dropAct_ccmd (s : State) (id : Nat) : (s.dropAct id).ccmd = s.ccmd := rfl
@[simp] theorem State.dropAct_bcmdDesc (s : State) (id : Nat) : (s.dropAct id).bcmdDesc = s.bcmdDesc := rfl
@[simp] theorem State.dropAct_bcmd (s : State) (id : Nat) : (s.dropAct id).bcmd = s.bcmd := rfl
@[simp] theorem State.dropAct_mbcmd (s : State) (id : Nat) : (s.dropAct id).mbcmd = s.mbcmd := rfl
@[simp] theorem State.dropAct_mbstat (s : State) (id : Nat) : (s.dropAct id).mbstat = s.mbstat := rfl
@[simp] theorem State.dropAct_rollback (s : State) (id : Nat) : (s.dropAct id).rollback = s.rollback := rfl
@[simp] theorem State.dropAct_firmware (s : State) (id : Nat) : (s.dropAct id).firmware = s.firmware := rfl
@[simp] theorem State.dropAct_fwDigest (s : State) (id : Nat) : (s.dropAct id).fwDigest = s.fwDigest := rfl
@[simp] theorem State.dropAct_fusedKey (s : State) (id : Nat) : (s.dropAct id).fusedKey = s.fusedKey := rfl
@[simp] theorem State.dropAct_attestUsed (s : State) (id : Nat) : (s.dropAct id).attestUsed = s.attestUsed := rfl
@[simp] theorem State.dropAct_kemSeed (s : State) (id : Nat) : (s.dropAct id).kemSeed = s.kemSeed := rfl
@[simp] theorem State.dropAct_badPhys (s : State) (id : Nat) : (s.dropAct id).badPhys = s.badPhys := rfl
@[simp] theorem State.dropAct_entries (s : State) (id : Nat) : (s.dropAct id).entries = s.entries := rfl
@[simp] theorem State.dropAct_heldOf (s : State) (id : Nat) : (s.dropAct id).heldOf = s.heldOf := rfl
@[simp] theorem State.dropAct_heldSpawn (s : State) (id : Nat) : (s.dropAct id).heldSpawn = s.heldSpawn := rfl
@[simp] theorem State.dropAct_heldSig (s : State) (id : Nat) : (s.dropAct id).heldSig = s.heldSig := rfl
@[simp] theorem State.dropAct_txBad (s : State) (id : Nat) : (s.dropAct id).txBad = s.txBad := rfl
@[simp] theorem State.dropAct_inbuf (s : State) (id : Nat) : (s.dropAct id).inbuf = s.inbuf := rfl
@[simp] theorem State.dropAct_loop (s : State) (id : Nat) : (s.dropAct id).loop = s.loop := rfl
@[simp] theorem State.dropAct_landing (s : State) (id : Nat) : (s.dropAct id).landing = s.landing := rfl
@[simp] theorem State.dropAct_refreshed (s : State) (id : Nat) : (s.dropAct id).refreshed = s.refreshed := rfl
@[simp] theorem State.dropAct_msc (s : State) (id : Nat) : (s.dropAct id).msc = s.msc := rfl
@[simp] theorem State.dropAct_quiet (s : State) (id : Nat) : (s.dropAct id).quiet = s.quiet := rfl
@[simp] theorem State.dropAct_teardowns (s : State) (id : Nat) : (s.dropAct id).teardowns = s.teardowns := rfl
@[simp] theorem State.dropAct_hostBad (s : State) (id : Nat) : (s.dropAct id).hostBad = s.hostBad := rfl
@[simp] theorem State.dropAct_clmap (s : State) (id : Nat) : (s.dropAct id).clmap = s.clmap := rfl
@[simp] theorem State.dropAct_awaiting (s : State) (id : Nat) : (s.dropAct id).awaiting = s.awaiting := rfl
@[simp] theorem State.dropAct_fusedBad (s : State) (id : Nat) : (s.dropAct id).fusedBad = s.fusedBad := rfl
@[simp] theorem State.dropAct_fencedPhys (s : State) (id : Nat) : (s.dropAct id).fencedPhys = s.fencedPhys := rfl
@[simp] theorem State.dropAct_fencedLog (s : State) (id : Nat) : (s.dropAct id).fencedLog = s.fencedLog := rfl
@[simp] theorem State.dropAct_psn (s : State) (id : Nat) : (s.dropAct id).psn = s.psn := rfl
@[simp] theorem State.dropAct_marked (s : State) (id : Nat) : (s.dropAct id).marked = s.marked := rfl
@[simp] theorem State.dropAct_hostWBad (s : State) (id : Nat) : (s.dropAct id).hostWBad = s.hostWBad := rfl
@[simp] theorem State.dropAct_eccFix (s : State) (id : Nat) : (s.dropAct id).eccFix = s.eccFix := rfl
@[simp] theorem State.dropAct_tlb (s : State) (id : Nat) : (s.dropAct id).tlb = s.tlb := rfl
@[simp] theorem State.dropAct_ckpts (s : State) (id : Nat) : (s.dropAct id).ckpts = s.ckpts := rfl
@[simp] theorem State.dropAct_ckJobs (s : State) (id : Nat) : (s.dropAct id).ckJobs = s.ckJobs := rfl
@[simp] theorem State.dropAct_hbm (s : State) (id : Nat) : (s.dropAct id).hbm = s.hbm := rfl
@[simp] theorem State.dropAct_lineKey (s : State) (id : Nat) : (s.dropAct id).lineKey = s.lineKey := rfl
@[simp] theorem State.dropAct_hostMem (s : State) (id : Nat) : (s.dropAct id).hostMem = s.hostMem := rfl
@[simp] theorem State.dropAct_regions (s : State) (id : Nat) : (s.dropAct id).regions = s.regions := rfl
@[simp] theorem State.dropAct_frames (s : State) (id : Nat) : (s.dropAct id).frames = s.frames := rfl
@[simp] theorem State.dropAct_threads (s : State) (id : Nat) : (s.dropAct id).threads = s.threads := rfl
@[simp] theorem State.dropAct_phys (s : State) (id : Nat) : (s.dropAct id).phys = s.phys := rfl
@[simp] theorem State.dropAct_pairs (s : State) (id : Nat) : (s.dropAct id).pairs = s.pairs := rfl
@[simp] theorem State.dropAct_clus (s : State) (id : Nat) : (s.dropAct id).clus = s.clus := rfl
@[simp] theorem State.dropAct_dies (s : State) (id : Nat) : (s.dropAct id).dies = s.dies := rfl
@[simp] theorem State.dropAct_keys (s : State) (id : Nat) : (s.dropAct id).keys = s.keys := rfl
@[simp] theorem State.dropAct_lanes (s : State) (id : Nat) : (s.dropAct id).lanes = s.lanes := rfl
@[simp] theorem State.dropAct_cmds (s : State) (id : Nat) : (s.dropAct id).cmds = s.cmds := rfl
@[simp] theorem State.dropAct_streams (s : State) (id : Nat) : (s.dropAct id).streams = s.streams := rfl
@[simp] theorem State.dropAct_eports (s : State) (id : Nat) : (s.dropAct id).eports = s.eports := rfl
@[simp] theorem State.dropAct_msixTable (s : State) (id : Nat) : (s.dropAct id).msixTable = s.msixTable := rfl
@[simp] theorem State.dropAct_msixPend (s : State) (id : Nat) : (s.dropAct id).msixPend = s.msixPend := rfl
@[simp] theorem State.dropAct_hostWrites (s : State) (id : Nat) : (s.dropAct id).hostWrites = s.hostWrites := rfl
@[simp] theorem State.dropAct_seen (s : State) (id : Nat) : (s.dropAct id).seen = s.seen := rfl
@[simp] theorem State.dropAct_settled (s : State) (id : Nat) : (s.dropAct id).settled = s.settled := rfl
@[simp] theorem State.dropAct_rows (s : State) (id : Nat) : (s.dropAct id).rows = s.rows := rfl
@[simp] theorem State.dropAct_deferred (s : State) (id : Nat) : (s.dropAct id).deferred = s.deferred := rfl
@[simp] theorem State.dropAct_hostOut (s : State) (id : Nat) : (s.dropAct id).hostOut = s.hostOut := rfl
@[simp] theorem State.dropAct_eccG (s : State) (id : Nat) : (s.dropAct id).eccG = s.eccG := rfl
@[simp] theorem State.dropAct_bad (s : State) (id : Nat) : (s.dropAct id).bad = s.bad := rfl
@[simp] theorem State.dropAct_away (s : State) (id : Nat) : (s.dropAct id).away = s.away := rfl
@[simp] theorem State.dropAct_cur (s : State) (id : Nat) : (s.dropAct id).cur = s.cur := rfl
@[simp] theorem State.dropAct_agenda (s : State) (id : Nat) : (s.dropAct id).agenda = s.agenda := rfl
@[simp] theorem State.dropAct_auto (s : State) (id : Nat) : (s.dropAct id).auto = s.auto := rfl
@[simp] theorem State.dropAct_now (s : State) (id : Nat) : (s.dropAct id).now = s.now := rfl
@[simp] theorem State.dropAct_turn (s : State) (id : Nat) : (s.dropAct id).turn = s.turn := rfl
@[simp] theorem State.dropAct_seq (s : State) (id : Nat) : (s.dropAct id).seq = s.seq := rfl
@[simp] theorem State.dropAct_free (s : State) (id : Nat) : (s.dropAct id).free = s.free := rfl

@[simp] theorem State.useFree_time (s : State) : (s.useFree).time = s.time := rfl
@[simp] theorem State.useFree_pkgid (s : State) : (s.useFree).pkgid = s.pkgid := rfl
@[simp] theorem State.useFree_netId (s : State) : (s.useFree).netId = s.netId := rfl
@[simp] theorem State.useFree_iface (s : State) : (s.useFree).iface = s.iface := rfl
@[simp] theorem State.useFree_bootstat (s : State) : (s.useFree).bootstat = s.bootstat := rfl
@[simp] theorem State.useFree_hostmem (s : State) : (s.useFree).hostmem = s.hostmem := rfl
@[simp] theorem State.useFree_hdmBase (s : State) : (s.useFree).hdmBase = s.hdmBase := rfl
@[simp] theorem State.useFree_nbrlost (s : State) : (s.useFree).nbrlost = s.nbrlost := rfl
@[simp] theorem State.useFree_nbrvec (s : State) : (s.useFree).nbrvec = s.nbrvec := rfl
@[simp] theorem State.useFree_rcmd (s : State) : (s.useFree).rcmd = s.rcmd := rfl
@[simp] theorem State.useFree_rstat (s : State) : (s.useFree).rstat = s.rstat := rfl
@[simp] theorem State.useFree_ccmdDesc (s : State) : (s.useFree).ccmdDesc = s.ccmdDesc := rfl
@[simp] theorem State.useFree_ccmd (s : State) : (s.useFree).ccmd = s.ccmd := rfl
@[simp] theorem State.useFree_bcmdDesc (s : State) : (s.useFree).bcmdDesc = s.bcmdDesc := rfl
@[simp] theorem State.useFree_bcmd (s : State) : (s.useFree).bcmd = s.bcmd := rfl
@[simp] theorem State.useFree_mbcmd (s : State) : (s.useFree).mbcmd = s.mbcmd := rfl
@[simp] theorem State.useFree_mbstat (s : State) : (s.useFree).mbstat = s.mbstat := rfl
@[simp] theorem State.useFree_rollback (s : State) : (s.useFree).rollback = s.rollback := rfl
@[simp] theorem State.useFree_firmware (s : State) : (s.useFree).firmware = s.firmware := rfl
@[simp] theorem State.useFree_fwDigest (s : State) : (s.useFree).fwDigest = s.fwDigest := rfl
@[simp] theorem State.useFree_fusedKey (s : State) : (s.useFree).fusedKey = s.fusedKey := rfl
@[simp] theorem State.useFree_attestUsed (s : State) : (s.useFree).attestUsed = s.attestUsed := rfl
@[simp] theorem State.useFree_kemSeed (s : State) : (s.useFree).kemSeed = s.kemSeed := rfl
@[simp] theorem State.useFree_badPhys (s : State) : (s.useFree).badPhys = s.badPhys := rfl
@[simp] theorem State.useFree_entries (s : State) : (s.useFree).entries = s.entries := rfl
@[simp] theorem State.useFree_heldOf (s : State) : (s.useFree).heldOf = s.heldOf := rfl
@[simp] theorem State.useFree_heldSpawn (s : State) : (s.useFree).heldSpawn = s.heldSpawn := rfl
@[simp] theorem State.useFree_heldSig (s : State) : (s.useFree).heldSig = s.heldSig := rfl
@[simp] theorem State.useFree_txBad (s : State) : (s.useFree).txBad = s.txBad := rfl
@[simp] theorem State.useFree_inbuf (s : State) : (s.useFree).inbuf = s.inbuf := rfl
@[simp] theorem State.useFree_loop (s : State) : (s.useFree).loop = s.loop := rfl
@[simp] theorem State.useFree_landing (s : State) : (s.useFree).landing = s.landing := rfl
@[simp] theorem State.useFree_refreshed (s : State) : (s.useFree).refreshed = s.refreshed := rfl
@[simp] theorem State.useFree_msc (s : State) : (s.useFree).msc = s.msc := rfl
@[simp] theorem State.useFree_quiet (s : State) : (s.useFree).quiet = s.quiet := rfl
@[simp] theorem State.useFree_teardowns (s : State) : (s.useFree).teardowns = s.teardowns := rfl
@[simp] theorem State.useFree_hostBad (s : State) : (s.useFree).hostBad = s.hostBad := rfl
@[simp] theorem State.useFree_clmap (s : State) : (s.useFree).clmap = s.clmap := rfl
@[simp] theorem State.useFree_awaiting (s : State) : (s.useFree).awaiting = s.awaiting := rfl
@[simp] theorem State.useFree_fusedBad (s : State) : (s.useFree).fusedBad = s.fusedBad := rfl
@[simp] theorem State.useFree_fencedPhys (s : State) : (s.useFree).fencedPhys = s.fencedPhys := rfl
@[simp] theorem State.useFree_fencedLog (s : State) : (s.useFree).fencedLog = s.fencedLog := rfl
@[simp] theorem State.useFree_psn (s : State) : (s.useFree).psn = s.psn := rfl
@[simp] theorem State.useFree_marked (s : State) : (s.useFree).marked = s.marked := rfl
@[simp] theorem State.useFree_hostWBad (s : State) : (s.useFree).hostWBad = s.hostWBad := rfl
@[simp] theorem State.useFree_eccFix (s : State) : (s.useFree).eccFix = s.eccFix := rfl
@[simp] theorem State.useFree_tlb (s : State) : (s.useFree).tlb = s.tlb := rfl
@[simp] theorem State.useFree_ckpts (s : State) : (s.useFree).ckpts = s.ckpts := rfl
@[simp] theorem State.useFree_ckJobs (s : State) : (s.useFree).ckJobs = s.ckJobs := rfl
@[simp] theorem State.useFree_hbm (s : State) : (s.useFree).hbm = s.hbm := rfl
@[simp] theorem State.useFree_lineKey (s : State) : (s.useFree).lineKey = s.lineKey := rfl
@[simp] theorem State.useFree_hostMem (s : State) : (s.useFree).hostMem = s.hostMem := rfl
@[simp] theorem State.useFree_regions (s : State) : (s.useFree).regions = s.regions := rfl
@[simp] theorem State.useFree_frames (s : State) : (s.useFree).frames = s.frames := rfl
@[simp] theorem State.useFree_threads (s : State) : (s.useFree).threads = s.threads := rfl
@[simp] theorem State.useFree_phys (s : State) : (s.useFree).phys = s.phys := rfl
@[simp] theorem State.useFree_pairs (s : State) : (s.useFree).pairs = s.pairs := rfl
@[simp] theorem State.useFree_clus (s : State) : (s.useFree).clus = s.clus := rfl
@[simp] theorem State.useFree_dies (s : State) : (s.useFree).dies = s.dies := rfl
@[simp] theorem State.useFree_keys (s : State) : (s.useFree).keys = s.keys := rfl
@[simp] theorem State.useFree_lanes (s : State) : (s.useFree).lanes = s.lanes := rfl
@[simp] theorem State.useFree_cmds (s : State) : (s.useFree).cmds = s.cmds := rfl
@[simp] theorem State.useFree_acts (s : State) : (s.useFree).acts = s.acts := rfl
@[simp] theorem State.useFree_streams (s : State) : (s.useFree).streams = s.streams := rfl
@[simp] theorem State.useFree_eports (s : State) : (s.useFree).eports = s.eports := rfl
@[simp] theorem State.useFree_msixTable (s : State) : (s.useFree).msixTable = s.msixTable := rfl
@[simp] theorem State.useFree_msixPend (s : State) : (s.useFree).msixPend = s.msixPend := rfl
@[simp] theorem State.useFree_hostWrites (s : State) : (s.useFree).hostWrites = s.hostWrites := rfl
@[simp] theorem State.useFree_seen (s : State) : (s.useFree).seen = s.seen := rfl
@[simp] theorem State.useFree_settled (s : State) : (s.useFree).settled = s.settled := rfl
@[simp] theorem State.useFree_rows (s : State) : (s.useFree).rows = s.rows := rfl
@[simp] theorem State.useFree_deferred (s : State) : (s.useFree).deferred = s.deferred := rfl
@[simp] theorem State.useFree_hostOut (s : State) : (s.useFree).hostOut = s.hostOut := rfl
@[simp] theorem State.useFree_eccG (s : State) : (s.useFree).eccG = s.eccG := rfl
@[simp] theorem State.useFree_bad (s : State) : (s.useFree).bad = s.bad := rfl
@[simp] theorem State.useFree_away (s : State) : (s.useFree).away = s.away := rfl
@[simp] theorem State.useFree_cur (s : State) : (s.useFree).cur = s.cur := rfl
@[simp] theorem State.useFree_agenda (s : State) : (s.useFree).agenda = s.agenda := rfl
@[simp] theorem State.useFree_auto (s : State) : (s.useFree).auto = s.auto := rfl
@[simp] theorem State.useFree_now (s : State) : (s.useFree).now = s.now := rfl
@[simp] theorem State.useFree_turn (s : State) : (s.useFree).turn = s.turn := rfl
@[simp] theorem State.useFree_seq (s : State) : (s.useFree).seq = s.seq := rfl

@[simp] theorem State.begin_time (s : State) (c : Ctx) : (s.begin c).time = s.time := rfl
@[simp] theorem State.begin_pkgid (s : State) (c : Ctx) : (s.begin c).pkgid = s.pkgid := rfl
@[simp] theorem State.begin_netId (s : State) (c : Ctx) : (s.begin c).netId = s.netId := rfl
@[simp] theorem State.begin_iface (s : State) (c : Ctx) : (s.begin c).iface = s.iface := rfl
@[simp] theorem State.begin_bootstat (s : State) (c : Ctx) : (s.begin c).bootstat = s.bootstat := rfl
@[simp] theorem State.begin_hostmem (s : State) (c : Ctx) : (s.begin c).hostmem = s.hostmem := rfl
@[simp] theorem State.begin_hdmBase (s : State) (c : Ctx) : (s.begin c).hdmBase = s.hdmBase := rfl
@[simp] theorem State.begin_nbrlost (s : State) (c : Ctx) : (s.begin c).nbrlost = s.nbrlost := rfl
@[simp] theorem State.begin_nbrvec (s : State) (c : Ctx) : (s.begin c).nbrvec = s.nbrvec := rfl
@[simp] theorem State.begin_rcmd (s : State) (c : Ctx) : (s.begin c).rcmd = s.rcmd := rfl
@[simp] theorem State.begin_rstat (s : State) (c : Ctx) : (s.begin c).rstat = s.rstat := rfl
@[simp] theorem State.begin_ccmdDesc (s : State) (c : Ctx) : (s.begin c).ccmdDesc = s.ccmdDesc := rfl
@[simp] theorem State.begin_ccmd (s : State) (c : Ctx) : (s.begin c).ccmd = s.ccmd := rfl
@[simp] theorem State.begin_bcmdDesc (s : State) (c : Ctx) : (s.begin c).bcmdDesc = s.bcmdDesc := rfl
@[simp] theorem State.begin_bcmd (s : State) (c : Ctx) : (s.begin c).bcmd = s.bcmd := rfl
@[simp] theorem State.begin_mbcmd (s : State) (c : Ctx) : (s.begin c).mbcmd = s.mbcmd := rfl
@[simp] theorem State.begin_mbstat (s : State) (c : Ctx) : (s.begin c).mbstat = s.mbstat := rfl
@[simp] theorem State.begin_rollback (s : State) (c : Ctx) : (s.begin c).rollback = s.rollback := rfl
@[simp] theorem State.begin_firmware (s : State) (c : Ctx) : (s.begin c).firmware = s.firmware := rfl
@[simp] theorem State.begin_fwDigest (s : State) (c : Ctx) : (s.begin c).fwDigest = s.fwDigest := rfl
@[simp] theorem State.begin_fusedKey (s : State) (c : Ctx) : (s.begin c).fusedKey = s.fusedKey := rfl
@[simp] theorem State.begin_attestUsed (s : State) (c : Ctx) : (s.begin c).attestUsed = s.attestUsed := rfl
@[simp] theorem State.begin_kemSeed (s : State) (c : Ctx) : (s.begin c).kemSeed = s.kemSeed := rfl
@[simp] theorem State.begin_badPhys (s : State) (c : Ctx) : (s.begin c).badPhys = s.badPhys := rfl
@[simp] theorem State.begin_entries (s : State) (c : Ctx) : (s.begin c).entries = s.entries := rfl
@[simp] theorem State.begin_heldOf (s : State) (c : Ctx) : (s.begin c).heldOf = s.heldOf := rfl
@[simp] theorem State.begin_heldSpawn (s : State) (c : Ctx) : (s.begin c).heldSpawn = s.heldSpawn := rfl
@[simp] theorem State.begin_heldSig (s : State) (c : Ctx) : (s.begin c).heldSig = s.heldSig := rfl
@[simp] theorem State.begin_txBad (s : State) (c : Ctx) : (s.begin c).txBad = s.txBad := rfl
@[simp] theorem State.begin_inbuf (s : State) (c : Ctx) : (s.begin c).inbuf = s.inbuf := rfl
@[simp] theorem State.begin_loop (s : State) (c : Ctx) : (s.begin c).loop = s.loop := rfl
@[simp] theorem State.begin_landing (s : State) (c : Ctx) : (s.begin c).landing = s.landing := rfl
@[simp] theorem State.begin_refreshed (s : State) (c : Ctx) : (s.begin c).refreshed = s.refreshed := rfl
@[simp] theorem State.begin_msc (s : State) (c : Ctx) : (s.begin c).msc = s.msc := rfl
@[simp] theorem State.begin_quiet (s : State) (c : Ctx) : (s.begin c).quiet = s.quiet := rfl
@[simp] theorem State.begin_teardowns (s : State) (c : Ctx) : (s.begin c).teardowns = s.teardowns := rfl
@[simp] theorem State.begin_hostBad (s : State) (c : Ctx) : (s.begin c).hostBad = s.hostBad := rfl
@[simp] theorem State.begin_clmap (s : State) (c : Ctx) : (s.begin c).clmap = s.clmap := rfl
@[simp] theorem State.begin_awaiting (s : State) (c : Ctx) : (s.begin c).awaiting = s.awaiting := rfl
@[simp] theorem State.begin_fusedBad (s : State) (c : Ctx) : (s.begin c).fusedBad = s.fusedBad := rfl
@[simp] theorem State.begin_fencedPhys (s : State) (c : Ctx) : (s.begin c).fencedPhys = s.fencedPhys := rfl
@[simp] theorem State.begin_fencedLog (s : State) (c : Ctx) : (s.begin c).fencedLog = s.fencedLog := rfl
@[simp] theorem State.begin_psn (s : State) (c : Ctx) : (s.begin c).psn = s.psn := rfl
@[simp] theorem State.begin_marked (s : State) (c : Ctx) : (s.begin c).marked = s.marked := rfl
@[simp] theorem State.begin_hostWBad (s : State) (c : Ctx) : (s.begin c).hostWBad = s.hostWBad := rfl
@[simp] theorem State.begin_eccFix (s : State) (c : Ctx) : (s.begin c).eccFix = s.eccFix := rfl
@[simp] theorem State.begin_tlb (s : State) (c : Ctx) : (s.begin c).tlb = s.tlb := rfl
@[simp] theorem State.begin_ckpts (s : State) (c : Ctx) : (s.begin c).ckpts = s.ckpts := rfl
@[simp] theorem State.begin_ckJobs (s : State) (c : Ctx) : (s.begin c).ckJobs = s.ckJobs := rfl
@[simp] theorem State.begin_hbm (s : State) (c : Ctx) : (s.begin c).hbm = s.hbm := rfl
@[simp] theorem State.begin_lineKey (s : State) (c : Ctx) : (s.begin c).lineKey = s.lineKey := rfl
@[simp] theorem State.begin_hostMem (s : State) (c : Ctx) : (s.begin c).hostMem = s.hostMem := rfl
@[simp] theorem State.begin_regions (s : State) (c : Ctx) : (s.begin c).regions = s.regions := rfl
@[simp] theorem State.begin_frames (s : State) (c : Ctx) : (s.begin c).frames = s.frames := rfl
@[simp] theorem State.begin_phys (s : State) (c : Ctx) : (s.begin c).phys = s.phys := rfl
@[simp] theorem State.begin_pairs (s : State) (c : Ctx) : (s.begin c).pairs = s.pairs := rfl
@[simp] theorem State.begin_clus (s : State) (c : Ctx) : (s.begin c).clus = s.clus := rfl
@[simp] theorem State.begin_dies (s : State) (c : Ctx) : (s.begin c).dies = s.dies := rfl
@[simp] theorem State.begin_keys (s : State) (c : Ctx) : (s.begin c).keys = s.keys := rfl
@[simp] theorem State.begin_lanes (s : State) (c : Ctx) : (s.begin c).lanes = s.lanes := rfl
@[simp] theorem State.begin_cmds (s : State) (c : Ctx) : (s.begin c).cmds = s.cmds := rfl
@[simp] theorem State.begin_acts (s : State) (c : Ctx) : (s.begin c).acts = s.acts := rfl
@[simp] theorem State.begin_streams (s : State) (c : Ctx) : (s.begin c).streams = s.streams := rfl
@[simp] theorem State.begin_eports (s : State) (c : Ctx) : (s.begin c).eports = s.eports := rfl
@[simp] theorem State.begin_msixTable (s : State) (c : Ctx) : (s.begin c).msixTable = s.msixTable := rfl
@[simp] theorem State.begin_msixPend (s : State) (c : Ctx) : (s.begin c).msixPend = s.msixPend := rfl
@[simp] theorem State.begin_hostWrites (s : State) (c : Ctx) : (s.begin c).hostWrites = s.hostWrites := rfl
@[simp] theorem State.begin_seen (s : State) (c : Ctx) : (s.begin c).seen = s.seen := rfl
@[simp] theorem State.begin_settled (s : State) (c : Ctx) : (s.begin c).settled = s.settled := rfl
@[simp] theorem State.begin_rows (s : State) (c : Ctx) : (s.begin c).rows = s.rows := rfl
@[simp] theorem State.begin_deferred (s : State) (c : Ctx) : (s.begin c).deferred = s.deferred := rfl
@[simp] theorem State.begin_hostOut (s : State) (c : Ctx) : (s.begin c).hostOut = s.hostOut := rfl
@[simp] theorem State.begin_eccG (s : State) (c : Ctx) : (s.begin c).eccG = s.eccG := rfl
@[simp] theorem State.begin_bad (s : State) (c : Ctx) : (s.begin c).bad = s.bad := rfl
@[simp] theorem State.begin_away (s : State) (c : Ctx) : (s.begin c).away = s.away := rfl
@[simp] theorem State.begin_cur (s : State) (c : Ctx) : (s.begin c).cur = s.cur := rfl
@[simp] theorem State.begin_agenda (s : State) (c : Ctx) : (s.begin c).agenda = s.agenda := rfl
@[simp] theorem State.begin_auto (s : State) (c : Ctx) : (s.begin c).auto = s.auto := rfl
@[simp] theorem State.begin_now (s : State) (c : Ctx) : (s.begin c).now = s.now := rfl
@[simp] theorem State.begin_turn (s : State) (c : Ctx) : (s.begin c).turn = s.turn := rfl
@[simp] theorem State.begin_seq (s : State) (c : Ctx) : (s.begin c).seq = s.seq := rfl
@[simp] theorem State.begin_free (s : State) (c : Ctx) : (s.begin c).free = s.free := rfl

@[simp] theorem State.setSem_time (s : State) (cl rgn knum k : Nat) (v : Sem) : (s.setSem cl rgn knum k v).time = s.time := rfl
@[simp] theorem State.setSem_pkgid (s : State) (cl rgn knum k : Nat) (v : Sem) : (s.setSem cl rgn knum k v).pkgid = s.pkgid := rfl
@[simp] theorem State.setSem_netId (s : State) (cl rgn knum k : Nat) (v : Sem) : (s.setSem cl rgn knum k v).netId = s.netId := rfl
@[simp] theorem State.setSem_iface (s : State) (cl rgn knum k : Nat) (v : Sem) : (s.setSem cl rgn knum k v).iface = s.iface := rfl
@[simp] theorem State.setSem_bootstat (s : State) (cl rgn knum k : Nat) (v : Sem) : (s.setSem cl rgn knum k v).bootstat = s.bootstat := rfl
@[simp] theorem State.setSem_hostmem (s : State) (cl rgn knum k : Nat) (v : Sem) : (s.setSem cl rgn knum k v).hostmem = s.hostmem := rfl
@[simp] theorem State.setSem_hdmBase (s : State) (cl rgn knum k : Nat) (v : Sem) : (s.setSem cl rgn knum k v).hdmBase = s.hdmBase := rfl
@[simp] theorem State.setSem_nbrlost (s : State) (cl rgn knum k : Nat) (v : Sem) : (s.setSem cl rgn knum k v).nbrlost = s.nbrlost := rfl
@[simp] theorem State.setSem_nbrvec (s : State) (cl rgn knum k : Nat) (v : Sem) : (s.setSem cl rgn knum k v).nbrvec = s.nbrvec := rfl
@[simp] theorem State.setSem_rcmd (s : State) (cl rgn knum k : Nat) (v : Sem) : (s.setSem cl rgn knum k v).rcmd = s.rcmd := rfl
@[simp] theorem State.setSem_rstat (s : State) (cl rgn knum k : Nat) (v : Sem) : (s.setSem cl rgn knum k v).rstat = s.rstat := rfl
@[simp] theorem State.setSem_ccmdDesc (s : State) (cl rgn knum k : Nat) (v : Sem) : (s.setSem cl rgn knum k v).ccmdDesc = s.ccmdDesc := rfl
@[simp] theorem State.setSem_ccmd (s : State) (cl rgn knum k : Nat) (v : Sem) : (s.setSem cl rgn knum k v).ccmd = s.ccmd := rfl
@[simp] theorem State.setSem_bcmdDesc (s : State) (cl rgn knum k : Nat) (v : Sem) : (s.setSem cl rgn knum k v).bcmdDesc = s.bcmdDesc := rfl
@[simp] theorem State.setSem_bcmd (s : State) (cl rgn knum k : Nat) (v : Sem) : (s.setSem cl rgn knum k v).bcmd = s.bcmd := rfl
@[simp] theorem State.setSem_mbcmd (s : State) (cl rgn knum k : Nat) (v : Sem) : (s.setSem cl rgn knum k v).mbcmd = s.mbcmd := rfl
@[simp] theorem State.setSem_mbstat (s : State) (cl rgn knum k : Nat) (v : Sem) : (s.setSem cl rgn knum k v).mbstat = s.mbstat := rfl
@[simp] theorem State.setSem_rollback (s : State) (cl rgn knum k : Nat) (v : Sem) : (s.setSem cl rgn knum k v).rollback = s.rollback := rfl
@[simp] theorem State.setSem_firmware (s : State) (cl rgn knum k : Nat) (v : Sem) : (s.setSem cl rgn knum k v).firmware = s.firmware := rfl
@[simp] theorem State.setSem_fwDigest (s : State) (cl rgn knum k : Nat) (v : Sem) : (s.setSem cl rgn knum k v).fwDigest = s.fwDigest := rfl
@[simp] theorem State.setSem_fusedKey (s : State) (cl rgn knum k : Nat) (v : Sem) : (s.setSem cl rgn knum k v).fusedKey = s.fusedKey := rfl
@[simp] theorem State.setSem_attestUsed (s : State) (cl rgn knum k : Nat) (v : Sem) : (s.setSem cl rgn knum k v).attestUsed = s.attestUsed := rfl
@[simp] theorem State.setSem_kemSeed (s : State) (cl rgn knum k : Nat) (v : Sem) : (s.setSem cl rgn knum k v).kemSeed = s.kemSeed := rfl
@[simp] theorem State.setSem_badPhys (s : State) (cl rgn knum k : Nat) (v : Sem) : (s.setSem cl rgn knum k v).badPhys = s.badPhys := rfl
@[simp] theorem State.setSem_entries (s : State) (cl rgn knum k : Nat) (v : Sem) : (s.setSem cl rgn knum k v).entries = s.entries := rfl
@[simp] theorem State.setSem_heldOf (s : State) (cl rgn knum k : Nat) (v : Sem) : (s.setSem cl rgn knum k v).heldOf = s.heldOf := rfl
@[simp] theorem State.setSem_heldSpawn (s : State) (cl rgn knum k : Nat) (v : Sem) : (s.setSem cl rgn knum k v).heldSpawn = s.heldSpawn := rfl
@[simp] theorem State.setSem_heldSig (s : State) (cl rgn knum k : Nat) (v : Sem) : (s.setSem cl rgn knum k v).heldSig = s.heldSig := rfl
@[simp] theorem State.setSem_txBad (s : State) (cl rgn knum k : Nat) (v : Sem) : (s.setSem cl rgn knum k v).txBad = s.txBad := rfl
@[simp] theorem State.setSem_inbuf (s : State) (cl rgn knum k : Nat) (v : Sem) : (s.setSem cl rgn knum k v).inbuf = s.inbuf := rfl
@[simp] theorem State.setSem_loop (s : State) (cl rgn knum k : Nat) (v : Sem) : (s.setSem cl rgn knum k v).loop = s.loop := rfl
@[simp] theorem State.setSem_landing (s : State) (cl rgn knum k : Nat) (v : Sem) : (s.setSem cl rgn knum k v).landing = s.landing := rfl
@[simp] theorem State.setSem_refreshed (s : State) (cl rgn knum k : Nat) (v : Sem) : (s.setSem cl rgn knum k v).refreshed = s.refreshed := rfl
@[simp] theorem State.setSem_msc (s : State) (cl rgn knum k : Nat) (v : Sem) : (s.setSem cl rgn knum k v).msc = s.msc := rfl
@[simp] theorem State.setSem_quiet (s : State) (cl rgn knum k : Nat) (v : Sem) : (s.setSem cl rgn knum k v).quiet = s.quiet := rfl
@[simp] theorem State.setSem_teardowns (s : State) (cl rgn knum k : Nat) (v : Sem) : (s.setSem cl rgn knum k v).teardowns = s.teardowns := rfl
@[simp] theorem State.setSem_hostBad (s : State) (cl rgn knum k : Nat) (v : Sem) : (s.setSem cl rgn knum k v).hostBad = s.hostBad := rfl
@[simp] theorem State.setSem_clmap (s : State) (cl rgn knum k : Nat) (v : Sem) : (s.setSem cl rgn knum k v).clmap = s.clmap := rfl
@[simp] theorem State.setSem_awaiting (s : State) (cl rgn knum k : Nat) (v : Sem) : (s.setSem cl rgn knum k v).awaiting = s.awaiting := rfl
@[simp] theorem State.setSem_fusedBad (s : State) (cl rgn knum k : Nat) (v : Sem) : (s.setSem cl rgn knum k v).fusedBad = s.fusedBad := rfl
@[simp] theorem State.setSem_fencedPhys (s : State) (cl rgn knum k : Nat) (v : Sem) : (s.setSem cl rgn knum k v).fencedPhys = s.fencedPhys := rfl
@[simp] theorem State.setSem_fencedLog (s : State) (cl rgn knum k : Nat) (v : Sem) : (s.setSem cl rgn knum k v).fencedLog = s.fencedLog := rfl
@[simp] theorem State.setSem_psn (s : State) (cl rgn knum k : Nat) (v : Sem) : (s.setSem cl rgn knum k v).psn = s.psn := rfl
@[simp] theorem State.setSem_marked (s : State) (cl rgn knum k : Nat) (v : Sem) : (s.setSem cl rgn knum k v).marked = s.marked := rfl
@[simp] theorem State.setSem_hostWBad (s : State) (cl rgn knum k : Nat) (v : Sem) : (s.setSem cl rgn knum k v).hostWBad = s.hostWBad := rfl
@[simp] theorem State.setSem_eccFix (s : State) (cl rgn knum k : Nat) (v : Sem) : (s.setSem cl rgn knum k v).eccFix = s.eccFix := rfl
@[simp] theorem State.setSem_tlb (s : State) (cl rgn knum k : Nat) (v : Sem) : (s.setSem cl rgn knum k v).tlb = s.tlb := rfl
@[simp] theorem State.setSem_ckpts (s : State) (cl rgn knum k : Nat) (v : Sem) : (s.setSem cl rgn knum k v).ckpts = s.ckpts := rfl
@[simp] theorem State.setSem_ckJobs (s : State) (cl rgn knum k : Nat) (v : Sem) : (s.setSem cl rgn knum k v).ckJobs = s.ckJobs := rfl
@[simp] theorem State.setSem_hbm (s : State) (cl rgn knum k : Nat) (v : Sem) : (s.setSem cl rgn knum k v).hbm = s.hbm := rfl
@[simp] theorem State.setSem_lineKey (s : State) (cl rgn knum k : Nat) (v : Sem) : (s.setSem cl rgn knum k v).lineKey = s.lineKey := rfl
@[simp] theorem State.setSem_hostMem (s : State) (cl rgn knum k : Nat) (v : Sem) : (s.setSem cl rgn knum k v).hostMem = s.hostMem := rfl
@[simp] theorem State.setSem_regions (s : State) (cl rgn knum k : Nat) (v : Sem) : (s.setSem cl rgn knum k v).regions = s.regions := rfl
@[simp] theorem State.setSem_threads (s : State) (cl rgn knum k : Nat) (v : Sem) : (s.setSem cl rgn knum k v).threads = s.threads := rfl
@[simp] theorem State.setSem_phys (s : State) (cl rgn knum k : Nat) (v : Sem) : (s.setSem cl rgn knum k v).phys = s.phys := rfl
@[simp] theorem State.setSem_pairs (s : State) (cl rgn knum k : Nat) (v : Sem) : (s.setSem cl rgn knum k v).pairs = s.pairs := rfl
@[simp] theorem State.setSem_clus (s : State) (cl rgn knum k : Nat) (v : Sem) : (s.setSem cl rgn knum k v).clus = s.clus := rfl
@[simp] theorem State.setSem_dies (s : State) (cl rgn knum k : Nat) (v : Sem) : (s.setSem cl rgn knum k v).dies = s.dies := rfl
@[simp] theorem State.setSem_keys (s : State) (cl rgn knum k : Nat) (v : Sem) : (s.setSem cl rgn knum k v).keys = s.keys := rfl
@[simp] theorem State.setSem_lanes (s : State) (cl rgn knum k : Nat) (v : Sem) : (s.setSem cl rgn knum k v).lanes = s.lanes := rfl
@[simp] theorem State.setSem_cmds (s : State) (cl rgn knum k : Nat) (v : Sem) : (s.setSem cl rgn knum k v).cmds = s.cmds := rfl
@[simp] theorem State.setSem_acts (s : State) (cl rgn knum k : Nat) (v : Sem) : (s.setSem cl rgn knum k v).acts = s.acts := rfl
@[simp] theorem State.setSem_streams (s : State) (cl rgn knum k : Nat) (v : Sem) : (s.setSem cl rgn knum k v).streams = s.streams := rfl
@[simp] theorem State.setSem_eports (s : State) (cl rgn knum k : Nat) (v : Sem) : (s.setSem cl rgn knum k v).eports = s.eports := rfl
@[simp] theorem State.setSem_msixTable (s : State) (cl rgn knum k : Nat) (v : Sem) : (s.setSem cl rgn knum k v).msixTable = s.msixTable := rfl
@[simp] theorem State.setSem_msixPend (s : State) (cl rgn knum k : Nat) (v : Sem) : (s.setSem cl rgn knum k v).msixPend = s.msixPend := rfl
@[simp] theorem State.setSem_hostWrites (s : State) (cl rgn knum k : Nat) (v : Sem) : (s.setSem cl rgn knum k v).hostWrites = s.hostWrites := rfl
@[simp] theorem State.setSem_seen (s : State) (cl rgn knum k : Nat) (v : Sem) : (s.setSem cl rgn knum k v).seen = s.seen := rfl
@[simp] theorem State.setSem_settled (s : State) (cl rgn knum k : Nat) (v : Sem) : (s.setSem cl rgn knum k v).settled = s.settled := rfl
@[simp] theorem State.setSem_rows (s : State) (cl rgn knum k : Nat) (v : Sem) : (s.setSem cl rgn knum k v).rows = s.rows := rfl
@[simp] theorem State.setSem_deferred (s : State) (cl rgn knum k : Nat) (v : Sem) : (s.setSem cl rgn knum k v).deferred = s.deferred := rfl
@[simp] theorem State.setSem_hostOut (s : State) (cl rgn knum k : Nat) (v : Sem) : (s.setSem cl rgn knum k v).hostOut = s.hostOut := rfl
@[simp] theorem State.setSem_eccG (s : State) (cl rgn knum k : Nat) (v : Sem) : (s.setSem cl rgn knum k v).eccG = s.eccG := rfl
@[simp] theorem State.setSem_bad (s : State) (cl rgn knum k : Nat) (v : Sem) : (s.setSem cl rgn knum k v).bad = s.bad := rfl
@[simp] theorem State.setSem_away (s : State) (cl rgn knum k : Nat) (v : Sem) : (s.setSem cl rgn knum k v).away = s.away := rfl
@[simp] theorem State.setSem_cur (s : State) (cl rgn knum k : Nat) (v : Sem) : (s.setSem cl rgn knum k v).cur = s.cur := rfl
@[simp] theorem State.setSem_agenda (s : State) (cl rgn knum k : Nat) (v : Sem) : (s.setSem cl rgn knum k v).agenda = s.agenda := rfl
@[simp] theorem State.setSem_auto (s : State) (cl rgn knum k : Nat) (v : Sem) : (s.setSem cl rgn knum k v).auto = s.auto := rfl
@[simp] theorem State.setSem_now (s : State) (cl rgn knum k : Nat) (v : Sem) : (s.setSem cl rgn knum k v).now = s.now := rfl
@[simp] theorem State.setSem_turn (s : State) (cl rgn knum k : Nat) (v : Sem) : (s.setSem cl rgn knum k v).turn = s.turn := rfl
@[simp] theorem State.setSem_seq (s : State) (cl rgn knum k : Nat) (v : Sem) : (s.setSem cl rgn knum k v).seq = s.seq := rfl
@[simp] theorem State.setSem_free (s : State) (cl rgn knum k : Nat) (v : Sem) : (s.setSem cl rgn knum k v).free = s.free := rfl

@[simp] theorem State.startWait_time (s : State) (cl slot : Nat) (w : Wait) : (s.startWait cl slot w).time = s.time := rfl
@[simp] theorem State.startWait_pkgid (s : State) (cl slot : Nat) (w : Wait) : (s.startWait cl slot w).pkgid = s.pkgid := rfl
@[simp] theorem State.startWait_netId (s : State) (cl slot : Nat) (w : Wait) : (s.startWait cl slot w).netId = s.netId := rfl
@[simp] theorem State.startWait_iface (s : State) (cl slot : Nat) (w : Wait) : (s.startWait cl slot w).iface = s.iface := rfl
@[simp] theorem State.startWait_bootstat (s : State) (cl slot : Nat) (w : Wait) : (s.startWait cl slot w).bootstat = s.bootstat := rfl
@[simp] theorem State.startWait_hostmem (s : State) (cl slot : Nat) (w : Wait) : (s.startWait cl slot w).hostmem = s.hostmem := rfl
@[simp] theorem State.startWait_hdmBase (s : State) (cl slot : Nat) (w : Wait) : (s.startWait cl slot w).hdmBase = s.hdmBase := rfl
@[simp] theorem State.startWait_nbrlost (s : State) (cl slot : Nat) (w : Wait) : (s.startWait cl slot w).nbrlost = s.nbrlost := rfl
@[simp] theorem State.startWait_nbrvec (s : State) (cl slot : Nat) (w : Wait) : (s.startWait cl slot w).nbrvec = s.nbrvec := rfl
@[simp] theorem State.startWait_rcmd (s : State) (cl slot : Nat) (w : Wait) : (s.startWait cl slot w).rcmd = s.rcmd := rfl
@[simp] theorem State.startWait_rstat (s : State) (cl slot : Nat) (w : Wait) : (s.startWait cl slot w).rstat = s.rstat := rfl
@[simp] theorem State.startWait_ccmdDesc (s : State) (cl slot : Nat) (w : Wait) : (s.startWait cl slot w).ccmdDesc = s.ccmdDesc := rfl
@[simp] theorem State.startWait_ccmd (s : State) (cl slot : Nat) (w : Wait) : (s.startWait cl slot w).ccmd = s.ccmd := rfl
@[simp] theorem State.startWait_bcmdDesc (s : State) (cl slot : Nat) (w : Wait) : (s.startWait cl slot w).bcmdDesc = s.bcmdDesc := rfl
@[simp] theorem State.startWait_bcmd (s : State) (cl slot : Nat) (w : Wait) : (s.startWait cl slot w).bcmd = s.bcmd := rfl
@[simp] theorem State.startWait_mbcmd (s : State) (cl slot : Nat) (w : Wait) : (s.startWait cl slot w).mbcmd = s.mbcmd := rfl
@[simp] theorem State.startWait_mbstat (s : State) (cl slot : Nat) (w : Wait) : (s.startWait cl slot w).mbstat = s.mbstat := rfl
@[simp] theorem State.startWait_rollback (s : State) (cl slot : Nat) (w : Wait) : (s.startWait cl slot w).rollback = s.rollback := rfl
@[simp] theorem State.startWait_firmware (s : State) (cl slot : Nat) (w : Wait) : (s.startWait cl slot w).firmware = s.firmware := rfl
@[simp] theorem State.startWait_fwDigest (s : State) (cl slot : Nat) (w : Wait) : (s.startWait cl slot w).fwDigest = s.fwDigest := rfl
@[simp] theorem State.startWait_fusedKey (s : State) (cl slot : Nat) (w : Wait) : (s.startWait cl slot w).fusedKey = s.fusedKey := rfl
@[simp] theorem State.startWait_attestUsed (s : State) (cl slot : Nat) (w : Wait) : (s.startWait cl slot w).attestUsed = s.attestUsed := rfl
@[simp] theorem State.startWait_kemSeed (s : State) (cl slot : Nat) (w : Wait) : (s.startWait cl slot w).kemSeed = s.kemSeed := rfl
@[simp] theorem State.startWait_badPhys (s : State) (cl slot : Nat) (w : Wait) : (s.startWait cl slot w).badPhys = s.badPhys := rfl
@[simp] theorem State.startWait_entries (s : State) (cl slot : Nat) (w : Wait) : (s.startWait cl slot w).entries = s.entries := rfl
@[simp] theorem State.startWait_heldOf (s : State) (cl slot : Nat) (w : Wait) : (s.startWait cl slot w).heldOf = s.heldOf := rfl
@[simp] theorem State.startWait_heldSpawn (s : State) (cl slot : Nat) (w : Wait) : (s.startWait cl slot w).heldSpawn = s.heldSpawn := rfl
@[simp] theorem State.startWait_heldSig (s : State) (cl slot : Nat) (w : Wait) : (s.startWait cl slot w).heldSig = s.heldSig := rfl
@[simp] theorem State.startWait_txBad (s : State) (cl slot : Nat) (w : Wait) : (s.startWait cl slot w).txBad = s.txBad := rfl
@[simp] theorem State.startWait_inbuf (s : State) (cl slot : Nat) (w : Wait) : (s.startWait cl slot w).inbuf = s.inbuf := rfl
@[simp] theorem State.startWait_loop (s : State) (cl slot : Nat) (w : Wait) : (s.startWait cl slot w).loop = s.loop := rfl
@[simp] theorem State.startWait_landing (s : State) (cl slot : Nat) (w : Wait) : (s.startWait cl slot w).landing = s.landing := rfl
@[simp] theorem State.startWait_refreshed (s : State) (cl slot : Nat) (w : Wait) : (s.startWait cl slot w).refreshed = s.refreshed := rfl
@[simp] theorem State.startWait_msc (s : State) (cl slot : Nat) (w : Wait) : (s.startWait cl slot w).msc = s.msc := rfl
@[simp] theorem State.startWait_quiet (s : State) (cl slot : Nat) (w : Wait) : (s.startWait cl slot w).quiet = s.quiet := rfl
@[simp] theorem State.startWait_teardowns (s : State) (cl slot : Nat) (w : Wait) : (s.startWait cl slot w).teardowns = s.teardowns := rfl
@[simp] theorem State.startWait_hostBad (s : State) (cl slot : Nat) (w : Wait) : (s.startWait cl slot w).hostBad = s.hostBad := rfl
@[simp] theorem State.startWait_clmap (s : State) (cl slot : Nat) (w : Wait) : (s.startWait cl slot w).clmap = s.clmap := rfl
@[simp] theorem State.startWait_awaiting (s : State) (cl slot : Nat) (w : Wait) : (s.startWait cl slot w).awaiting = s.awaiting := rfl
@[simp] theorem State.startWait_fusedBad (s : State) (cl slot : Nat) (w : Wait) : (s.startWait cl slot w).fusedBad = s.fusedBad := rfl
@[simp] theorem State.startWait_fencedPhys (s : State) (cl slot : Nat) (w : Wait) : (s.startWait cl slot w).fencedPhys = s.fencedPhys := rfl
@[simp] theorem State.startWait_fencedLog (s : State) (cl slot : Nat) (w : Wait) : (s.startWait cl slot w).fencedLog = s.fencedLog := rfl
@[simp] theorem State.startWait_psn (s : State) (cl slot : Nat) (w : Wait) : (s.startWait cl slot w).psn = s.psn := rfl
@[simp] theorem State.startWait_marked (s : State) (cl slot : Nat) (w : Wait) : (s.startWait cl slot w).marked = s.marked := rfl
@[simp] theorem State.startWait_hostWBad (s : State) (cl slot : Nat) (w : Wait) : (s.startWait cl slot w).hostWBad = s.hostWBad := rfl
@[simp] theorem State.startWait_eccFix (s : State) (cl slot : Nat) (w : Wait) : (s.startWait cl slot w).eccFix = s.eccFix := rfl
@[simp] theorem State.startWait_tlb (s : State) (cl slot : Nat) (w : Wait) : (s.startWait cl slot w).tlb = s.tlb := rfl
@[simp] theorem State.startWait_ckpts (s : State) (cl slot : Nat) (w : Wait) : (s.startWait cl slot w).ckpts = s.ckpts := rfl
@[simp] theorem State.startWait_ckJobs (s : State) (cl slot : Nat) (w : Wait) : (s.startWait cl slot w).ckJobs = s.ckJobs := rfl
@[simp] theorem State.startWait_hbm (s : State) (cl slot : Nat) (w : Wait) : (s.startWait cl slot w).hbm = s.hbm := rfl
@[simp] theorem State.startWait_lineKey (s : State) (cl slot : Nat) (w : Wait) : (s.startWait cl slot w).lineKey = s.lineKey := rfl
@[simp] theorem State.startWait_hostMem (s : State) (cl slot : Nat) (w : Wait) : (s.startWait cl slot w).hostMem = s.hostMem := rfl
@[simp] theorem State.startWait_regions (s : State) (cl slot : Nat) (w : Wait) : (s.startWait cl slot w).regions = s.regions := rfl
@[simp] theorem State.startWait_frames (s : State) (cl slot : Nat) (w : Wait) : (s.startWait cl slot w).frames = s.frames := rfl
@[simp] theorem State.startWait_phys (s : State) (cl slot : Nat) (w : Wait) : (s.startWait cl slot w).phys = s.phys := rfl
@[simp] theorem State.startWait_pairs (s : State) (cl slot : Nat) (w : Wait) : (s.startWait cl slot w).pairs = s.pairs := rfl
@[simp] theorem State.startWait_clus (s : State) (cl slot : Nat) (w : Wait) : (s.startWait cl slot w).clus = s.clus := rfl
@[simp] theorem State.startWait_dies (s : State) (cl slot : Nat) (w : Wait) : (s.startWait cl slot w).dies = s.dies := rfl
@[simp] theorem State.startWait_keys (s : State) (cl slot : Nat) (w : Wait) : (s.startWait cl slot w).keys = s.keys := rfl
@[simp] theorem State.startWait_lanes (s : State) (cl slot : Nat) (w : Wait) : (s.startWait cl slot w).lanes = s.lanes := rfl
@[simp] theorem State.startWait_cmds (s : State) (cl slot : Nat) (w : Wait) : (s.startWait cl slot w).cmds = s.cmds := rfl
@[simp] theorem State.startWait_acts (s : State) (cl slot : Nat) (w : Wait) : (s.startWait cl slot w).acts = s.acts := rfl
@[simp] theorem State.startWait_streams (s : State) (cl slot : Nat) (w : Wait) : (s.startWait cl slot w).streams = s.streams := rfl
@[simp] theorem State.startWait_eports (s : State) (cl slot : Nat) (w : Wait) : (s.startWait cl slot w).eports = s.eports := rfl
@[simp] theorem State.startWait_msixTable (s : State) (cl slot : Nat) (w : Wait) : (s.startWait cl slot w).msixTable = s.msixTable := rfl
@[simp] theorem State.startWait_msixPend (s : State) (cl slot : Nat) (w : Wait) : (s.startWait cl slot w).msixPend = s.msixPend := rfl
@[simp] theorem State.startWait_hostWrites (s : State) (cl slot : Nat) (w : Wait) : (s.startWait cl slot w).hostWrites = s.hostWrites := rfl
@[simp] theorem State.startWait_seen (s : State) (cl slot : Nat) (w : Wait) : (s.startWait cl slot w).seen = s.seen := rfl
@[simp] theorem State.startWait_settled (s : State) (cl slot : Nat) (w : Wait) : (s.startWait cl slot w).settled = s.settled := rfl
@[simp] theorem State.startWait_rows (s : State) (cl slot : Nat) (w : Wait) : (s.startWait cl slot w).rows = s.rows := rfl
@[simp] theorem State.startWait_deferred (s : State) (cl slot : Nat) (w : Wait) : (s.startWait cl slot w).deferred = s.deferred := rfl
@[simp] theorem State.startWait_hostOut (s : State) (cl slot : Nat) (w : Wait) : (s.startWait cl slot w).hostOut = s.hostOut := rfl
@[simp] theorem State.startWait_eccG (s : State) (cl slot : Nat) (w : Wait) : (s.startWait cl slot w).eccG = s.eccG := rfl
@[simp] theorem State.startWait_bad (s : State) (cl slot : Nat) (w : Wait) : (s.startWait cl slot w).bad = s.bad := rfl
@[simp] theorem State.startWait_away (s : State) (cl slot : Nat) (w : Wait) : (s.startWait cl slot w).away = s.away := rfl
@[simp] theorem State.startWait_cur (s : State) (cl slot : Nat) (w : Wait) : (s.startWait cl slot w).cur = s.cur := rfl
@[simp] theorem State.startWait_agenda (s : State) (cl slot : Nat) (w : Wait) : (s.startWait cl slot w).agenda = s.agenda := rfl
@[simp] theorem State.startWait_auto (s : State) (cl slot : Nat) (w : Wait) : (s.startWait cl slot w).auto = s.auto := rfl
@[simp] theorem State.startWait_now (s : State) (cl slot : Nat) (w : Wait) : (s.startWait cl slot w).now = s.now := rfl
@[simp] theorem State.startWait_turn (s : State) (cl slot : Nat) (w : Wait) : (s.startWait cl slot w).turn = s.turn := rfl
@[simp] theorem State.startWait_seq (s : State) (cl slot : Nat) (w : Wait) : (s.startWait cl slot w).seq = s.seq := rfl
@[simp] theorem State.startWait_free (s : State) (cl slot : Nat) (w : Wait) : (s.startWait cl slot w).free = s.free := rfl

@[simp] theorem State.enter_time (s : State) (t : Thread) (b : Bundle) : (s.enter t b).time = s.time := rfl
@[simp] theorem State.enter_pkgid (s : State) (t : Thread) (b : Bundle) : (s.enter t b).pkgid = s.pkgid := rfl
@[simp] theorem State.enter_netId (s : State) (t : Thread) (b : Bundle) : (s.enter t b).netId = s.netId := rfl
@[simp] theorem State.enter_iface (s : State) (t : Thread) (b : Bundle) : (s.enter t b).iface = s.iface := rfl
@[simp] theorem State.enter_bootstat (s : State) (t : Thread) (b : Bundle) : (s.enter t b).bootstat = s.bootstat := rfl
@[simp] theorem State.enter_hostmem (s : State) (t : Thread) (b : Bundle) : (s.enter t b).hostmem = s.hostmem := rfl
@[simp] theorem State.enter_hdmBase (s : State) (t : Thread) (b : Bundle) : (s.enter t b).hdmBase = s.hdmBase := rfl
@[simp] theorem State.enter_nbrlost (s : State) (t : Thread) (b : Bundle) : (s.enter t b).nbrlost = s.nbrlost := rfl
@[simp] theorem State.enter_nbrvec (s : State) (t : Thread) (b : Bundle) : (s.enter t b).nbrvec = s.nbrvec := rfl
@[simp] theorem State.enter_rcmd (s : State) (t : Thread) (b : Bundle) : (s.enter t b).rcmd = s.rcmd := rfl
@[simp] theorem State.enter_rstat (s : State) (t : Thread) (b : Bundle) : (s.enter t b).rstat = s.rstat := rfl
@[simp] theorem State.enter_ccmdDesc (s : State) (t : Thread) (b : Bundle) : (s.enter t b).ccmdDesc = s.ccmdDesc := rfl
@[simp] theorem State.enter_ccmd (s : State) (t : Thread) (b : Bundle) : (s.enter t b).ccmd = s.ccmd := rfl
@[simp] theorem State.enter_bcmdDesc (s : State) (t : Thread) (b : Bundle) : (s.enter t b).bcmdDesc = s.bcmdDesc := rfl
@[simp] theorem State.enter_bcmd (s : State) (t : Thread) (b : Bundle) : (s.enter t b).bcmd = s.bcmd := rfl
@[simp] theorem State.enter_mbcmd (s : State) (t : Thread) (b : Bundle) : (s.enter t b).mbcmd = s.mbcmd := rfl
@[simp] theorem State.enter_mbstat (s : State) (t : Thread) (b : Bundle) : (s.enter t b).mbstat = s.mbstat := rfl
@[simp] theorem State.enter_rollback (s : State) (t : Thread) (b : Bundle) : (s.enter t b).rollback = s.rollback := rfl
@[simp] theorem State.enter_firmware (s : State) (t : Thread) (b : Bundle) : (s.enter t b).firmware = s.firmware := rfl
@[simp] theorem State.enter_fwDigest (s : State) (t : Thread) (b : Bundle) : (s.enter t b).fwDigest = s.fwDigest := rfl
@[simp] theorem State.enter_fusedKey (s : State) (t : Thread) (b : Bundle) : (s.enter t b).fusedKey = s.fusedKey := rfl
@[simp] theorem State.enter_attestUsed (s : State) (t : Thread) (b : Bundle) : (s.enter t b).attestUsed = s.attestUsed := rfl
@[simp] theorem State.enter_kemSeed (s : State) (t : Thread) (b : Bundle) : (s.enter t b).kemSeed = s.kemSeed := rfl
@[simp] theorem State.enter_badPhys (s : State) (t : Thread) (b : Bundle) : (s.enter t b).badPhys = s.badPhys := rfl
@[simp] theorem State.enter_entries (s : State) (t : Thread) (b : Bundle) : (s.enter t b).entries = s.entries := rfl
@[simp] theorem State.enter_heldOf (s : State) (t : Thread) (b : Bundle) : (s.enter t b).heldOf = s.heldOf := rfl
@[simp] theorem State.enter_heldSpawn (s : State) (t : Thread) (b : Bundle) : (s.enter t b).heldSpawn = s.heldSpawn := rfl
@[simp] theorem State.enter_heldSig (s : State) (t : Thread) (b : Bundle) : (s.enter t b).heldSig = s.heldSig := rfl
@[simp] theorem State.enter_txBad (s : State) (t : Thread) (b : Bundle) : (s.enter t b).txBad = s.txBad := rfl
@[simp] theorem State.enter_inbuf (s : State) (t : Thread) (b : Bundle) : (s.enter t b).inbuf = s.inbuf := rfl
@[simp] theorem State.enter_loop (s : State) (t : Thread) (b : Bundle) : (s.enter t b).loop = s.loop := rfl
@[simp] theorem State.enter_landing (s : State) (t : Thread) (b : Bundle) : (s.enter t b).landing = s.landing := rfl
@[simp] theorem State.enter_refreshed (s : State) (t : Thread) (b : Bundle) : (s.enter t b).refreshed = s.refreshed := rfl
@[simp] theorem State.enter_msc (s : State) (t : Thread) (b : Bundle) : (s.enter t b).msc = s.msc := rfl
@[simp] theorem State.enter_quiet (s : State) (t : Thread) (b : Bundle) : (s.enter t b).quiet = s.quiet := rfl
@[simp] theorem State.enter_teardowns (s : State) (t : Thread) (b : Bundle) : (s.enter t b).teardowns = s.teardowns := rfl
@[simp] theorem State.enter_hostBad (s : State) (t : Thread) (b : Bundle) : (s.enter t b).hostBad = s.hostBad := rfl
@[simp] theorem State.enter_clmap (s : State) (t : Thread) (b : Bundle) : (s.enter t b).clmap = s.clmap := rfl
@[simp] theorem State.enter_awaiting (s : State) (t : Thread) (b : Bundle) : (s.enter t b).awaiting = s.awaiting := rfl
@[simp] theorem State.enter_fusedBad (s : State) (t : Thread) (b : Bundle) : (s.enter t b).fusedBad = s.fusedBad := rfl
@[simp] theorem State.enter_fencedPhys (s : State) (t : Thread) (b : Bundle) : (s.enter t b).fencedPhys = s.fencedPhys := rfl
@[simp] theorem State.enter_fencedLog (s : State) (t : Thread) (b : Bundle) : (s.enter t b).fencedLog = s.fencedLog := rfl
@[simp] theorem State.enter_psn (s : State) (t : Thread) (b : Bundle) : (s.enter t b).psn = s.psn := rfl
@[simp] theorem State.enter_marked (s : State) (t : Thread) (b : Bundle) : (s.enter t b).marked = s.marked := rfl
@[simp] theorem State.enter_hostWBad (s : State) (t : Thread) (b : Bundle) : (s.enter t b).hostWBad = s.hostWBad := rfl
@[simp] theorem State.enter_eccFix (s : State) (t : Thread) (b : Bundle) : (s.enter t b).eccFix = s.eccFix := rfl
@[simp] theorem State.enter_tlb (s : State) (t : Thread) (b : Bundle) : (s.enter t b).tlb = s.tlb := rfl
@[simp] theorem State.enter_ckpts (s : State) (t : Thread) (b : Bundle) : (s.enter t b).ckpts = s.ckpts := rfl
@[simp] theorem State.enter_ckJobs (s : State) (t : Thread) (b : Bundle) : (s.enter t b).ckJobs = s.ckJobs := rfl
@[simp] theorem State.enter_hbm (s : State) (t : Thread) (b : Bundle) : (s.enter t b).hbm = s.hbm := rfl
@[simp] theorem State.enter_lineKey (s : State) (t : Thread) (b : Bundle) : (s.enter t b).lineKey = s.lineKey := rfl
@[simp] theorem State.enter_hostMem (s : State) (t : Thread) (b : Bundle) : (s.enter t b).hostMem = s.hostMem := rfl
@[simp] theorem State.enter_regions (s : State) (t : Thread) (b : Bundle) : (s.enter t b).regions = s.regions := rfl
@[simp] theorem State.enter_frames (s : State) (t : Thread) (b : Bundle) : (s.enter t b).frames = s.frames := rfl
@[simp] theorem State.enter_threads (s : State) (t : Thread) (b : Bundle) : (s.enter t b).threads = s.threads := rfl
@[simp] theorem State.enter_phys (s : State) (t : Thread) (b : Bundle) : (s.enter t b).phys = s.phys := rfl
@[simp] theorem State.enter_pairs (s : State) (t : Thread) (b : Bundle) : (s.enter t b).pairs = s.pairs := rfl
@[simp] theorem State.enter_clus (s : State) (t : Thread) (b : Bundle) : (s.enter t b).clus = s.clus := rfl
@[simp] theorem State.enter_dies (s : State) (t : Thread) (b : Bundle) : (s.enter t b).dies = s.dies := rfl
@[simp] theorem State.enter_keys (s : State) (t : Thread) (b : Bundle) : (s.enter t b).keys = s.keys := rfl
@[simp] theorem State.enter_lanes (s : State) (t : Thread) (b : Bundle) : (s.enter t b).lanes = s.lanes := rfl
@[simp] theorem State.enter_cmds (s : State) (t : Thread) (b : Bundle) : (s.enter t b).cmds = s.cmds := rfl
@[simp] theorem State.enter_acts (s : State) (t : Thread) (b : Bundle) : (s.enter t b).acts = s.acts := rfl
@[simp] theorem State.enter_streams (s : State) (t : Thread) (b : Bundle) : (s.enter t b).streams = s.streams := rfl
@[simp] theorem State.enter_eports (s : State) (t : Thread) (b : Bundle) : (s.enter t b).eports = s.eports := rfl
@[simp] theorem State.enter_msixTable (s : State) (t : Thread) (b : Bundle) : (s.enter t b).msixTable = s.msixTable := rfl
@[simp] theorem State.enter_msixPend (s : State) (t : Thread) (b : Bundle) : (s.enter t b).msixPend = s.msixPend := rfl
@[simp] theorem State.enter_hostWrites (s : State) (t : Thread) (b : Bundle) : (s.enter t b).hostWrites = s.hostWrites := rfl
@[simp] theorem State.enter_seen (s : State) (t : Thread) (b : Bundle) : (s.enter t b).seen = s.seen := rfl
@[simp] theorem State.enter_settled (s : State) (t : Thread) (b : Bundle) : (s.enter t b).settled = s.settled := rfl
@[simp] theorem State.enter_rows (s : State) (t : Thread) (b : Bundle) : (s.enter t b).rows = s.rows := rfl
@[simp] theorem State.enter_deferred (s : State) (t : Thread) (b : Bundle) : (s.enter t b).deferred = s.deferred := rfl
@[simp] theorem State.enter_hostOut (s : State) (t : Thread) (b : Bundle) : (s.enter t b).hostOut = s.hostOut := rfl
@[simp] theorem State.enter_eccG (s : State) (t : Thread) (b : Bundle) : (s.enter t b).eccG = s.eccG := rfl
@[simp] theorem State.enter_bad (s : State) (t : Thread) (b : Bundle) : (s.enter t b).bad = s.bad := rfl
@[simp] theorem State.enter_away (s : State) (t : Thread) (b : Bundle) : (s.enter t b).away = s.away := rfl
@[simp] theorem State.enter_agenda (s : State) (t : Thread) (b : Bundle) : (s.enter t b).agenda = s.agenda := rfl
@[simp] theorem State.enter_auto (s : State) (t : Thread) (b : Bundle) : (s.enter t b).auto = s.auto := rfl
@[simp] theorem State.enter_now (s : State) (t : Thread) (b : Bundle) : (s.enter t b).now = s.now := rfl
@[simp] theorem State.enter_turn (s : State) (t : Thread) (b : Bundle) : (s.enter t b).turn = s.turn := rfl
@[simp] theorem State.enter_seq (s : State) (t : Thread) (b : Bundle) : (s.enter t b).seq = s.seq := rfl
@[simp] theorem State.enter_free (s : State) (t : Thread) (b : Bundle) : (s.enter t b).free = s.free := rfl

@[simp] theorem Thread.setG_cl (t : Thread) (r : Nat) (v : Word) : (t.setG r v).cl = t.cl := by unfold Thread.setG; split <;> rfl
@[simp] theorem Thread.setG_slot (t : Thread) (r : Nat) (v : Word) : (t.setG r v).slot = t.slot := by unfold Thread.setG; split <;> rfl
@[simp] theorem Thread.setG_rgn (t : Thread) (r : Nat) (v : Word) : (t.setG r v).rgn = t.rgn := by unfold Thread.setG; split <;> rfl
@[simp] theorem Thread.setG_knum (t : Thread) (r : Nat) (v : Word) : (t.setG r v).knum = t.knum := by unfold Thread.setG; split <;> rfl
@[simp] theorem Thread.setG_pc (t : Thread) (r : Nat) (v : Word) : (t.setG r v).pc = t.pc := by unfold Thread.setG; split <;> rfl
@[simp] theorem Thread.setG_p (t : Thread) (r : Nat) (v : Word) : (t.setG r v).p = t.p := by unfold Thread.setG; split <;> rfl
@[simp] theorem Thread.setG_v (t : Thread) (r : Nat) (v : Word) : (t.setG r v).v = t.v := by unfold Thread.setG; split <;> rfl
@[simp] theorem Thread.setG_m (t : Thread) (r : Nat) (v : Word) : (t.setG r v).m = t.m := by unfold Thread.setG; split <;> rfl
@[simp] theorem Thread.setG_key (t : Thread) (r : Nat) (v : Word) : (t.setG r v).key = t.key := by unfold Thread.setG; split <;> rfl
@[simp] theorem Thread.setG_ctr (t : Thread) (r : Nat) (v : Word) : (t.setG r v).ctr = t.ctr := by unfold Thread.setG; split <;> rfl
@[simp] theorem Thread.setG_prio (t : Thread) (r : Nat) (v : Word) : (t.setG r v).prio = t.prio := by unfold Thread.setG; split <;> rfl
@[simp] theorem Thread.setG_vtype (t : Thread) (r : Nat) (v : Word) : (t.setG r v).vtype = t.vtype := by unfold Thread.setG; split <;> rfl
@[simp] theorem Thread.setG_grp (t : Thread) (r : Nat) (v : Word) : (t.setG r v).grp = t.grp := by unfold Thread.setG; split <;> rfl
@[simp] theorem Thread.setG_vl (t : Thread) (r : Nat) (v : Word) : (t.setG r v).vl = t.vl := by unfold Thread.setG; split <;> rfl
@[simp] theorem Thread.setG_vfcsr (t : Thread) (r : Nat) (v : Word) : (t.setG r v).vfcsr = t.vfcsr := by unfold Thread.setG; split <;> rfl
@[simp] theorem Thread.setG_pendG (t : Thread) (r : Nat) (v : Word) : (t.setG r v).pendG = t.pendG := by unfold Thread.setG; split <;> rfl
@[simp] theorem Thread.setG_pendP (t : Thread) (r : Nat) (v : Word) : (t.setG r v).pendP = t.pendP := by unfold Thread.setG; split <;> rfl
@[simp] theorem Thread.setG_swlim (t : Thread) (r : Nat) (v : Word) : (t.setG r v).swlim = t.swlim := by unfold Thread.setG; split <;> rfl
@[simp] theorem Thread.setG_spwlim (t : Thread) (r : Nat) (v : Word) : (t.setG r v).spwlim = t.spwlim := by unfold Thread.setG; split <;> rfl
@[simp] theorem Thread.setG_wcode (t : Thread) (r : Nat) (v : Word) : (t.setG r v).wcode = t.wcode := by unfold Thread.setG; split <;> rfl
@[simp] theorem Thread.setG_fpcnt (t : Thread) (r : Nat) (v : Word) : (t.setG r v).fpcnt = t.fpcnt := by unfold Thread.setG; split <;> rfl
@[simp] theorem Thread.setG_fpAt (t : Thread) (r : Nat) (v : Word) : (t.setG r v).fpAt = t.fpAt := by unfold Thread.setG; split <;> rfl
@[simp] theorem Thread.setG_fpPaths (t : Thread) (r : Nat) (v : Word) : (t.setG r v).fpPaths = t.fpPaths := by unfold Thread.setG; split <;> rfl
@[simp] theorem Thread.setG_errFab (t : Thread) (r : Nat) (v : Word) : (t.setG r v).errFab = t.errFab := by unfold Thread.setG; split <;> rfl
@[simp] theorem Thread.setG_errMem (t : Thread) (r : Nat) (v : Word) : (t.setG r v).errMem = t.errMem := by unfold Thread.setG; split <;> rfl
@[simp] theorem Thread.setG_barph (t : Thread) (r : Nat) (v : Word) : (t.setG r v).barph = t.barph := by unfold Thread.setG; split <;> rfl
@[simp] theorem Thread.setG_bsarr (t : Thread) (r : Nat) (v : Word) : (t.setG r v).bsarr = t.bsarr := by unfold Thread.setG; split <;> rfl
@[simp] theorem Thread.setG_allot (t : Thread) (r : Nat) (v : Word) : (t.setG r v).allot = t.allot := by unfold Thread.setG; split <;> rfl
@[simp] theorem Thread.setG_join (t : Thread) (r : Nat) (v : Word) : (t.setG r v).join = t.join := by unfold Thread.setG; split <;> rfl
@[simp] theorem Thread.setG_wait (t : Thread) (r : Nat) (v : Word) : (t.setG r v).wait = t.wait := by unfold Thread.setG; split <;> rfl
@[simp] theorem Thread.setG_marker (t : Thread) (r : Nat) (v : Word) : (t.setG r v).marker = t.marker := by unfold Thread.setG; split <;> rfl
@[simp] theorem Thread.setG_w (t : Thread) (r : Nat) (v : Word) : (t.setG r v).w = t.w := by unfold Thread.setG; split <;> rfl
@[simp] theorem Thread.setG_launch (t : Thread) (r : Nat) (v : Word) : (t.setG r v).launch = t.launch := by unfold Thread.setG; split <;> rfl
@[simp] theorem Thread.setG_nextIssue (t : Thread) (r : Nat) (v : Word) : (t.setG r v).nextIssue = t.nextIssue := by unfold Thread.setG; split <;> rfl
@[simp] theorem Thread.setG_prev (t : Thread) (r : Nat) (v : Word) : (t.setG r v).prev = t.prev := by unfold Thread.setG; split <;> rfl
@[simp] theorem Thread.setG_ipc (t : Thread) (r : Nat) (v : Word) : (t.setG r v).ipc = t.ipc := by unfold Thread.setG; split <;> rfl
@[simp] theorem Thread.setG_isolo (t : Thread) (r : Nat) (v : Word) : (t.setG r v).isolo = t.isolo := by unfold Thread.setG; split <;> rfl
@[simp] theorem Thread.setG_soloC (t : Thread) (r : Nat) (v : Word) : (t.setG r v).soloC = t.soloC := by unfold Thread.setG; split <;> rfl
@[simp] theorem Thread.setG_acq (t : Thread) (r : Nat) (v : Word) : (t.setG r v).acq = t.acq := by unfold Thread.setG; split <;> rfl
@[simp] theorem Thread.setG_late (t : Thread) (r : Nat) (v : Word) : (t.setG r v).late = t.late := by unfold Thread.setG; split <;> rfl
@[simp] theorem Thread.setG_replay (t : Thread) (r : Nat) (v : Word) : (t.setG r v).replay = t.replay := by unfold Thread.setG; split <;> rfl
@[simp] theorem Thread.setG_vstop (t : Thread) (r : Nat) (v : Word) : (t.setG r v).vstop = t.vstop := by unfold Thread.setG; split <;> rfl
@[simp] theorem Thread.setG_seqs (t : Thread) (r : Nat) (v : Word) : (t.setG r v).seqs = t.seqs := by unfold Thread.setG; split <;> rfl
@[simp] theorem Thread.setG_pre (t : Thread) (r : Nat) (v : Word) : (t.setG r v).pre = t.pre := by unfold Thread.setG; split <;> rfl
@[simp] theorem Thread.setG_left (t : Thread) (r : Nat) (v : Word) : (t.setG r v).left = t.left := by unfold Thread.setG; split <;> rfl

@[simp] theorem Thread.setP_cl (t : Thread) (k : Nat) (b : Bool) : (t.setP k b).cl = t.cl := rfl
@[simp] theorem Thread.setP_slot (t : Thread) (k : Nat) (b : Bool) : (t.setP k b).slot = t.slot := rfl
@[simp] theorem Thread.setP_rgn (t : Thread) (k : Nat) (b : Bool) : (t.setP k b).rgn = t.rgn := rfl
@[simp] theorem Thread.setP_knum (t : Thread) (k : Nat) (b : Bool) : (t.setP k b).knum = t.knum := rfl
@[simp] theorem Thread.setP_pc (t : Thread) (k : Nat) (b : Bool) : (t.setP k b).pc = t.pc := rfl
@[simp] theorem Thread.setP_g (t : Thread) (k : Nat) (b : Bool) : (t.setP k b).g = t.g := rfl
@[simp] theorem Thread.setP_v (t : Thread) (k : Nat) (b : Bool) : (t.setP k b).v = t.v := rfl
@[simp] theorem Thread.setP_m (t : Thread) (k : Nat) (b : Bool) : (t.setP k b).m = t.m := rfl
@[simp] theorem Thread.setP_key (t : Thread) (k : Nat) (b : Bool) : (t.setP k b).key = t.key := rfl
@[simp] theorem Thread.setP_ctr (t : Thread) (k : Nat) (b : Bool) : (t.setP k b).ctr = t.ctr := rfl
@[simp] theorem Thread.setP_prio (t : Thread) (k : Nat) (b : Bool) : (t.setP k b).prio = t.prio := rfl
@[simp] theorem Thread.setP_vtype (t : Thread) (k : Nat) (b : Bool) : (t.setP k b).vtype = t.vtype := rfl
@[simp] theorem Thread.setP_grp (t : Thread) (k : Nat) (b : Bool) : (t.setP k b).grp = t.grp := rfl
@[simp] theorem Thread.setP_vl (t : Thread) (k : Nat) (b : Bool) : (t.setP k b).vl = t.vl := rfl
@[simp] theorem Thread.setP_vfcsr (t : Thread) (k : Nat) (b : Bool) : (t.setP k b).vfcsr = t.vfcsr := rfl
@[simp] theorem Thread.setP_pendG (t : Thread) (k : Nat) (b : Bool) : (t.setP k b).pendG = t.pendG := rfl
@[simp] theorem Thread.setP_pendP (t : Thread) (k : Nat) (b : Bool) : (t.setP k b).pendP = t.pendP := rfl
@[simp] theorem Thread.setP_swlim (t : Thread) (k : Nat) (b : Bool) : (t.setP k b).swlim = t.swlim := rfl
@[simp] theorem Thread.setP_spwlim (t : Thread) (k : Nat) (b : Bool) : (t.setP k b).spwlim = t.spwlim := rfl
@[simp] theorem Thread.setP_wcode (t : Thread) (k : Nat) (b : Bool) : (t.setP k b).wcode = t.wcode := rfl
@[simp] theorem Thread.setP_fpcnt (t : Thread) (k : Nat) (b : Bool) : (t.setP k b).fpcnt = t.fpcnt := rfl
@[simp] theorem Thread.setP_fpAt (t : Thread) (k : Nat) (b : Bool) : (t.setP k b).fpAt = t.fpAt := rfl
@[simp] theorem Thread.setP_fpPaths (t : Thread) (k : Nat) (b : Bool) : (t.setP k b).fpPaths = t.fpPaths := rfl
@[simp] theorem Thread.setP_errFab (t : Thread) (k : Nat) (b : Bool) : (t.setP k b).errFab = t.errFab := rfl
@[simp] theorem Thread.setP_errMem (t : Thread) (k : Nat) (b : Bool) : (t.setP k b).errMem = t.errMem := rfl
@[simp] theorem Thread.setP_barph (t : Thread) (k : Nat) (b : Bool) : (t.setP k b).barph = t.barph := rfl
@[simp] theorem Thread.setP_bsarr (t : Thread) (k : Nat) (b : Bool) : (t.setP k b).bsarr = t.bsarr := rfl
@[simp] theorem Thread.setP_allot (t : Thread) (k : Nat) (b : Bool) : (t.setP k b).allot = t.allot := rfl
@[simp] theorem Thread.setP_join (t : Thread) (k : Nat) (b : Bool) : (t.setP k b).join = t.join := rfl
@[simp] theorem Thread.setP_wait (t : Thread) (k : Nat) (b : Bool) : (t.setP k b).wait = t.wait := rfl
@[simp] theorem Thread.setP_marker (t : Thread) (k : Nat) (b : Bool) : (t.setP k b).marker = t.marker := rfl
@[simp] theorem Thread.setP_w (t : Thread) (k : Nat) (b : Bool) : (t.setP k b).w = t.w := rfl
@[simp] theorem Thread.setP_launch (t : Thread) (k : Nat) (b : Bool) : (t.setP k b).launch = t.launch := rfl
@[simp] theorem Thread.setP_nextIssue (t : Thread) (k : Nat) (b : Bool) : (t.setP k b).nextIssue = t.nextIssue := rfl
@[simp] theorem Thread.setP_prev (t : Thread) (k : Nat) (b : Bool) : (t.setP k b).prev = t.prev := rfl
@[simp] theorem Thread.setP_ipc (t : Thread) (k : Nat) (b : Bool) : (t.setP k b).ipc = t.ipc := rfl
@[simp] theorem Thread.setP_isolo (t : Thread) (k : Nat) (b : Bool) : (t.setP k b).isolo = t.isolo := rfl
@[simp] theorem Thread.setP_soloC (t : Thread) (k : Nat) (b : Bool) : (t.setP k b).soloC = t.soloC := rfl
@[simp] theorem Thread.setP_acq (t : Thread) (k : Nat) (b : Bool) : (t.setP k b).acq = t.acq := rfl
@[simp] theorem Thread.setP_late (t : Thread) (k : Nat) (b : Bool) : (t.setP k b).late = t.late := rfl
@[simp] theorem Thread.setP_replay (t : Thread) (k : Nat) (b : Bool) : (t.setP k b).replay = t.replay := rfl
@[simp] theorem Thread.setP_vstop (t : Thread) (k : Nat) (b : Bool) : (t.setP k b).vstop = t.vstop := rfl
@[simp] theorem Thread.setP_seqs (t : Thread) (k : Nat) (b : Bool) : (t.setP k b).seqs = t.seqs := rfl
@[simp] theorem Thread.setP_pre (t : Thread) (k : Nat) (b : Bool) : (t.setP k b).pre = t.pre := rfl
@[simp] theorem Thread.setP_left (t : Thread) (k : Nat) (b : Bool) : (t.setP k b).left = t.left := rfl

@[simp] theorem Thread.pend_cl (t : Thread) (d : Dst) : (t.pend d).cl = t.cl := by cases d <;> simp only [Thread.pend] <;> (try split) <;> rfl
@[simp] theorem Thread.pend_slot (t : Thread) (d : Dst) : (t.pend d).slot = t.slot := by cases d <;> simp only [Thread.pend] <;> (try split) <;> rfl
@[simp] theorem Thread.pend_rgn (t : Thread) (d : Dst) : (t.pend d).rgn = t.rgn := by cases d <;> simp only [Thread.pend] <;> (try split) <;> rfl
@[simp] theorem Thread.pend_knum (t : Thread) (d : Dst) : (t.pend d).knum = t.knum := by cases d <;> simp only [Thread.pend] <;> (try split) <;> rfl
@[simp] theorem Thread.pend_pc (t : Thread) (d : Dst) : (t.pend d).pc = t.pc := by cases d <;> simp only [Thread.pend] <;> (try split) <;> rfl
@[simp] theorem Thread.pend_g (t : Thread) (d : Dst) : (t.pend d).g = t.g := by cases d <;> simp only [Thread.pend] <;> (try split) <;> rfl
@[simp] theorem Thread.pend_p (t : Thread) (d : Dst) : (t.pend d).p = t.p := by cases d <;> simp only [Thread.pend] <;> (try split) <;> rfl
@[simp] theorem Thread.pend_v (t : Thread) (d : Dst) : (t.pend d).v = t.v := by cases d <;> simp only [Thread.pend] <;> (try split) <;> rfl
@[simp] theorem Thread.pend_m (t : Thread) (d : Dst) : (t.pend d).m = t.m := by cases d <;> simp only [Thread.pend] <;> (try split) <;> rfl
@[simp] theorem Thread.pend_key (t : Thread) (d : Dst) : (t.pend d).key = t.key := by cases d <;> simp only [Thread.pend] <;> (try split) <;> rfl
@[simp] theorem Thread.pend_ctr (t : Thread) (d : Dst) : (t.pend d).ctr = t.ctr := by cases d <;> simp only [Thread.pend] <;> (try split) <;> rfl
@[simp] theorem Thread.pend_prio (t : Thread) (d : Dst) : (t.pend d).prio = t.prio := by cases d <;> simp only [Thread.pend] <;> (try split) <;> rfl
@[simp] theorem Thread.pend_vtype (t : Thread) (d : Dst) : (t.pend d).vtype = t.vtype := by cases d <;> simp only [Thread.pend] <;> (try split) <;> rfl
@[simp] theorem Thread.pend_grp (t : Thread) (d : Dst) : (t.pend d).grp = t.grp := by cases d <;> simp only [Thread.pend] <;> (try split) <;> rfl
@[simp] theorem Thread.pend_vl (t : Thread) (d : Dst) : (t.pend d).vl = t.vl := by cases d <;> simp only [Thread.pend] <;> (try split) <;> rfl
@[simp] theorem Thread.pend_vfcsr (t : Thread) (d : Dst) : (t.pend d).vfcsr = t.vfcsr := by cases d <;> simp only [Thread.pend] <;> (try split) <;> rfl
@[simp] theorem Thread.pend_swlim (t : Thread) (d : Dst) : (t.pend d).swlim = t.swlim := by cases d <;> simp only [Thread.pend] <;> (try split) <;> rfl
@[simp] theorem Thread.pend_spwlim (t : Thread) (d : Dst) : (t.pend d).spwlim = t.spwlim := by cases d <;> simp only [Thread.pend] <;> (try split) <;> rfl
@[simp] theorem Thread.pend_wcode (t : Thread) (d : Dst) : (t.pend d).wcode = t.wcode := by cases d <;> simp only [Thread.pend] <;> (try split) <;> rfl
@[simp] theorem Thread.pend_fpcnt (t : Thread) (d : Dst) : (t.pend d).fpcnt = t.fpcnt := by cases d <;> simp only [Thread.pend] <;> (try split) <;> rfl
@[simp] theorem Thread.pend_fpAt (t : Thread) (d : Dst) : (t.pend d).fpAt = t.fpAt := by cases d <;> simp only [Thread.pend] <;> (try split) <;> rfl
@[simp] theorem Thread.pend_fpPaths (t : Thread) (d : Dst) : (t.pend d).fpPaths = t.fpPaths := by cases d <;> simp only [Thread.pend] <;> (try split) <;> rfl
@[simp] theorem Thread.pend_errFab (t : Thread) (d : Dst) : (t.pend d).errFab = t.errFab := by cases d <;> simp only [Thread.pend] <;> (try split) <;> rfl
@[simp] theorem Thread.pend_errMem (t : Thread) (d : Dst) : (t.pend d).errMem = t.errMem := by cases d <;> simp only [Thread.pend] <;> (try split) <;> rfl
@[simp] theorem Thread.pend_barph (t : Thread) (d : Dst) : (t.pend d).barph = t.barph := by cases d <;> simp only [Thread.pend] <;> (try split) <;> rfl
@[simp] theorem Thread.pend_bsarr (t : Thread) (d : Dst) : (t.pend d).bsarr = t.bsarr := by cases d <;> simp only [Thread.pend] <;> (try split) <;> rfl
@[simp] theorem Thread.pend_allot (t : Thread) (d : Dst) : (t.pend d).allot = t.allot := by cases d <;> simp only [Thread.pend] <;> (try split) <;> rfl
@[simp] theorem Thread.pend_join (t : Thread) (d : Dst) : (t.pend d).join = t.join := by cases d <;> simp only [Thread.pend] <;> (try split) <;> rfl
@[simp] theorem Thread.pend_wait (t : Thread) (d : Dst) : (t.pend d).wait = t.wait := by cases d <;> simp only [Thread.pend] <;> (try split) <;> rfl
@[simp] theorem Thread.pend_marker (t : Thread) (d : Dst) : (t.pend d).marker = t.marker := by cases d <;> simp only [Thread.pend] <;> (try split) <;> rfl
@[simp] theorem Thread.pend_w (t : Thread) (d : Dst) : (t.pend d).w = t.w := by cases d <;> simp only [Thread.pend] <;> (try split) <;> rfl
@[simp] theorem Thread.pend_launch (t : Thread) (d : Dst) : (t.pend d).launch = t.launch := by cases d <;> simp only [Thread.pend] <;> (try split) <;> rfl
@[simp] theorem Thread.pend_nextIssue (t : Thread) (d : Dst) : (t.pend d).nextIssue = t.nextIssue := by cases d <;> simp only [Thread.pend] <;> (try split) <;> rfl
@[simp] theorem Thread.pend_prev (t : Thread) (d : Dst) : (t.pend d).prev = t.prev := by cases d <;> simp only [Thread.pend] <;> (try split) <;> rfl
@[simp] theorem Thread.pend_ipc (t : Thread) (d : Dst) : (t.pend d).ipc = t.ipc := by cases d <;> simp only [Thread.pend] <;> (try split) <;> rfl
@[simp] theorem Thread.pend_isolo (t : Thread) (d : Dst) : (t.pend d).isolo = t.isolo := by cases d <;> simp only [Thread.pend] <;> (try split) <;> rfl
@[simp] theorem Thread.pend_soloC (t : Thread) (d : Dst) : (t.pend d).soloC = t.soloC := by cases d <;> simp only [Thread.pend] <;> (try split) <;> rfl
@[simp] theorem Thread.pend_acq (t : Thread) (d : Dst) : (t.pend d).acq = t.acq := by cases d <;> simp only [Thread.pend] <;> (try split) <;> rfl
@[simp] theorem Thread.pend_late (t : Thread) (d : Dst) : (t.pend d).late = t.late := by cases d <;> simp only [Thread.pend] <;> (try split) <;> rfl
@[simp] theorem Thread.pend_replay (t : Thread) (d : Dst) : (t.pend d).replay = t.replay := by cases d <;> simp only [Thread.pend] <;> (try split) <;> rfl
@[simp] theorem Thread.pend_vstop (t : Thread) (d : Dst) : (t.pend d).vstop = t.vstop := by cases d <;> simp only [Thread.pend] <;> (try split) <;> rfl
@[simp] theorem Thread.pend_seqs (t : Thread) (d : Dst) : (t.pend d).seqs = t.seqs := by cases d <;> simp only [Thread.pend] <;> (try split) <;> rfl
@[simp] theorem Thread.pend_pre (t : Thread) (d : Dst) : (t.pend d).pre = t.pre := by cases d <;> simp only [Thread.pend] <;> (try split) <;> rfl
@[simp] theorem Thread.pend_left (t : Thread) (d : Dst) : (t.pend d).left = t.left := by cases d <;> simp only [Thread.pend] <;> (try split) <;> rfl

@[simp] theorem Thread.unpend_cl (t : Thread) (d : Dst) : (t.unpend d).cl = t.cl := by cases d <;> simp only [Thread.unpend] <;> (try split) <;> rfl
@[simp] theorem Thread.unpend_slot (t : Thread) (d : Dst) : (t.unpend d).slot = t.slot := by cases d <;> simp only [Thread.unpend] <;> (try split) <;> rfl
@[simp] theorem Thread.unpend_rgn (t : Thread) (d : Dst) : (t.unpend d).rgn = t.rgn := by cases d <;> simp only [Thread.unpend] <;> (try split) <;> rfl
@[simp] theorem Thread.unpend_knum (t : Thread) (d : Dst) : (t.unpend d).knum = t.knum := by cases d <;> simp only [Thread.unpend] <;> (try split) <;> rfl
@[simp] theorem Thread.unpend_pc (t : Thread) (d : Dst) : (t.unpend d).pc = t.pc := by cases d <;> simp only [Thread.unpend] <;> (try split) <;> rfl
@[simp] theorem Thread.unpend_g (t : Thread) (d : Dst) : (t.unpend d).g = t.g := by cases d <;> simp only [Thread.unpend] <;> (try split) <;> rfl
@[simp] theorem Thread.unpend_p (t : Thread) (d : Dst) : (t.unpend d).p = t.p := by cases d <;> simp only [Thread.unpend] <;> (try split) <;> rfl
@[simp] theorem Thread.unpend_v (t : Thread) (d : Dst) : (t.unpend d).v = t.v := by cases d <;> simp only [Thread.unpend] <;> (try split) <;> rfl
@[simp] theorem Thread.unpend_m (t : Thread) (d : Dst) : (t.unpend d).m = t.m := by cases d <;> simp only [Thread.unpend] <;> (try split) <;> rfl
@[simp] theorem Thread.unpend_key (t : Thread) (d : Dst) : (t.unpend d).key = t.key := by cases d <;> simp only [Thread.unpend] <;> (try split) <;> rfl
@[simp] theorem Thread.unpend_ctr (t : Thread) (d : Dst) : (t.unpend d).ctr = t.ctr := by cases d <;> simp only [Thread.unpend] <;> (try split) <;> rfl
@[simp] theorem Thread.unpend_prio (t : Thread) (d : Dst) : (t.unpend d).prio = t.prio := by cases d <;> simp only [Thread.unpend] <;> (try split) <;> rfl
@[simp] theorem Thread.unpend_vtype (t : Thread) (d : Dst) : (t.unpend d).vtype = t.vtype := by cases d <;> simp only [Thread.unpend] <;> (try split) <;> rfl
@[simp] theorem Thread.unpend_grp (t : Thread) (d : Dst) : (t.unpend d).grp = t.grp := by cases d <;> simp only [Thread.unpend] <;> (try split) <;> rfl
@[simp] theorem Thread.unpend_vl (t : Thread) (d : Dst) : (t.unpend d).vl = t.vl := by cases d <;> simp only [Thread.unpend] <;> (try split) <;> rfl
@[simp] theorem Thread.unpend_vfcsr (t : Thread) (d : Dst) : (t.unpend d).vfcsr = t.vfcsr := by cases d <;> simp only [Thread.unpend] <;> (try split) <;> rfl
@[simp] theorem Thread.unpend_swlim (t : Thread) (d : Dst) : (t.unpend d).swlim = t.swlim := by cases d <;> simp only [Thread.unpend] <;> (try split) <;> rfl
@[simp] theorem Thread.unpend_spwlim (t : Thread) (d : Dst) : (t.unpend d).spwlim = t.spwlim := by cases d <;> simp only [Thread.unpend] <;> (try split) <;> rfl
@[simp] theorem Thread.unpend_wcode (t : Thread) (d : Dst) : (t.unpend d).wcode = t.wcode := by cases d <;> simp only [Thread.unpend] <;> (try split) <;> rfl
@[simp] theorem Thread.unpend_fpcnt (t : Thread) (d : Dst) : (t.unpend d).fpcnt = t.fpcnt := by cases d <;> simp only [Thread.unpend] <;> (try split) <;> rfl
@[simp] theorem Thread.unpend_fpAt (t : Thread) (d : Dst) : (t.unpend d).fpAt = t.fpAt := by cases d <;> simp only [Thread.unpend] <;> (try split) <;> rfl
@[simp] theorem Thread.unpend_fpPaths (t : Thread) (d : Dst) : (t.unpend d).fpPaths = t.fpPaths := by cases d <;> simp only [Thread.unpend] <;> (try split) <;> rfl
@[simp] theorem Thread.unpend_errFab (t : Thread) (d : Dst) : (t.unpend d).errFab = t.errFab := by cases d <;> simp only [Thread.unpend] <;> (try split) <;> rfl
@[simp] theorem Thread.unpend_errMem (t : Thread) (d : Dst) : (t.unpend d).errMem = t.errMem := by cases d <;> simp only [Thread.unpend] <;> (try split) <;> rfl
@[simp] theorem Thread.unpend_barph (t : Thread) (d : Dst) : (t.unpend d).barph = t.barph := by cases d <;> simp only [Thread.unpend] <;> (try split) <;> rfl
@[simp] theorem Thread.unpend_bsarr (t : Thread) (d : Dst) : (t.unpend d).bsarr = t.bsarr := by cases d <;> simp only [Thread.unpend] <;> (try split) <;> rfl
@[simp] theorem Thread.unpend_allot (t : Thread) (d : Dst) : (t.unpend d).allot = t.allot := by cases d <;> simp only [Thread.unpend] <;> (try split) <;> rfl
@[simp] theorem Thread.unpend_join (t : Thread) (d : Dst) : (t.unpend d).join = t.join := by cases d <;> simp only [Thread.unpend] <;> (try split) <;> rfl
@[simp] theorem Thread.unpend_wait (t : Thread) (d : Dst) : (t.unpend d).wait = t.wait := by cases d <;> simp only [Thread.unpend] <;> (try split) <;> rfl
@[simp] theorem Thread.unpend_marker (t : Thread) (d : Dst) : (t.unpend d).marker = t.marker := by cases d <;> simp only [Thread.unpend] <;> (try split) <;> rfl
@[simp] theorem Thread.unpend_w (t : Thread) (d : Dst) : (t.unpend d).w = t.w := by cases d <;> simp only [Thread.unpend] <;> (try split) <;> rfl
@[simp] theorem Thread.unpend_launch (t : Thread) (d : Dst) : (t.unpend d).launch = t.launch := by cases d <;> simp only [Thread.unpend] <;> (try split) <;> rfl
@[simp] theorem Thread.unpend_nextIssue (t : Thread) (d : Dst) : (t.unpend d).nextIssue = t.nextIssue := by cases d <;> simp only [Thread.unpend] <;> (try split) <;> rfl
@[simp] theorem Thread.unpend_prev (t : Thread) (d : Dst) : (t.unpend d).prev = t.prev := by cases d <;> simp only [Thread.unpend] <;> (try split) <;> rfl
@[simp] theorem Thread.unpend_ipc (t : Thread) (d : Dst) : (t.unpend d).ipc = t.ipc := by cases d <;> simp only [Thread.unpend] <;> (try split) <;> rfl
@[simp] theorem Thread.unpend_isolo (t : Thread) (d : Dst) : (t.unpend d).isolo = t.isolo := by cases d <;> simp only [Thread.unpend] <;> (try split) <;> rfl
@[simp] theorem Thread.unpend_soloC (t : Thread) (d : Dst) : (t.unpend d).soloC = t.soloC := by cases d <;> simp only [Thread.unpend] <;> (try split) <;> rfl
@[simp] theorem Thread.unpend_acq (t : Thread) (d : Dst) : (t.unpend d).acq = t.acq := by cases d <;> simp only [Thread.unpend] <;> (try split) <;> rfl
@[simp] theorem Thread.unpend_late (t : Thread) (d : Dst) : (t.unpend d).late = t.late := by cases d <;> simp only [Thread.unpend] <;> (try split) <;> rfl
@[simp] theorem Thread.unpend_replay (t : Thread) (d : Dst) : (t.unpend d).replay = t.replay := by cases d <;> simp only [Thread.unpend] <;> (try split) <;> rfl
@[simp] theorem Thread.unpend_vstop (t : Thread) (d : Dst) : (t.unpend d).vstop = t.vstop := by cases d <;> simp only [Thread.unpend] <;> (try split) <;> rfl
@[simp] theorem Thread.unpend_seqs (t : Thread) (d : Dst) : (t.unpend d).seqs = t.seqs := by cases d <;> simp only [Thread.unpend] <;> (try split) <;> rfl
@[simp] theorem Thread.unpend_pre (t : Thread) (d : Dst) : (t.unpend d).pre = t.pre := by cases d <;> simp only [Thread.unpend] <;> (try split) <;> rfl
@[simp] theorem Thread.unpend_left (t : Thread) (d : Dst) : (t.unpend d).left = t.left := by cases d <;> simp only [Thread.unpend] <;> (try split) <;> rfl

@[simp] theorem Thread.setM_cl (t : Thread) (k : Nat) (v : Mask) : (t.setM k v).cl = t.cl := by unfold Thread.setM; split <;> rfl
@[simp] theorem Thread.setM_slot (t : Thread) (k : Nat) (v : Mask) : (t.setM k v).slot = t.slot := by unfold Thread.setM; split <;> rfl
@[simp] theorem Thread.setM_rgn (t : Thread) (k : Nat) (v : Mask) : (t.setM k v).rgn = t.rgn := by unfold Thread.setM; split <;> rfl
@[simp] theorem Thread.setM_knum (t : Thread) (k : Nat) (v : Mask) : (t.setM k v).knum = t.knum := by unfold Thread.setM; split <;> rfl
@[simp] theorem Thread.setM_pc (t : Thread) (k : Nat) (v : Mask) : (t.setM k v).pc = t.pc := by unfold Thread.setM; split <;> rfl
@[simp] theorem Thread.setM_g (t : Thread) (k : Nat) (v : Mask) : (t.setM k v).g = t.g := by unfold Thread.setM; split <;> rfl
@[simp] theorem Thread.setM_p (t : Thread) (k : Nat) (v : Mask) : (t.setM k v).p = t.p := by unfold Thread.setM; split <;> rfl
@[simp] theorem Thread.setM_v (t : Thread) (k : Nat) (v : Mask) : (t.setM k v).v = t.v := by unfold Thread.setM; split <;> rfl
@[simp] theorem Thread.setM_key (t : Thread) (k : Nat) (v : Mask) : (t.setM k v).key = t.key := by unfold Thread.setM; split <;> rfl
@[simp] theorem Thread.setM_ctr (t : Thread) (k : Nat) (v : Mask) : (t.setM k v).ctr = t.ctr := by unfold Thread.setM; split <;> rfl
@[simp] theorem Thread.setM_prio (t : Thread) (k : Nat) (v : Mask) : (t.setM k v).prio = t.prio := by unfold Thread.setM; split <;> rfl
@[simp] theorem Thread.setM_vtype (t : Thread) (k : Nat) (v : Mask) : (t.setM k v).vtype = t.vtype := by unfold Thread.setM; split <;> rfl
@[simp] theorem Thread.setM_grp (t : Thread) (k : Nat) (v : Mask) : (t.setM k v).grp = t.grp := by unfold Thread.setM; split <;> rfl
@[simp] theorem Thread.setM_vl (t : Thread) (k : Nat) (v : Mask) : (t.setM k v).vl = t.vl := by unfold Thread.setM; split <;> rfl
@[simp] theorem Thread.setM_vfcsr (t : Thread) (k : Nat) (v : Mask) : (t.setM k v).vfcsr = t.vfcsr := by unfold Thread.setM; split <;> rfl
@[simp] theorem Thread.setM_pendG (t : Thread) (k : Nat) (v : Mask) : (t.setM k v).pendG = t.pendG := by unfold Thread.setM; split <;> rfl
@[simp] theorem Thread.setM_pendP (t : Thread) (k : Nat) (v : Mask) : (t.setM k v).pendP = t.pendP := by unfold Thread.setM; split <;> rfl
@[simp] theorem Thread.setM_swlim (t : Thread) (k : Nat) (v : Mask) : (t.setM k v).swlim = t.swlim := by unfold Thread.setM; split <;> rfl
@[simp] theorem Thread.setM_spwlim (t : Thread) (k : Nat) (v : Mask) : (t.setM k v).spwlim = t.spwlim := by unfold Thread.setM; split <;> rfl
@[simp] theorem Thread.setM_wcode (t : Thread) (k : Nat) (v : Mask) : (t.setM k v).wcode = t.wcode := by unfold Thread.setM; split <;> rfl
@[simp] theorem Thread.setM_fpcnt (t : Thread) (k : Nat) (v : Mask) : (t.setM k v).fpcnt = t.fpcnt := by unfold Thread.setM; split <;> rfl
@[simp] theorem Thread.setM_fpAt (t : Thread) (k : Nat) (v : Mask) : (t.setM k v).fpAt = t.fpAt := by unfold Thread.setM; split <;> rfl
@[simp] theorem Thread.setM_fpPaths (t : Thread) (k : Nat) (v : Mask) : (t.setM k v).fpPaths = t.fpPaths := by unfold Thread.setM; split <;> rfl
@[simp] theorem Thread.setM_errFab (t : Thread) (k : Nat) (v : Mask) : (t.setM k v).errFab = t.errFab := by unfold Thread.setM; split <;> rfl
@[simp] theorem Thread.setM_errMem (t : Thread) (k : Nat) (v : Mask) : (t.setM k v).errMem = t.errMem := by unfold Thread.setM; split <;> rfl
@[simp] theorem Thread.setM_barph (t : Thread) (k : Nat) (v : Mask) : (t.setM k v).barph = t.barph := by unfold Thread.setM; split <;> rfl
@[simp] theorem Thread.setM_bsarr (t : Thread) (k : Nat) (v : Mask) : (t.setM k v).bsarr = t.bsarr := by unfold Thread.setM; split <;> rfl
@[simp] theorem Thread.setM_allot (t : Thread) (k : Nat) (v : Mask) : (t.setM k v).allot = t.allot := by unfold Thread.setM; split <;> rfl
@[simp] theorem Thread.setM_join (t : Thread) (k : Nat) (v : Mask) : (t.setM k v).join = t.join := by unfold Thread.setM; split <;> rfl
@[simp] theorem Thread.setM_wait (t : Thread) (k : Nat) (v : Mask) : (t.setM k v).wait = t.wait := by unfold Thread.setM; split <;> rfl
@[simp] theorem Thread.setM_marker (t : Thread) (k : Nat) (v : Mask) : (t.setM k v).marker = t.marker := by unfold Thread.setM; split <;> rfl
@[simp] theorem Thread.setM_w (t : Thread) (k : Nat) (v : Mask) : (t.setM k v).w = t.w := by unfold Thread.setM; split <;> rfl
@[simp] theorem Thread.setM_launch (t : Thread) (k : Nat) (v : Mask) : (t.setM k v).launch = t.launch := by unfold Thread.setM; split <;> rfl
@[simp] theorem Thread.setM_nextIssue (t : Thread) (k : Nat) (v : Mask) : (t.setM k v).nextIssue = t.nextIssue := by unfold Thread.setM; split <;> rfl
@[simp] theorem Thread.setM_prev (t : Thread) (k : Nat) (v : Mask) : (t.setM k v).prev = t.prev := by unfold Thread.setM; split <;> rfl
@[simp] theorem Thread.setM_ipc (t : Thread) (k : Nat) (v : Mask) : (t.setM k v).ipc = t.ipc := by unfold Thread.setM; split <;> rfl
@[simp] theorem Thread.setM_isolo (t : Thread) (k : Nat) (v : Mask) : (t.setM k v).isolo = t.isolo := by unfold Thread.setM; split <;> rfl
@[simp] theorem Thread.setM_soloC (t : Thread) (k : Nat) (v : Mask) : (t.setM k v).soloC = t.soloC := by unfold Thread.setM; split <;> rfl
@[simp] theorem Thread.setM_acq (t : Thread) (k : Nat) (v : Mask) : (t.setM k v).acq = t.acq := by unfold Thread.setM; split <;> rfl
@[simp] theorem Thread.setM_late (t : Thread) (k : Nat) (v : Mask) : (t.setM k v).late = t.late := by unfold Thread.setM; split <;> rfl
@[simp] theorem Thread.setM_replay (t : Thread) (k : Nat) (v : Mask) : (t.setM k v).replay = t.replay := by unfold Thread.setM; split <;> rfl
@[simp] theorem Thread.setM_vstop (t : Thread) (k : Nat) (v : Mask) : (t.setM k v).vstop = t.vstop := by unfold Thread.setM; split <;> rfl
@[simp] theorem Thread.setM_seqs (t : Thread) (k : Nat) (v : Mask) : (t.setM k v).seqs = t.seqs := by unfold Thread.setM; split <;> rfl
@[simp] theorem Thread.setM_pre (t : Thread) (k : Nat) (v : Mask) : (t.setM k v).pre = t.pre := by unfold Thread.setM; split <;> rfl
@[simp] theorem Thread.setM_left (t : Thread) (k : Nat) (v : Mask) : (t.setM k v).left = t.left := by unfold Thread.setM; split <;> rfl

end Sys2Proof.Machine
end

