-- ==== Sys2Proof/Laws/Memory.lean ====
section
/-! SUPPORT. Memories: every operation keeps the canonical form, and a byte reads as it was last written. -/

namespace Sys2Proof.Machine

theorem memWfAbove_mono {m : List Host.Cell} {lo hi : Nat} (h : lo ≤ hi) (hm : memWfAbove hi m = true) : memWfAbove lo m = true := by
  cases m with
  | nil => rfl
  | cons c r =>
    obtain ⟨k, v⟩ := c
    simp only [memWfAbove, Bool.and_eq_true, decide_eq_true_eq] at hm ⊢
    exact ⟨⟨by omega, hm.1.2⟩, hm.2⟩

theorem memGet_below {m : List Host.Cell} : ∀ {lo a : Nat}, memWfAbove lo m = true → a < lo → memGet m a = 0 := by
  cases m with
  | nil => intros; rfl
  | cons c r =>
    obtain ⟨k, v⟩ := c
    intro lo a h ha
    simp only [memWfAbove, Bool.and_eq_true, decide_eq_true_eq] at h
    simp only [memGet]
    rw [if_neg (by omega), if_pos (by omega)]

theorem memSet_wf {m : List Host.Cell} : ∀ {lo a : Nat} {b : Byte}, memWfAbove lo m = true → lo ≤ a → memWfAbove lo (memSet m a b) = true := by
  induction m with
  | nil => intro lo a b _ h; simp only [memSet]; split <;> simp_all [memWfAbove]
  | cons c r ih =>
    obtain ⟨k, v⟩ := c
    intro lo a b hm ha
    simp only [memWfAbove, Bool.and_eq_true, decide_eq_true_eq] at hm
    simp only [memSet]
    split
    · split
      · exact memWfAbove_mono (by omega) hm.2
      · subst_vars; simp_all [memWfAbove]
    · split
      · split
        · simp_all [memWfAbove]
        · simp only [memWfAbove, Bool.and_eq_true, decide_eq_true_eq]
          exact ⟨⟨ha, by assumption⟩, ⟨by omega, hm.1.2⟩, hm.2⟩
      · simp only [memWfAbove, Bool.and_eq_true, decide_eq_true_eq]
        exact ⟨hm.1, ih hm.2 (by omega)⟩

theorem memGet_memSet {m : List Host.Cell} :
    ∀ {lo a : Nat} {b : Byte} (x : Nat), memWfAbove lo m = true → memGet (memSet m a b) x = if x = a then b else memGet m x := by
  induction m with
  | nil =>
    intro lo a b x _
    by_cases hb : b = 0
    · simp [memSet, memGet, hb]
    · simp only [memSet, if_neg hb, memGet]
      by_cases hx : x = a
      · simp [hx]
      · rw [if_neg (fun h => hx h.symm), if_neg hx]; split <;> rfl
  | cons c r ih =>
    obtain ⟨k, v⟩ := c
    intro lo a b x hm
    simp only [memWfAbove, Bool.and_eq_true, decide_eq_true_eq] at hm
    simp only [memSet]
    split
    · rename_i hk
      subst hk
      split
      · rename_i hb
        subst hb
        by_cases hx : x = k
        · subst hx; rw [if_pos rfl]; exact memGet_below hm.2 (by omega)
        · rw [if_neg hx]; simp only [memGet]; rw [if_neg (fun h => hx h.symm)]
          split
          · exact memGet_below hm.2 (by omega)
          · rfl
      · simp only [memGet]
        by_cases hx : x = k
        · simp [hx]
        · have hk : k ≠ x := fun h => hx h.symm
          rw [if_neg hk, if_neg hx, if_neg hk]
    · rename_i hk
      split
      · rename_i hlt
        split
        · rename_i hb
          subst hb
          by_cases hx : x = a
          · subst hx; rw [if_pos rfl]; simp only [memGet]; rw [if_neg hk, if_pos hlt]
          · rw [if_neg hx]
        · rw [memGet]
          by_cases hx : x = a
          · simp [hx]
          · rw [if_neg (fun h => hx h.symm), if_neg hx]
            split
            · simp only [memGet]; rw [if_neg (by omega), if_pos (by omega)]
            · rfl
      · rename_i hlt
        simp only [memGet]
        rw [ih x hm.2]
        by_cases hx : x = a
        · subst hx; rw [if_neg hk, if_neg hlt]; simp
        · rw [if_neg hx, if_neg hx]

theorem memWrite_wf {bs : List Byte} : ∀ {m : List Host.Cell} {lo a : Nat}, memWfAbove lo m = true → lo ≤ a → memWfAbove lo (memWrite m a bs) = true := by
  induction bs with
  | nil => intro m lo a h _; exact h
  | cons b r ih => intro m lo a h ha; exact ih (memSet_wf h ha) (by omega)

theorem memGet_memWrite {bs : List Byte} : ∀ {m : List Host.Cell} {a : Nat} (x : Nat), memWfAbove 0 m = true →
    memGet (memWrite m a bs) x = if a ≤ x ∧ x < a + bs.length then nth bs (x - a) 0 else memGet m x := by
  induction bs with
  | nil =>
    intro m a x _
    have h : ¬ (a ≤ x ∧ x < a + ([] : List Byte).length) := by simp only [List.length_nil]; omega
    rw [if_neg h]; rfl
  | cons b r ih =>
    intro m a x h
    rw [memWrite, ih x (memSet_wf h (Nat.zero_le _)), memGet_memSet x h]
    by_cases hx : x = a
    · subst hx
      have h1 : ¬ (x + 1 ≤ x ∧ x < x + 1 + r.length) := by omega
      have h2 : x ≤ x ∧ x < x + (b :: r).length := by simp only [List.length_cons]; omega
      rw [if_neg h1, if_pos rfl, if_pos h2, Nat.sub_self]; rfl
    · by_cases h1 : a + 1 ≤ x ∧ x < a + 1 + r.length
      · have h2 : a ≤ x ∧ x < a + (b :: r).length := by simp only [List.length_cons]; omega
        rw [if_pos h1, if_pos h2]
        obtain ⟨n, rfl⟩ : ∃ n, x = a + 1 + n := ⟨x - (a + 1), by omega⟩
        have e : a + 1 + n - a = n + 1 := by omega
        simp [nth, e]
      · have h2 : ¬ (a ≤ x ∧ x < a + (b :: r).length) := by simp only [List.length_cons]; omega
        rw [if_neg h1, if_neg hx, if_neg h2]

theorem Memory.wf_memSet {m : List Host.Cell} (a : Nat) (b : Byte) (h : Memory.wf m = true) : Memory.wf (memSet m a b) = true :=
  memSet_wf h (Nat.zero_le _)

theorem Memory.wf_memWrite {m : List Host.Cell} (a : Nat) (bs : List Byte) (h : Memory.wf m = true) : Memory.wf (memWrite m a bs) = true :=
  memWrite_wf h (Nat.zero_le _)

theorem State.rekey_wf (s : State) (key : KeyVal) (line : Nat) (h : Memory.wf s.hbm = true) : Memory.wf (s.rekey key line).hbm = true := by
  unfold State.rekey
  split
  · exact h
  · split
    · exact h
    · exact Memory.wf_memWrite (64 * line) (s.lineUnder key line) h

/-- The state with what a read of memory can change taken from another: rows, counters, corrected errors, caches and translations. -/
abbrev State.readsOf (s t : State) : State :=
  { s with rows := t.rows, dies := t.dies, eccFix := t.eccFix, msc := t.msc, tlb := t.tlb }

theorem State.readsOf_trans {s t u : State} (h1 : t = s.readsOf t) (h2 : u = t.readsOf u) : u = s.readsOf u := by
  rw [h1] at h2
  exact h2

/-- A corrected ECC error counts at its die and leaves the list of those to come (25 R447). -/
theorem State.correct_eq (s : State) (loc : Nat) : s.correct loc = s.readsOf (s.correct loc) := by
  unfold State.correct
  split <;> rfl

theorem State.activateRow_eq (s : State) (loc : Nat) : s.activateRow loc = s.readsOf (s.activateRow loc) := by
  unfold State.activateRow
  split <;> rfl

theorem State.mscDrop_eq (s : State) (x : MscLine) : s.mscDrop x = s.readsOf (s.mscDrop x) := by
  cases h : x.dirty
  · simp [State.mscDrop, h]
  · simp only [State.mscDrop, h, if_true]
    rw [s.activateRow_eq]

theorem State.mscRoom_eq {s t : State} {line w : Nat} {ways : List Nat} (h : s.mscRoom line ways = some (w, t)) : t = s.readsOf t := by
  simp only [State.mscRoom] at h
  split at h
  · cases h; rfl
  · split at h
    · cases h; exact s.mscDrop_eq _
    · cases h

/-- WHAT AN ACCESS OF A LINE CAN CHANGE: its row's mark, the counters, a corrected error, the memory-side cache and, as a line leaves
it, the translations read from that line (21 R390, R396, R397; 25 R447). -/
theorem State.access_eq (s : State) (loc key ca : Nat) (write mark : Bool) :
    s.access loc key ca write mark = s.readsOf (s.access loc key ca write mark) := by
  simp only [State.access]
  split
  · exact State.readsOf_trans (s.correct_eq loc) rfl
  · have h2 : ∀ (u : State) (o : Option MscLine), u = s.readsOf u →
        (match o with | some x => u.mscDrop x | none => u) = s.readsOf (match o with | some x => u.mscDrop x | none => u) := by
      intro u o hu
      cases o with
      | none => exact hu
      | some x => exact State.readsOf_trans hu (u.mscDrop_eq x)
    have h3 := State.readsOf_trans (h2 (s.correct loc) ((s.correct loc).msc.find? (fun x => x.line == loc / 64)) (s.correct_eq loc))
      (State.activateRow_eq _ loc)
    split
    · rename_i w t hr
      exact State.readsOf_trans (State.readsOf_trans h3 (State.mscRoom_eq hr)) rfl
    · exact h3

theorem State.touch_eq (s : State) (loc key ca : Nat) : s.touch loc key ca = s.readsOf (s.touch loc key ca) := s.access_eq ..

theorem State.startWalk_eq (s : State) (die key : Nat) (lines : List Nat) :
    (s.startWalk die key lines).2 = s.readsOf (s.startWalk die key lines).2 := by
  have h : ∀ (ls : List Nat) (u : State), u = s.readsOf u →
      ls.foldl (fun s l => s.access (64 * l) key 0 false true) u = s.readsOf (ls.foldl (fun s l => s.access (64 * l) key 0 false true) u) := by
    intro ls
    induction ls with
    | nil => intro u hu; exact hu
    | cons l r ih => intro u hu; exact ih _ (State.readsOf_trans hu (u.access_eq ..))
  exact h lines _ rfl

/-- A table walk changes the translations held, the counters of its die and what reading its lines changes (21 R390, R396, R399). -/
theorem State.walked_eq (s : State) (cl rgn : Nat) (w : Walked) : s.walked cl rgn w = s.readsOf (s.walked cl rgn w) := by
  simp only [State.walked]
  split
  · rfl
  · cases s.tlbAt (256 + walkerDie cl) rgn w with
    | some e => simp only []; split <;> rfl
    | none =>
      simp only []
      split
      · exact State.readsOf_trans (State.readsOf_trans (s.startWalk_eq ..) rfl) rfl
      · exact State.readsOf_trans (s.startWalk_eq ..) rfl

/-- A line that is written under another key keeps everything but HBM and its key. -/
theorem State.rekey_eq (s : State) (key : KeyVal) (line : Nat) :
    s.rekey key line = { s with hbm := (s.rekey key line).hbm, lineKey := (s.rekey key line).lineKey } := by
  unfold State.rekey
  split
  · rfl
  · split <;> rfl

/-- WHAT A BYTE WRITTEN TO HBM CAN CHANGE: HBM, the key of its line, and what an access of the line changes; the translations that were
read from the line go (21 R390). -/
theorem State.hbmPut_eq (s : State) (key loc : Nat) (b : Byte) :
    s.hbmPut key loc b = { s.readsOf (s.hbmPut key loc b) with hbm := (s.hbmPut key loc b).hbm, lineKey := (s.hbmPut key loc b).lineKey } := by
  unfold State.hbmPut
  split
  · rfl
  · simp only []
    rw [State.access_eq, State.rekey_eq]

/-- The canonical form of HBM survives a byte written under any key. -/
theorem State.hbmPut_wf (s : State) (key : Nat) (loc : Nat) (b : Byte) (h : Memory.wf s.hbm = true) :
    Memory.wf (s.hbmPut key loc b).hbm = true := by
  unfold State.hbmPut
  split
  · exact h
  · rename_i k _
    simp only []
    rw [State.access_eq]
    exact Memory.wf_memSet _ _ (s.rekey_wf k _ h)

@[simp] theorem State.hbmPut_hostMem (s : State) (key : Nat) (loc : Nat) (b : Byte) : (s.hbmPut key loc b).hostMem = s.hostMem := by
  rw [State.hbmPut_eq]

@[simp] theorem State.hbmPut_frames (s : State) (key : Nat) (loc : Nat) (b : Byte) : (s.hbmPut key loc b).frames = s.frames := by
  rw [State.hbmPut_eq]

@[simp] theorem State.hbmPut_threads (s : State) (key : Nat) (loc : Nat) (b : Byte) : (s.hbmPut key loc b).threads = s.threads := by
  rw [State.hbmPut_eq]

@[simp] theorem State.hbmPut_acts (s : State) (key : Nat) (loc : Nat) (b : Byte) : (s.hbmPut key loc b).acts = s.acts := by
  rw [State.hbmPut_eq]

/-- A change of frames that keeps every scratchpad window in its form keeps the invariant. -/
theorem State.memsOk_modFrame (s : State) (cl rgn knum : Nat) (f : Frame → Frame) (hs : s.memsOk = true)
    (hf : ∀ x, Memory.wf x.scr = true → Memory.wf (f x).scr = true) : (s.modFrame cl rgn knum f).memsOk = true := by
  simp only [State.memsOk, State.modFrame, Bool.and_eq_true, List.all_eq_true, List.mem_map] at hs ⊢
  refine ⟨hs.1, ?_⟩
  rintro x ⟨y, hy, rfl⟩
  split
  · exact hf y (hs.2 y hy)
  · exact hs.2 y hy

/-- One byte written at any place keeps the form of every memory. -/
theorem State.memsOk_writeByte (s : State) (rgn knum : Nat) (p : Place) (b : Byte) (hs : s.memsOk = true) :
    (s.writeByte rgn knum p b).memsOk = true := by
  cases p with
  | scratch c o pr => exact s.memsOk_modFrame _ _ _ _ hs (fun x hx => memSet_wf hx (Nat.zero_le _))
  | global l k w =>
    simp only [State.memsOk, State.writeByte, Bool.and_eq_true] at hs ⊢
    rw [s.hbmPut_hostMem, s.hbmPut_frames]
    exact ⟨⟨s.hbmPut_wf k l b hs.1.1, hs.1.2⟩, hs.2⟩
  | host a =>
    simp only [State.memsOk, State.writeByte, Bool.and_eq_true] at hs ⊢
    exact ⟨⟨hs.1.1, memSet_wf hs.1.2 (Nat.zero_le _)⟩, hs.2⟩
  | fabric a => exact hs

theorem State.memsOk_writeAt (rgn knum : Nat) (bs : List Byte) : ∀ (s : State) (p : Place), s.memsOk = true → (s.writeAt rgn knum p bs).memsOk = true := by
  induction bs with
  | nil => intro s p h; exact h
  | cons b r ih => intro s p h; exact ih _ _ (s.memsOk_writeByte rgn knum p b h)

theorem State.memsOk_writeLine (rgn knum : Nat) (line : Place) (bs : List (Nat × Byte)) :
    ∀ (s : State), s.memsOk = true → (s.writeLine rgn knum line bs).memsOk = true := by
  induction bs with
  | nil => intro s h; exact h
  | cons b r ih => intro s h; exact ih _ (s.memsOk_writeByte rgn knum (line.plus b.1) b.2 h)

theorem State.memsOk_hbmWrite (key : Nat) (bs : List Byte) : ∀ (s : State) (loc : Nat), s.memsOk = true → (s.hbmWrite key loc bs).memsOk = true := by
  induction bs with
  | nil => intro s p h; exact h
  | cons b r ih => intro s p h; exact ih _ _ (s.memsOk_writeByte 0 0 (.global p key { pa := 0, via := [] }) b h)

/-- A change that leaves the three memories alone keeps the invariant. -/
theorem State.memsOk_of_eq {s t : State} (h1 : t.hbm = s.hbm) (h2 : t.hostMem = s.hostMem) (h3 : t.frames = s.frames)
    (hs : s.memsOk = true) : t.memsOk = true := by
  simpa only [State.memsOk, h1, h2, h3] using hs

end Sys2Proof.Machine
end

