-- ==== Sys2Proof/Laws/Tables.lean ====
section
/-! SUPPORT. The numbered tables: a record reads as it was last put, and every other one stays. -/

namespace Sys2Proof.Machine

theorem getK_setK_same {α : Type} (l : List (Nat × α)) (k : Nat) (v d : α) : getK (setK l k v) k d = v := by
  induction l with
  | nil => simp [setK, getK]
  | cons x r ih =>
    obtain ⟨k', v'⟩ := x
    simp only [setK]
    split
    · simp [getK]
    · split
      · simp [getK]
      · simp only [getK, if_neg (by assumption : ¬ k' = k)]; exact ih

theorem getK_setK_other {α : Type} (l : List (Nat × α)) {k n : Nat} (v d : α) (h : n ≠ k) : getK (setK l k v) n d = getK l n d := by
  induction l with
  | nil => simp [setK, getK, Ne.symm h]
  | cons x r ih =>
    obtain ⟨k', v'⟩ := x
    simp only [setK]
    split
    · rename_i e
      subst e
      simp [getK, Ne.symm h]
    · split
      · simp [getK, Ne.symm h]
      · simp only [getK, ih]

@[simp] theorem State.clu_modClu (s : State) (c : Nat) (f : Clus → Clus) : (s.modClu c f).clu c = f (s.clu c) :=
  getK_setK_same s.clus c _ _
theorem State.clu_modClu_other (s : State) {c n : Nat} (f : Clus → Clus) (h : n ≠ c) : (s.modClu c f).clu n = s.clu n :=
  getK_setK_other s.clus _ _ h
@[simp] theorem State.die_modDie (s : State) (d : Nat) (f : Die → Die) : (s.modDie d f).die d = f (s.die d) :=
  getK_setK_same s.dies d _ _
theorem State.die_modDie_other (s : State) {d n : Nat} (f : Die → Die) (h : n ≠ d) : (s.modDie d f).die n = s.die n :=
  getK_setK_other s.dies _ _ h
@[simp] theorem State.phy_modPhy (s : State) (p : Nat) (f : Phys → Phys) : (s.modPhy p f).phy p = f (s.phy p) :=
  getK_setK_same s.phys p _ _
theorem State.phy_modPhy_other (s : State) {p n : Nat} (f : Phys → Phys) (h : n ≠ p) : (s.modPhy p f).phy n = s.phy n :=
  getK_setK_other s.phys _ _ h
@[simp] theorem State.pair_modPair (s : State) (p : Nat) (f : Pair → Pair) : (s.modPair p f).pair p = f (s.pair p) :=
  getK_setK_same s.pairs p _ _
theorem State.pair_modPair_other (s : State) {p n : Nat} (f : Pair → Pair) (h : n ≠ p) : (s.modPair p f).pair n = s.pair n :=
  getK_setK_other s.pairs _ _ h
@[simp] theorem State.eport_modEport (s : State) (p : Nat) (f : EPort → EPort) : (s.modEport p f).eport p = f (s.eport p) :=
  getK_setK_same s.eports p _ _
@[simp] theorem State.lane_modLane (s : State) (k : Nat) (f : Lane → Lane) : (s.modLane k f).lane k = f (s.lane k) :=
  getK_setK_same s.lanes k _ _

/-- A frame's update is seen under its key. -/
theorem State.frame?_modFrame (s : State) (cl rgn knum : Nat) (f : Frame → Frame)
    (hf : ∀ x, (f x).cl = x.cl ∧ (f x).rgn = x.rgn ∧ (f x).knum = x.knum) :
    (s.modFrame cl rgn knum f).frame? cl rgn knum = (s.frame? cl rgn knum).map f := by
  unfold State.frame? State.modFrame
  simp only
  induction s.frames with
  | nil => rfl
  | cons x r ih =>
    by_cases hx : x.cl = cl ∧ x.rgn = rgn ∧ x.knum = knum
    · simp [hx, hf x]
    · have h2 : (x.cl == cl && x.rgn == rgn && x.knum == knum) = false := by
        by_cases h1 : x.cl = cl <;> by_cases h3 : x.rgn = rgn <;> by_cases h4 : x.knum = knum <;> simp_all
      simp only [List.map_cons, if_neg hx, List.find?_cons, h2]
      exact ih

end Sys2Proof.Machine
end

