-- ==== Sys2Proof/Laws/Exec.lean ====
section
/-! SUPPORT. What the shared operations of a thread's instruction can do: the thread in issue, the three outcomes of issue,
the updates of one thread, taking a trap and returning from it. -/

namespace Sys2Proof.Machine

/-- The thread that a lookup finds is on its cluster and slot. -/
theorem State.thread?_spec {s : State} {cl slot : Nat} {t : Thread} (h : s.thread? cl slot = some t) : t.cl = cl ∧ t.slot = slot := by
  have := List.find?_some h
  simpa using this

/-- The thread in issue is found under its own cluster and slot. -/
theorem State.ctx?_thread {s : State} {c : Ctx} (h : s.ctx? = some c) : s.thread? c.t.cl c.t.slot = some c.t := by
  unfold State.ctx? at h
  split at h
  · cases h
  · rename_i t ht
    split at h
    · simp only [Option.some.injEq] at h
      subst h
      obtain ⟨h1, h2⟩ := State.thread?_spec ht
      simp only [h1, h2, ht]
    · cases h

theorem find_map_hit {p : Thread → Bool} {f : Thread → Thread} (hf : ∀ x, p (f x) = p x) :
    ∀ l : List Thread, (l.map (fun x => if p x = true then f x else x)).find? p = (l.find? p).map f := by
  intro l
  induction l with
  | nil => rfl
  | cons x r ih =>
    by_cases hx : p x = true
    · simp [hx, hf x]
    · simp [hx, ih]

theorem find_map_miss {p q : Thread → Bool} {f : Thread → Thread} (hf : ∀ x, q x = true → p x = false)
    (hg : ∀ x, q x = true → p (f x) = false) :
    ∀ l : List Thread, (l.map (fun x => if q x = true then f x else x)).find? p = l.find? p := by
  intro l
  induction l with
  | nil => rfl
  | cons x r ih =>
    by_cases hx : q x = true
    · simp [hx, hf x hx, hg x hx, ih]
    · rw [List.map_cons, if_neg hx, List.find?_cons, List.find?_cons, ih]

/-- A thread's update is seen under its slot. -/
theorem State.thread?_modThread (s : State) (cl slot : Nat) (f : Thread → Thread)
    (hf : ∀ t, (f t).cl = t.cl ∧ (f t).slot = t.slot) :
    (s.modThread cl slot f).thread? cl slot = (s.thread? cl slot).map f := by
  have h := find_map_hit (p := fun t => t.cl == cl && t.slot == slot) (f := f) (fun x => by simp [hf x]) s.threads
  simpa [State.thread?, State.modThread] using h

/-- A thread's update is not seen under another slot. -/
theorem State.thread?_modThread_ne (s : State) {cl slot c k : Nat} (f : Thread → Thread)
    (hf : ∀ t, (f t).cl = t.cl ∧ (f t).slot = t.slot) (h : ¬ (c = cl ∧ k = slot)) :
    (s.modThread cl slot f).thread? c k = s.thread? c k := by
  have := find_map_miss (p := fun t => t.cl == c && t.slot == k) (q := fun t => t.cl == cl && t.slot == slot) (f := f)
    (fun x hx => by simp at hx ⊢; omega) (fun x hx => by simp [hf x] at hx ⊢; omega) s.threads
  simpa [State.thread?, State.modThread] using this

/-- The thread after its bundle word has issued. -/
def State.issuedThread (s : State) (c : Ctx) : Thread :=
  { c.t with pc := c.next s, prev := c.t.fetchPc, soloC := false, launch := false, acq := s.openAcq c.t, left := 0, pre := none,
             ipc := if s.cur.pair then c.t.pc + 4 else c.t.pc, isolo := s.cur.pair || c.t.soloC, marker := bitOf s.cur.words 30 }

theorem State.thread?_begin {s : State} {c : Ctx} (h : s.ctx? = some c) :
    (s.begin c).thread? c.t.cl c.t.slot = some (s.issuedThread c) := by
  unfold State.begin
  rw [State.thread?_modThread, State.ctx?_thread h]
  · rfl
  · exact fun t => ⟨rfl, rfl⟩

/-- What `put` leaves of the thread in issue. -/
theorem State.thread?_put {s : State} {c : Ctx} {f : Thread → Thread} (hf : ∀ t, (f t).cl = t.cl ∧ (f t).slot = t.slot)
    (h : s.ctx? = some c) : (s.put c f).thread? c.t.cl c.t.slot = some (f (s.issuedThread c)) := by
  unfold State.put
  rw [State.thread?_modThread _ _ _ _ hf, State.thread?_begin h]
  rfl

/-- `put` leaves every other thread and everything else. -/
theorem State.onlyThread_put {s : State} {c : Ctx} {f : Thread → Thread} (hf : ∀ t, (f t).cl = t.cl ∧ (f t).slot = t.slot) :
    s.onlyThread (s.put c f) c.t.cl c.t.slot := by
  refine ⟨rfl, fun x k hk => ?_⟩
  unfold State.put State.begin
  rw [State.thread?_modThread_ne _ _ hf hk, State.thread?_modThread_ne (h := hk)]
  exact fun t => ⟨rfl, rfl⟩

/-- A state that differs in threads alone reads every byte as before. -/
theorem State.sameMemory_of_onlyThread {s t : State} {cl slot : Nat} (h : s.onlyThread t cl slot) : s.sameMemory t := by
  intro rgn knum p
  rw [h.1]
  have hb : ∀ key loc, State.hbmByte { s with threads := t.threads } key loc = s.hbmByte key loc := fun _ _ => rfl
  cases p <;> simp only [State.readByte, State.frame?, hb]

/-- THE OUTCOMES OF ISSUE: with a thread in issue, the trap of the first failing check, or the instruction's effect on the
state in which its bundle has issued. -/
theorem issueI_next {i : Instr} {s : State} {c : Ctx} {eff : Ctx → State → State} (h : s.issues c i) :
    issueI i s eff = .next (eff c (s.begin c)) := by
  unfold issueI
  rw [h.1]
  simp only [h.2]

theorem issueI_trap {i : Instr} {s : State} {c : Ctx} {eff : Ctx → State → State} {tr : Trap} (h : s.failsWith c i tr) :
    issueI i s eff = .next ((s.trapDecode c tr).clearEcc c.t.cl c.t.slot tr) := by
  unfold issueI
  rw [h.1]
  simp only [h.2]

/-- A record that reaches its arbiter touches regions, clusters' counters and work in flight, and no thread, frame or memory. -/
theorem State.raiseNow_keeps (s : State) (r : Record) :
    (s.raiseNow r).threads = s.threads ∧ (s.raiseNow r).frames = s.frames ∧ (s.raiseNow r).hbm = s.hbm ∧ (s.raiseNow r).hostMem = s.hostMem ∧
    (s.raiseNow r).lineKey = s.lineKey ∧ (s.raiseNow r).keys = s.keys ∧ (s.raiseNow r).cmds = s.cmds ∧ (s.raiseNow r).pairs = s.pairs ∧
    (s.raiseNow r).phys = s.phys ∧ (s.raiseNow r).dies = s.dies := by
  unfold State.raiseNow
  simp only
  split
  · exact ⟨rfl, rfl, rfl, rfl, rfl, rfl, rfl, rfl, rfl, rfl⟩
  · split
    · exact ⟨rfl, rfl, rfl, rfl, rfl, rfl, rfl, rfl, rfl, rfl⟩
    · split <;> exact ⟨rfl, rfl, rfl, rfl, rfl, rfl, rfl, rfl, rfl, rfl⟩

/-- So does a record that is raised, or it waits behind a switch window. -/
theorem State.raise_keeps (s : State) (r : Record) :
    (s.raise r).threads = s.threads ∧ (s.raise r).frames = s.frames ∧ (s.raise r).hbm = s.hbm ∧ (s.raise r).hostMem = s.hostMem ∧
    (s.raise r).lineKey = s.lineKey ∧ (s.raise r).keys = s.keys ∧ (s.raise r).cmds = s.cmds ∧ (s.raise r).pairs = s.pairs ∧
    (s.raise r).phys = s.phys ∧ (s.raise r).dies = s.dies := by
  unfold State.raise
  split
  · exact ⟨rfl, rfl, rfl, rfl, rfl, rfl, rfl, rfl, rfl, rfl⟩
  · exact s.raiseNow_keeps r

theorem find_modRegion (l : List Region) (n : Nat) (f : Region → Region) (hf : ∀ r, (f r).num = r.num) :
    (l.map (fun r => if r.num = n then f r else r)).find? (fun r => r.num == n) = (l.find? (fun r => r.num == n)).map f := by
  induction l with
  | nil => rfl
  | cons x r ih =>
    by_cases hx : x.num = n
    · simp [hx, hf x]
    · simp [hx, ih]

/-- A region's update is seen under its number. -/
theorem State.region?_modRegion (s : State) (n : Nat) (f : Region → Region) (hf : ∀ r, (f r).num = r.num) :
    (s.modRegion n f).region? n = (s.region? n).map f := find_modRegion s.regions n f hf

/-- A RECORD THAT PARKS A THREAD IS NEVER LOST: it stands last in the arbiter of its queue, or behind the switch window. -/
theorem State.recorded_raise (s : State) (r : Record) (h : r.parked = true) : s.recorded (s.raise r) r := by
  unfold State.recorded State.raise
  split
  · rfl
  · intro g hg
    unfold State.raiseNow
    simp only [hg, h, Bool.not_true, Bool.false_and, Bool.false_eq_true, if_false]
    have e : (s.modRegion (s.fqOwner r.rgn) (fun x => { x with kept := x.kept ++ [r] })).region? (s.fqOwner r.rgn) =
        some { g with kept := g.kept ++ [r] } := by
      rw [State.region?_modRegion, hg]
      · rfl
      · exact fun _ => rfl
    split
    · exact ⟨_, e, rfl⟩
    · exact ⟨_, e, rfl⟩

theorem State.raise_thread? (s : State) (r : Record) (cl slot : Nat) : (s.raise r).thread? cl slot = s.thread? cl slot := by
  unfold State.thread?; rw [(s.raise_keeps r).1]

/-- WHAT TAKING A TRAP LEAVES OF ITS THREAD: it is parked at the PC that the trap records, and keeps its registers. -/
theorem State.thread?_park {s : State} {cl slot : Nat} {t : Thread} (pc : Word) (solo : Bool) (tr : Trap) (h : s.thread? cl slot = some t) :
    (s.park cl slot pc solo tr).thread? cl slot = some { t with wait := .parked, pc := pc, soloC := solo, pre := none, left := 0, launch := false, w := 0 } := by
  unfold State.park
  rw [h]
  simp only
  rw [State.raise_thread?, State.thread?_modThread, h]
  · rfl
  · exact fun t => ⟨rfl, rfl⟩

/-- TAKING A TRAP RECORDS IT: with the thread's names, the PC that it gives and the cause's words (19 R363, R364). -/
theorem State.recorded_park {s : State} {t : Thread} (pc : Word) (solo : Bool) (tr : Trap) (h : s.thread? t.cl t.slot = some t) :
    s.recorded (s.park t.cl t.slot pc solo tr) (s.parkRecord t pc tr) := by
  unfold State.park
  rw [h]
  exact State.recorded_raise (s.modThread t.cl t.slot _) (s.parkRecord t pc tr) rfl

/-- Two states with the same frames, HBM, line keys, key table and host memory read every byte alike. -/
theorem State.sameMemory_of_eq {s t : State} (hf : t.frames = s.frames) (hh : t.hbm = s.hbm) (hl : t.lineKey = s.lineKey)
    (hk : t.keys = s.keys) (hm : t.hostMem = s.hostMem) : s.sameMemory t := by
  intro rgn knum p
  have hb : ∀ key loc, t.hbmByte key loc = s.hbmByte key loc := by
    intro key loc
    unfold State.hbmByte State.keyOf State.lineUnder
    rw [hh, hl, hk]
  cases p <;> simp only [State.readByte, State.frame?, hf, hm, hb]

/-- Taking a trap leaves every byte of memory and every frame. -/
theorem State.park_keeps (s : State) (cl slot : Nat) (pc : Word) (solo : Bool) (tr : Trap) :
    s.sameMemory (s.park cl slot pc solo tr) ∧ (s.park cl slot pc solo tr).frames = s.frames := by
  unfold State.park
  split
  · exact ⟨fun _ _ _ => rfl, rfl⟩
  · generalize hs : s.modThread cl slot _ = s1
    generalize (Record.mk _ _ _ _ _ _ _ _ _ _ _ _ _) = r
    obtain ⟨-, h2, h3, h4, h5, h6, -⟩ := s1.raise_keeps r
    subst hs
    exact ⟨State.sameMemory_of_eq h2 h3 h5 h6 h4, h2⟩

/-- What the return from a trap leaves of its thread (14 R329). -/
theorem State.thread?_resume {s : State} {cl slot : Nat} {t : Thread} (ceil : Nat) (h : s.thread? cl slot = some t) :
    (s.resume cl slot ceil).thread? cl slot = some { t with wait := .none, w := 0, prio := BitVec.ofNat 3 (Nat.min t.prio.toNat ceil) } := by
  unfold State.resume
  rw [State.thread?_modThread, h]
  · rfl
  · exact fun t => ⟨rfl, rfl⟩

end Sys2Proof.Machine
end

