-- ==== Sys2Proof/Tests/Slice0.lean ====
section
/-! SUPPORT. Tests of the model: fixed values whose expected results come from the spec, the checks of WellFormed, and for
every statement with hypotheses a concrete state and operands that meet them. -/

namespace Sys2Proof.Tests
open Sys2Proof.Machine

set_option Elab.async false

/-! ### A small machine: region 0 with key 1 in bypass, a kernel frame on clusters 0 and 1, one thread in issue -/

/-- The registers of the small thread: g1 5, g2 7, g3 an address of its own window, g4 one of cluster 1's window, g5 a
global and g6 a host address, g7 a jump target, g8 a fabric address, g9 a cluster, g10 an enormous value. -/
def regs : List Word :=
  [0, 5, 7, 0x4000000000001000, 0x4100010000001000, 0x1000, 0x4200000000000040, 0x100, 0x8001000000001000, 1, 0xFFFFFFFFFFFFFFFF] ++
  List.replicate 21 3

def thr : Thread := { Thread.start 0 0 0 0 32 4 64 with g := regs, p := 2 }

def frm : Frame := { placedFrame with bars := List.replicate 16 ⟨true, 2, 0, false⟩, cb := some Batcher.fresh }

def rgn : Region := { placedRegion with fkey := 9, apsize := 4096, apbase := 0x10000 }

/-- A table whose one leaf of 1 GiB, at physical address 2^30, permits everything (21 R387). -/
def tables : State :=
  ((({ State.reset with keys := [(0, .bypass), (1, .bypass)] } : State).hbmWrite 0 (place 2 0) (leBytes 8 0x10000001)).hbmWrite 0 (place 2 4096)
    (leBytes 8 0x400000003F))

def small : State :=
  { tables with
    bootstat := 7, regions := [rgn], frames := [frm, { frm with cl := 1 }], threads := [thr] }

def ctx : Ctx := ⟨thr, frm, rgn, 32⟩

/-- Every instruction of a list executes normally. -/
def allIssue (s : State) (c : Ctx) (l : List Instr) : Bool :=
  decide (s.ctx? = some c) && l.all (fun i => (decodeChecks s c [i]).isNone)

/-! ### Words written out from the encodings of 10 R203 to R215 and the opcode table, one for every constructor -/

theorem test_words_integer_1 :
    ([(0b10000000100101010010011000000000, .add 18 20 19),
      (0b10000000011111101101001000000001, .sub 15 27 9),
      (0b11000000011101110010001000000010, .and 14 28 17),
      (0b10000000000101011001010000000011, .or 2 22 10),
      (0b11000000110110100011010000000100, .xor 27 8 26),
      (0b10000000100011010000011000000101, .andn 17 20 3),
      (0b11000000110110111010110000000110, .orn 27 14 22),
      (0b10000000010011111101111000001000, .shl 9 31 15),
      (0b11000000110100101010101000001001, .shr 26 10 21),
      (0b10000000111010100001001000001010, .sra 29 8 9),
      (0b11000000110111110010010000001011, .rol 27 28 18),
      (0b10000000111111000010100000010000, .min 31 16 20),
      (0b11000000011111000001010000010001, .max 15 16 10),
      (0b11000000011101100001111000010010, .minu 14 24 15)] :
      List (Nat × Instr)).all (fun x => decodeTableWord 32 x.1 == some x.2) = true := by
  decide +kernel

theorem test_words_integer_2 :
    ([(0b11000000101011011111100000010011, .maxu 21 23 28),
      (0b10000000101001010101110000100110, .cselT 20 21 14 6),
      (0b11000000101010001011001000101111, .cselF 21 2 25 7),
      (0b00000000101100000000000000110000, .pmovToG 22),
      (0b11000000000001100100000000110001, .pmovToP 25),
      (0b11000001100010101001001000000000, .mul 17 10 9),
      (0b10000001111101101110110000000001, .mulh 30 27 22),
      (0b10000001110001011101011000000010, .mulhu 24 23 11),
      (0b10000001110010011000001000000011, .madd 25 6 1),
      (0b00000001111001111010011000001000, .divu 28 30 19),
      (0b01000001110010001100000000001001, .remu 25 3 0),
      (0b11000010000111011000000000000000, .clz 3 22),
      (0b01000010110010000100000000000001, .ctz 25 1),
      (0b11000010101101100100000000000010, .popc 22 25)] :
      List (Nat × Instr)).all (fun x => decodeTableWord 32 x.1 == some x.2) = true := by
  decide +kernel

theorem test_words_integer_3 :
    ([(0b10000010001110111100000000000011, .brev 7 15),
      (0b10000010001110111100000000000100, .bswap 7 15),
      (0b11000010101010101110001000001000, .bfx 21 11 17),
      (0b10000010011100101000101000001001, .bfxs 14 10 5),
      (0b00000010111101100011000000001010, .bfi 30 24 24),
      (0b00000010001110010100111001110100, .xshf 7 5 7 52)] :
      List (Nat × Instr)).all (fun x => decodeTableWord 32 x.1 == some x.2) = true := by
  decide +kernel

theorem test_words_immediate_and_predicate :
    ([(0b00000011101010001101001110000111, .addi 21 3 4999),
      (0b00000100010001100011010001011011, .andi 8 24 13403),
      (0b11000101111100010010001010111100, .ori 30 4 8892),
      (0b11000110101100001101010111011111, .xori 22 3 5599),
      (0b11000111111010101100000000101011, .shli 29 11 43),
      (0b01000111100100000100100000111100, .shri 18 1 60),
      (0b00000111001011000101000000010001, .srai 5 17 17),
      (0b00000111101110111001100000010001, .roli 23 14 17),
      (0b11001000001101100101010101000100, .movi 6 415044),
      (0b00001001000001100100000011101101, .movk 0 3 16621),
      (0b11001001101000110110100111010000, .movkZ 20 1 27088),
      (0b01001010000011111100011000000000, .cmp 0 3 30 6),
      (0b00001011100110011001000010011011, .cmpi 4 6 12 4251),
      (0b11001100010001000010000000000000, .plog 2 1 1 0)] :
      List (Nat × Instr)).all (fun x => decodeTableWord 32 x.1 == some x.2) = true := by
  decide +kernel

theorem test_words_control :
    ([(0b11011000010110101111101010110001, .brT 5 719537),
      (0b11011000111101000001100011010100, .brF 7 268500),
      (0b10011001000010100110110011010011, .jmp 683219),
      (0b10011010000011111001011100000001, .call 1021697),
      (0b00011011000001001000000000000000, .jr 18),
      (0b11011011000000000000000000000001, .callr 0),
      (0b11011011000000000000000000000010, .ret),
      (0b11011100000100000000110001011100, .loop 2 3164),
      (0b10011100000000000000000000000000, .nop)] :
      List (Nat × Instr)).all (fun x => decodeTableWord 32 x.1 == some x.2) = true := by
  decide +kernel

theorem test_words_threads_and_semaphores_1 :
    ([(0b11011101111011010000000000000000, .spawn 29 5),
      (0b01011101010000010000010000000101, .spawnt 8 1 5),
      (0b10011101000000000000100000000000, .quit),
      (0b10011101000000000000110000000001, .setpri 1),
      (0b10011101000000000001000000000011, .rshrink 3),
      (0b10011101000000011101010000000000, .sleep 7),
      (0b11011110011101000100000011110010, .swait 14 17 242),
      (0b10011110101100000000100011101110, .qwait 22 0 0 119),
      (0b01011110000001101001000111001000, .stry 26 1 200),
      (0b11011110000000101101100010110111, .ssig 11 183),
      (0b01011110011101011001110000100011, .ssigRemote 14 22 35),
      (0b11011110000000011110000001110011, .ssigG 7 115),
      (0b01011110010001111010010011000101, .ssigGRemote 8 30 197),
      (0b11011110000001111110100011010011, .sset 31 211)] :
      List (Nat × Instr)).all (fun x => decodeTableWord 32 x.1 == some x.2) = true := by
  decide +kernel

theorem test_words_threads_and_semaphores_2 :
    ([(0b11011110101010000011000010101100, .sread 21 172),
      (0b11011110000000000011100010100010, .spois 162),
      (0b10011111000001100000000000001010, .barinit 24 10),
      (0b11011111000000000001000000000110, .barrive 6),
      (0b11011111000001000010000000001010, .barwait 16 10),
      (0b00011111000001010111000000001000, .barsync 21 8)] :
      List (Nat × Instr)).all (fun x => decodeTableWord 32 x.1 == some x.2) = true := by
  decide +kernel

theorem test_words_memory :
    ([(0b10100000101111101011000101000011, .ld 23 26 6 323),
      (0b10100000011100101100101011100001, .ldAcq 14 11 1 225),
      (0b00100000110101110111010011100101, .ldc 26 29 6 229),
      (0b11100001011101000000100100000000, .st 14 16 1 256),
      (0b01100001101011111001010111101111, .stRel 21 30 2 2 495),
      (0b11100001000111111110000001101001, .stNlo 3 31 105),
      (0b00100001001111101110100101101111, .stNhi 7 27 367),
      (0b10100010000001000001011001100000, .atom 0 16 0 3 6),
      (0b11100010010100111001110010010000, .acas 5 14 1 2),
      (0b10100011000000000000000000000001, .fence 1),
      (0b10100011000000000000100000000000, .icinvI),
      (0b10100011000000000000100000000001, .icinvC)] :
      List (Nat × Instr)).all (fun x => decodeTableWord 32 x.1 == some x.2) = true := by
  decide +kernel

theorem test_words_fabric :
    ([(0b11100100100001110000001000000000, .rst 16 28 1 0),
      (0b11100100100011001000111000000000, .rld 17 18 3),
      (0b11100100010010101001000101000000, .ratom 9 10 0 5 0),
      (0b11100100001101000101100100000000, .rsig 6 17 1),
      (0b10100100011001010010000000000000, .rspawn 12 5),
      (0b01100100000000000010100000000000, .fpath 0)] :
      List (Nat × Instr)).all (fun x => decodeTableWord 32 x.1 == some x.2) = true := by
  decide +kernel

theorem test_words_vector_memory_1 :
    ([(0b10101000001100100000000111000100, .vld 6 8 7 2),
      (0b00101000001110100100111111001110, .vlds 7 9 7 7 3),
      (0b11101000010001010010000001010110, .vldx 8 20 16 1 3),
      (0b11101000011100110000000001011110, .vldt 14 12 1 3),
      (0b11101000001010110000000110100000, .vst 5 12 6 0),
      (0b11101000100101000100011110101000, .vsts 18 17 3 6 0),
      (0b00101000010011001110111110110100, .vstx 9 19 23 6 2),
      (0b10101001100100111100000010000000, .vbcast 18 15 2),
      (0b11101001111001110100000000000001, .vmovsToG 28 29),
      (0b00101001101011110000000000000010, .vmovsToV 21 28),
      (0b10101001110100110001101000000011, .vext 26 12 13),
      (0b01101001110110100000001000000100, .vsetvl 27 8 0 2),
      (0b11101001111010000000000111000101, .viota 29 7),
      (0b11101001000000000000000000000110, .vwait)] :
      List (Nat × Instr)).all (fun x => decodeTableWord 32 x.1 == some x.2) = true := by
  decide +kernel

theorem test_words_vector_memory_2 :
    ([(0b11101001000000000100000000000111, .vsig 8 0)] :
      List (Nat × Instr)).all (fun x => decodeTableWord 32 x.1 == some x.2) = true := by
  decide +kernel

theorem test_words_vector_arithmetic_1 :
    ([(0b11101010001110010011101010000000, .vadd 7 4 29 2),
      (0b11101010110100010000101101000001, .vsub 26 4 5 5),
      (0b10101010100011101111101111000010, .vmul 17 27 29 7),
      (0b00101010010000000111101110000011, .vfma 8 1 29 6),
      (0b10101010100101111101001110000100, .vfms 18 31 9 6),
      (0b10101010100010011011000011000101, .vfnma 17 6 24 3),
      (0b11101010001101100101000001000110, .vmin 6 25 8 1),
      (0b11101010001100011101001001000111, .vmax 6 7 9 1),
      (0b01101010010110100100000011001000, .vabs 11 9 3),
      (0b10101010101000010000000000001001, .vneg 20 4 0),
      (0b11101010111010111000000101001010, .vclass 29 14 5),
      (0b00101011010011000100111001000000, .viadd 9 17 7 1),
      (0b11101011100100000111110011000001, .visub 18 1 30 3),
      (0b10101011100101110101110010000010, .vimul 18 29 14 2)] :
      List (Nat × Instr)).all (fun x => decodeTableWord 32 x.1 == some x.2) = true := by
  decide +kernel

theorem test_words_vector_arithmetic_2 :
    ([(0b10101011010100111100111111000011, .vimad 10 15 7 7),
      (0b11101011101100110011110100000100, .vimin 22 12 30 4),
      (0b10101011011111111100000010000101, .vimax 15 31 0 2),
      (0b01101011010000110100001100000110, .vand 8 13 1 4),
      (0b11101011110000101000110010000111, .vor 24 10 6 2),
      (0b10101011100000010110101000001000, .vxor 16 5 21 0),
      (0b10101011010010001000110100001001, .vshl 9 2 6 4),
      (0b00101011011000111001000001001010, .vshr 12 14 8 1),
      (0b11101011001010101101101000001011, .vsra 5 11 13 0),
      (0b11101100010011100000000010000000, .vexp2 9 24 2),
      (0b10101100010110000100000000000001, .vlog2 11 1 0),
      (0b10101100101001000100000110000010, .vrcp 20 17 6),
      (0b10101100111001101100000110000011, .vrsq 28 27 6),
      (0b10101100001110110000000100000100, .vsqrt 7 12 4)] :
      List (Nat × Instr)).all (fun x => decodeTableWord 32 x.1 == some x.2) = true := by
  decide +kernel

theorem test_words_vector_arithmetic_3 :
    ([(0b01101100010001111000000001000101, .vtanh 8 30 1),
      (0b00101101000011101000111010001000, .vcvt 1 26 7 2 1 0),
      (0b10101101000100100111101110010010, .vqnt 2 9 29 6 0 2),
      (0b10101101000100000001000101100001, .vdq 2 0 8 5 1),
      (0b10101101000001010110101111110000, .vrseed 21 21 7),
      (0b00101101000110000000000111110001, .vrng 3 7)] :
      List (Nat × Instr)).all (fun x => decodeTableWord 32 x.1 == some x.2) = true := by
  decide +kernel

theorem test_words_vector_other :
    ([(0b11101110100010011000000010000101, .vred 17 6 2 5),
      (0b11101110001110001000000010001100, .vscan 7 2 2 4),
      (0b00101110000111000101111011010000, .vperm 3 17 15 3),
      (0b10101110111010000100110111010001, .vrot 29 1 6 7),
      (0b00101110001001001110000001010010, .vshuf 4 19 16 1),
      (0b01101111001001001101010001000110, .vcmp 4 19 10 1 6),
      (0b11101111000001011100100100001011, .vicmp 0 23 4 4 3),
      (0b10101111110100110000110111010000, .vsel 26 12 6 7),
      (0b10101111001110001000111000011000, .vmlog 7 2 7 0),
      (0b11101111001100010100000000100000, .vmpop 6 5)] :
      List (Nat × Instr)).all (fun x => decodeTableWord 32 x.1 == some x.2) = true := by
  decide +kernel

theorem test_words_engines_1 :
    ([(0b10110000111000100001000000000000, .mclr 7 66 0),
      (0b11110000110001110000001000000001, .mmode 6 224 1),
      (0b01110000111001000111011000000010, .mrnm 7 142 3),
      (0b10110000101001111000011000000011, .msave 5 240 3),
      (0b11110000100001101001111000000100, .mload 4 211 3),
      (0b11110000010001011111100000000101, .mhdr 2 191 0),
      (0b00110000111000000000000000000110, .mstat 7),
      (0b10110000011001111111111000000111, .mdrain 3 255 3),
      (0b11110000101000100100010000100100, .mpass 5 72 2 4),
      (0b10110000111000110000000000110010, .mpassh 7 96 0 2),
      (0b01110001111001101001101000000000, .cpy 7 211 1),
      (0b10110001110000001100001000000001, .cpyx 6 24 1),
      (0b11110001100001001011011000000010, .cpym 4 150 3),
      (0b10110001010000001101101000000011, .cpyf 2 27 1)] :
      List (Nat × Instr)).all (fun x => decodeTableWord 32 x.1 == some x.2) = true := by
  decide +kernel

theorem test_words_engines_2 :
    ([(0b10110010010001010110010000000000, .cbcfg 2 172 2),
      (0b01110010001000100011101000000001, .cbpush 1 71 1),
      (0b11110010101000000000000000000010, .cbnext 5),
      (0b10110010100000111000000000000011, .cbdone 4 112 0),
      (0b11110010010000000000000000000100, .cbstat 2)] :
      List (Nat × Instr)).all (fun x => decodeTableWord 32 x.1 == some x.2) = true := by
  decide +kernel

theorem test_words_system :
    ([(0b11110011010100000000000001111101, .sysr 10 125),
      (0b10110011000001001001110001110111, .sysw 18 3191),
      (0b11110011000000000010000001010100, .trap 84),
      (0b00110011000001001110000100000000, .tresume 19),
      (0b10110011000000001110001000000000, .tctxr 3),
      (0b00110011000000001110001100000000, .tctxw 3),
      (0b01110011000001100110010000000000, .tkill 25),
      (0b01110011000001101110010100000000, .kbind 27),
      (0b11110011000000010010011000000000, .kunbind 4)] :
      List (Nat × Instr)).all (fun x => decodeTableWord 32 x.1 == some x.2) = true := by
  decide +kernel

/-! ### Ill-formed terms, one for each check of WellFormed -/

theorem test_unassigned_codes_are_ill_formed :
    ([.ld 1 2 7 0, .ldAcq 1 2 7 0, .ldc 1 2 7 0, .stRel 1 2 3 0 0, .atom 1 2 1 0 9, .fence 5, .ratom 1 2 1 10 0, .fpath 5,
      .vsetvl 1 2 8 0, .vsetvl 1 2 0 3, .vcvt 1 2 8 0 0 0, .vqnt 1 2 3 0 0 5, .vdq 1 2 3 0 5, .vred 1 2 0 6, .vscan 1 2 0 6,
      .vmlog 1 2 3 6, .mpass 1 0 0 7, .mpassh 1 0 0 7] : List Instr).all (fun i => !i.wf) = true := by decide +kernel

theorem test_reserved_combinations_are_ill_formed :
    ([.plog 1 6 2 1, .plog 1 7 2 1, .vmlog 1 2 1 5, .ratom 1 2 1 9 0, .loop 0 4] : List Instr).all (fun i => !i.wf) = true := by
  decide +kernel

theorem test_events_out_of_range_are_ill_formed :
    ([.commandStart 256 .copy, .formation 256, .spawnAdmission 256, .storeEntryDeparture 256, .rgnctlSuspend 256, .saveBlockWrite 256,
      .rgnctlResume 256, .rgnctlKill 256, .ipatWrite 256 0, .psreqWrite 256 0, .watchdogFire 256 2 0, .clusterFence 256 0,
      .spareRemap 256, .spwlimExpiry 0 512, .swlimExpiry 256 0, .waitLimitExpiry 0 512, .sleepExpiry 256 0, .fencePerform 0 512,
      .quitComplete 256 0, .instructionFetch 0 512, .rotationBoundary 288, .writeWindowStart 4, .mscFlush 4, .mscWayChange 4 1,
      .mscOperationDone 4, .mscstatRead 4, .tableWalk 4 0 0 0, .tableWalk 0 256 0 0, .tableWalk 0 0 0 32, .faultRecord 256,
      .faultQueueRetry 256, .killComplete 256, .foyerRequest 64 0, .semvalRead 64, .linkChange 16 true, .heartbeatReceive 6,
      .neighbourLost 6 0, .voltageReached 144, .balancerSample 144 0 0, .thermalCapUpdate 144 0 0, .powerEmergency 144 1,
      .emergencyClear 144, .refreshVisit 256 0 0 0, .refreshVisit 0 4 0 0, .refreshVisit 0 0 4 0, .refreshVisit 0 0 0 2048,
      .registerWrite 4 0, .registerWrite 0x1000000 0] : List Instr).all (fun i => !i.wf) = true := by decide +kernel

theorem test_boundary_codes_are_well_formed :
    ([.ld 1 2 6 0, .atom 1 2 1 0 8, .fence 4, .ratom 2 2 1 9 0, .fpath 4, .vsetvl 1 2 7 2, .vcvt 1 2 7 0 0 0, .vmlog 1 2 0 5,
      .mpass 1 0 0 6, .plog 1 7 2 0, .loop 1 4, .rotationBoundary 287, .foyerRequest 63 0] : List Instr).all (fun i => i.wf) = true := by
  decide +kernel

/-! ### One step each -/

/-- The outcome of an instruction on the small machine, or on it with other registers. -/
def after (i : Instr) (p : State → Bool) : Bool := match exec i small with | .next t => p t | _ => false

def withRegs (l : List Word) : State := { small with threads := [{ thr with g := 0 :: l ++ List.replicate (31 - l.length) 0 }] }

def afterR (l : List Word) (i : Instr) (p : State → Bool) : Bool := match exec i (withRegs l) with | .next t => p t | _ => false

def reg (t : State) (k : Nat) : Word := match t.thread? 0 0 with | some u => u.getG k | none => 0

def me (t : State) (p : Thread → Bool) : Bool := match t.thread? 0 0 with | some u => p u | none => false

def own (t : State) (p : Frame → Bool) : Bool := match t.frame? 0 0 0 with | some f => p f | none => false

/-- 11 R220, R222. -/
theorem test_add_wraps : after (.add 1 1 10) (fun t => reg t 1 == 4) = true := by decide +kernel
theorem test_sub_wraps : after (.sub 11 1 2) (fun t => reg t 11 == 0xFFFFFFFFFFFFFFFE) = true := by decide +kernel
theorem test_min_is_signed : after (.min 11 1 10) (fun t => reg t 11 == 0xFFFFFFFFFFFFFFFF) = true := by decide +kernel
theorem test_minu_is_unsigned : after (.minu 11 1 10) (fun t => reg t 11 == 5) = true := by decide +kernel
theorem test_sra_copies_bit_63 : after (.sra 11 10 2) (fun t => reg t 11 == 0xFFFFFFFFFFFFFFFF) = true := by decide +kernel
theorem test_shr_brings_zeros : after (.shr 11 10 2) (fun t => reg t 11 == 0x01FFFFFFFFFFFFFF) = true := by decide +kernel
theorem test_shift_count_modulo_64 : afterR [3, 65] (.shl 3 1 2) (fun t => reg t 3 == 6) = true := by decide +kernel
theorem test_csel_f_swaps : after (.cselF 11 1 2 1) (fun t => reg t 11 == 7) = true := by decide +kernel
theorem test_g0_keeps_no_value : after (.add 0 1 2) (fun t => reg t 0 == 0) = true := by decide +kernel

/-- 11 R223: the high halves of -1 x -1, signed and unsigned. -/
theorem test_mulh_signed : after (.mulh 11 10 10) (fun t => reg t 11 == 0) = true := by decide +kernel
theorem test_mulhu_unsigned : after (.mulhu 11 10 10) (fun t => reg t 11 == 0xFFFFFFFFFFFFFFFE) = true := by decide +kernel

/-- 11 R224 (its example): 100 by 7 leaves g5 pending, the quotient 14 on its way. -/
theorem test_divu_is_late :
    afterR [0, 0, 0, 0, 1, 100, 7] (.divu 5 6 7) (fun t => reg t 5 == 1 && me t (fun u => u.pendG.getLsbD 5) &&
      t.acts.any (fun a => decide (a.job = .result (.g 5) 14 none))) = true := by decide +kernel

/-- 11 R224 (its example): a zero divisor traps with 192 and i0 = 100. -/
theorem test_divu_by_zero_traps :
    afterR [0, 0, 0, 0, 1, 100, 0] (.divu 5 6 7) (fun t => me t (fun u => u.wait == .parked && u.pendG == 0) &&
      t.regions.any (fun r => r.kept.any (fun k => k.cause == 192 && k.i0 == 100))) = true := by decide +kernel

/-- 11 R225 (its examples). -/
theorem test_bfx_example : afterR [0x1FE0, 0x0805] (.bfx 3 1 2) (fun t => reg t 3 == 0xFF) = true := by decide +kernel
theorem test_bfxs_example : afterR [0x1FE0, 0x0805] (.bfxs 3 1 2) (fun t => reg t 3 == 0xFFFFFFFFFFFFFFFF) = true := by decide +kernel
theorem test_bfx_clamps : afterR [0xA000000000000000, 0x403C] (.bfx 3 1 2) (fun t => reg t 3 == 0xA) = true := by decide +kernel
theorem test_bfi_keeps_the_rest : afterR [0x5, 0x0404, 0xFFFF] (.bfi 3 1 2) (fun t => reg t 3 == 0xFF5F) = true := by decide +kernel
theorem test_clz_of_zero : afterR [0] (.clz 3 1) (fun t => reg t 3 == 64) = true := by decide +kernel
theorem test_ctz_of_eight : afterR [8] (.ctz 3 1) (fun t => reg t 3 == 3) = true := by decide +kernel
theorem test_popc_of_all_ones : after (.popc 11 10) (fun t => reg t 11 == 64) = true := by decide +kernel
theorem test_brev_of_one : afterR [1] (.brev 3 1) (fun t => reg t 3 == 0x8000000000000000) = true := by decide +kernel
theorem test_bswap_reverses_bytes :
    afterR [0x0102030405060708] (.bswap 3 1) (fun t => reg t 3 == 0x0807060504030201) = true := by decide +kernel
theorem test_xshf_spans_two : afterR [1, 0] (.xshf 3 1 2 4) (fun t => reg t 3 == 0x1000000000000000) = true := by decide +kernel

/-- 11 R226. -/
theorem test_addi_extends_by_sign : after (.addi 11 1 0x3FFF) (fun t => reg t 11 == 4) = true := by decide +kernel
theorem test_ori_extends_by_zeros : after (.ori 11 1 0x3FFF) (fun t => reg t 11 == 0x3FFF) = true := by decide +kernel
theorem test_movk_replaces_a_quarter :
    afterR [0, 0, 0, 0, 0x4000000000000000] (.movk 5 0 0x1000) (fun t => reg t 5 == 0x4000000000001000) = true := by decide +kernel

/-- 11 R228: cmpi.ltu with -1 fails for all ones only. -/
theorem test_cmpi_ltu_of_all_ones : after (.cmpi 1 4 10 0x1FFF) (fun t => me t (fun u => u.p == 0)) = true := by decide +kernel
theorem test_cmpi_ltu_of_five : after (.cmpi 2 4 1 0x1FFF) (fun t => me t (fun u => u.p == 6)) = true := by decide +kernel

/-- 11 R231: displacements count words from the bundle at 64; CALLR jumps to the old g7. -/
theorem test_br_back_five_words : after (.brT 1 0xFFFFB) (fun t => me t (fun u => u.pc == 44)) = true := by decide +kernel
theorem test_callr_of_g7 : after (.callr 7) (fun t => reg t 7 == 68 && me t (fun u => u.pc == 0x100)) = true := by decide +kernel
theorem test_loop_counts_down : after (.loop 1 0x3FFF) (fun t => reg t 1 == 4 && me t (fun u => u.pc == 60)) = true := by decide +kernel
theorem test_loop_of_zero_falls_through :
    afterR [0] (.loop 1 0x3FFF) (fun t => reg t 1 == 0 && me t (fun u => u.pc == 68)) = true := by decide +kernel

/-- 11 R237 to R239. -/
theorem test_rshrink_clears_released : after (.rshrink 0) (fun t => reg t 7 == 0x100 && reg t 8 == 0) = true := by decide +kernel
theorem test_sleep_below_eight_is_none : after (.sleep 1) (fun t => me t (fun u => u.wait == .none)) = true := by decide +kernel

/-- 02 R37, R38, 11 R246. -/
theorem test_swait_without_count_waits :
    after (.swait 0 1 3) (fun t => me t (fun u => u.wait != .none) && own t (fun f => f.sem 3 == ⟨0, false⟩)) = true := by
  decide +kernel
theorem test_sset_sets_count_and_poison : after (.sset 10 3) (fun t => own t (fun f => f.sem 3 == ⟨0xFFFF, true⟩)) = true := by decide +kernel

/-- 12 R255, R256; 00 R1: bytes least significant first, and four bits of one. -/
theorem test_st_writes_least_significant_first :
    afterR [0x1122334455667788, 0x4000000000001000] (.st 1 2 1 1) (fun t => t.frames.any (fun f => f.cl == 0 && f.scr == [(0x1002, 0x88), (0x1003, 0x77)])) = true := by
  decide +kernel
theorem test_st_nhi_writes_four_bits :
    afterR [0xAB, 0x4000000000001000] (.stNhi 1 2 0) (fun t => t.frames.any (fun f => f.cl == 0 && f.scr == [(0x1000, 0xB0)])) = true := by decide +kernel

/-- 12 R249: a misaligned load traps with 2.1.5 (141). -/
theorem test_misaligned_ld_traps :
    after (.ld 1 3 0 1) (fun t => me t (fun u => u.wait == .none)) = true ∧
    afterR [0x4000000000001001] (.ld 2 1 3 0) (fun t => t.regions.any (fun r => r.kept.any (fun k => k.cause == 141))) = true := by
  constructor <;> decide +kernel

/-- 14 R326: the record of a TRAP carries its immediate and the PC of the next bundle. -/
theorem test_trap_record :
    after (.trap 0xA5) (fun t => t.regions.any (fun r => r.kept.any (fun k => k.cause == 7 && k.i0 == 0xA5 && k.pc == 68))) = true := by decide +kernel

/-- 13 R276: VL is at most 1,024 elements of four bytes in one register. -/
theorem test_vsetvl_caps : after (.vsetvl 1 10 0 0) (fun t => reg t 1 == 1024) = true := by decide +kernel

/-- 03 R58: AGEQL takes 5 to 12 only. -/
theorem test_ageql_takes_five : after (.sysw 1 0x40) (fun t => (t.phy 0).ageql == 5) = true := by decide +kernel
theorem test_ageql_ignores_three : after (.sysw 11 0x40) (fun t => (t.phy 0).ageql == 8) = true := by decide +kernel

/-- 24 R434 (its example): PAT 0x55555555 under a duty of 24. -/
theorem test_effective_pattern_example : effOf 0x55555555 24 = 0xA4A4A4A4 := by decide +kernel

/-- 14 R326 (its example) as the first instruction after reset: `trap 5` is 0xB3002005. -/
theorem test_first_step_runs_the_placed_word :
    (match step (State.reset.withFetchWord 32 0xB3002005) with | .next t => me t (fun u => u.wait == .parked && u.pc == 68) | _ => false) = true := by
  decide +kernel


/-- 21 R391: AES-256 on the example of FIPS 197 (appendix C.3), there and back. -/
theorem test_aes_256_example :
    let key := List.range 32
    let plain := (List.range 16).map (fun k => 0x11 * k)
    let coded := [0x8e, 0xa2, 0xb7, 0xca, 0x51, 0x67, 0x45, 0xbf, 0xea, 0xfc, 0x49, 0x90, 0x4b, 0x49, 0x60, 0x89]
    aesEncrypt key plain = coded ∧ aesDecrypt key coded = plain := by decide +kernel

/-- 21 R391: the first block of vector 10 of IEEE 1619, under data unit 0xFF. -/
theorem test_xts_example :
    let data := [0x27, 0x18, 0x28, 0x18, 0x28, 0x45, 0x90, 0x45, 0x23, 0x53, 0x60, 0x28, 0x74, 0x71, 0x35, 0x26,
      0x62, 0x49, 0x77, 0x57, 0x24, 0x70, 0x93, 0x69, 0x99, 0x59, 0x57, 0x49, 0x66, 0x96, 0x76, 0x27]
    let tweak := [0x31, 0x41, 0x59, 0x26, 0x53, 0x58, 0x97, 0x93, 0x23, 0x84, 0x62, 0x64, 0x33, 0x83, 0x27, 0x95,
      0x02, 0x88, 0x41, 0x97, 0x16, 0x93, 0x99, 0x37, 0x51, 0x05, 0x82, 0x09, 0x74, 0x94, 0x45, 0x92]
    (xtsLine false (BitVec.ofNat 512 (natOfBytes (data ++ tweak))) 0xFF (List.range 64)).take 16 =
      [0x1c, 0x3b, 0x3a, 0x10, 0x2f, 0x77, 0x03, 0x86, 0xe4, 0x83, 0x6c, 0x99, 0xe3, 0x70, 0xcf, 0x9b] := by decide +kernel

/-- 22 R415: the key wrap of SP 800-38F on the 128-bit example of RFC 3394 under a 256-bit key. -/
theorem test_key_unwrap_example :
    kwUnwrap (List.range 32) 2 [0x64, 0xE8, 0xC3, 0xF9, 0xCE, 0x0F, 0x5B, 0xA2, 0x63, 0xE9, 0x77, 0x79, 0x05, 0x81, 0x8A, 0x2A,
      0x93, 0xC8, 0x19, 0x1E, 0x7D, 0x6E, 0x8A, 0xE7] = some ((List.range 16).map (fun k => 0x11 * k)) := by decide +kernel

/-- 22 R414: SHAKE256 of the empty string begins 46b9dd2b0ba88d13 (FIPS 202). -/
theorem test_shake256_of_nothing :
    (shake256 [] 8).map (fun b => b.toNat) = [0x46, 0xb9, 0xdd, 0x2b, 0x0b, 0xa8, 0x8d, 0x13] := by decide +kernel

/-! ### Witnesses: for every statement with hypotheses, a state and operands that meet them, clause by clause -/

/-- The result of a computation that answers or fails, where it answers. -/
def val {ε α : Type} (x : Except ε α) : Option α := match x with | .ok a => some a | .error _ => none

/-- The trap of a computation that fails. -/
def err {ε α : Type} (x : Except ε α) : Option ε := match x with | .ok _ => none | .error e => some e

theorem witness_EncodedWordDecodesToItself : ∃ i w, i.wf = true ∧ encode 0 1 i = some w :=
  ⟨.vqnt 31 4 5 7 1 4, _, by decide, rfl⟩

theorem witness_DecodedWordIsTheEncodedOne : val (decodeWord 0x80288601) = some (.sub 5 2 3) := by decide +kernel

theorem witness_UnassignedInstructionsTrap :
    small.ctx? = some ctx ∧ (0x8D000000#32).extractLsb' 24 6 = 0x0D ∧ (0xBF000000#32).extractLsb' 24 6 = 0x3F ∧
    (err (decodeBundle ctx ⟨0x8D000000, 0, false⟩)).isSome = true ∧
    err (decodeWord 0x8D000000) = some .major ∧ bitOf (0x8D000000#32) 31 = true ∧
    (∃ m, err (decodeWord 0x82080200) = some (.reserved m)) ∧ bodyOf 0x82080200 = some (.clz 1 0) ∧ isVec (.clz 1 0) = false :=
  ⟨by decide +kernel, by decide, by decide, by decide +kernel, by decide +kernel, by decide, ⟨0x200, by decide +kernel⟩, by decide +kernel, by decide⟩

/-- The machine with one word, or one pair, ready to issue. -/
def placed (w : Insn) : State := State.reset.placeWord w

/-- The machine's own turn comes to the issue of a bundle: the bundle's context and what it decodes to. -/
def turnReaches (s : State) : Option (Ctx × Bundle × List Instr) :=
  if s.agenda.isEmpty && s.auto && s.windowEvent.isNone && (s.dueEvent s.acts).isNone && s.stateEvent.isNone && s.unitTurn.isNone &&
      s.rampDone.isNone && s.remapTurn.isNone && (s.expiryEvent s.threads).isNone then
    match s.pick with
    | some t =>
      match s.frame? t.cl t.rgn t.knum with
      | some f =>
        match s.bundle? t f with
        | some b =>
          match ((s.issued t).enter t b).ctx? with
          | some c =>
            match decodeBundle c b with
            | .ok l => if (decodeChecks ((s.issued t).enter t b) c l).isNone then some (c, b, l) else none
            | .error _ => none
          | none => none
        | none => none
      | none => none
    | none => none
  else none

theorem witness_StepRunsTheDecodedInstruction :
    (turnReaches (placed 0x80288601)).map (fun x => x.2.2) = some [.sub 5 2 3] ∧
    (turnReaches (placed 0x00288601)).map (fun x => x.2.2) = some [.nop, .sub 5 2 3] ∧
    (val (decodeWord 0x80288601) = some (.sub 5 2 3) ∧ bitOf (0x80288601#32) 31 = true ∧ isVec (.sub 5 2 3) = false) ∧
    ({ small with agenda := [.formation 0] } : State).agenda = .formation 0 :: [] ∧ Instr.isEvent (.formation 0) = true ∧
    ({ small with agenda := [.nop] } : State).agenda = .nop :: [] ∧ Instr.isEvent .nop = false := by decide +kernel

theorem witness_EveryStepKeepsMemoryForm :
    small.memsOk = true ∧ (match step small with | .next _ => true | _ => false) = true := by decide +kernel

theorem witness_IntegerResults :
    allIssue small ctx [.add 1 2 10, .sub 31 31 31, .and 0 1 2, .or 1 2 3, .xor 1 2 3, .andn 1 2 3, .orn 1 2 3, .shl 1 2 10, .shr 1 2 10,
      .sra 1 10 2, .rol 1 2 3, .min 1 2 10, .max 1 2 10, .minu 1 2 10, .maxu 1 2 10, .cselT 1 2 3 0, .cselF 1 2 3 7, .pmovToG 1,
      .pmovToP 1, .mul 1 2 10, .mulh 1 10 10, .mulhu 1 10 10, .madd 1 2 3, .divu 5 1 2, .remu 0 10 2] = true := by decide +kernel

theorem witness_BitManipulationResults :
    allIssue small ctx [.clz 1 0, .ctz 31 10, .popc 1 10, .brev 1 2, .bswap 1 2, .bfx 1 2 3, .bfxs 1 2 3, .bfi 1 2 3, .xshf 1 2 3 63,
      .xshf 0 2 3 0] = true := by decide +kernel

theorem witness_ImmediateResults :
    allIssue small ctx [.addi 1 2 0x1FFF, .andi 1 2 0x2000, .ori 1 2 0x3FFF, .xori 1 2 0x3FFF, .shli 1 2 63, .shri 1 2 0, .srai 1 2 63,
      .roli 1 2 1, .movi 1 0x40000, .movk 1 3 0xFFFF, .movkZ 1 3 0] = true := by decide +kernel

theorem witness_PredicateResults :
    allIssue small ctx [.cmp 0 7 2 3, .cmp 7 0 0 31, .cmpi 0 4 2 0x1000, .plog 7 5 1 2, .plog 0 7 7 0] = true ∧
    (6#3).toNat = 6 ∧ (1#3) ≠ 0 := by decide +kernel

theorem witness_ControlTransfers :
    allIssue small ctx [.brT 1 0x7FFFF, .brF 0 0x80000, .jmp 0x800000, .call 0x7FFFFF, .jr 7, .callr 7, .ret, .loop 1 0x2000, .nop] = true := by
  decide +kernel

theorem witness_RegisterInstructionFrame : allIssue small ctx [.add 1 2 10, .movk 31 3 0] = true ∧ regDest (.movk 31 3 0) = some 31 := by
  decide +kernel

theorem witness_PredicateAndControlFrame :
    allIssue small ctx [.plog 7 5 1 2, .brF 0 7, .call 5, .callr 7, .loop 1 5] = true ∧ predDest (.plog 7 5 1 2) = some 7 ∧
    pcOnly (.brF 0 7) = true := by decide +kernel

/-- The first failing decode check of an instruction on the small machine with a changed thread or frame. -/
def failing (t : Thread) (f : Frame) (i : Instr) : Option Trap :=
  let s : State := { small with threads := [t], frames := [f] }
  match s.ctx? with
  | some c => decodeChecks s c [i]
  | none => none

theorem witness_DecodeTrapParksTheThread :
    failing thr frm (.divu 1 1 0) = some ⟨192, 5, 0, 0, 0⟩ ∧ Instr.isEvent (.divu 1 1 0) = false ∧
    (small.region? (small.fqOwner 0)).isSome = true := by decide +kernel

theorem witness_PrivilegeAndSystemRegisterTraps :
    small.ctx? = some ctx ∧ frm.level = .m ∧ sysAssigned 0x40 = true ∧ sysAssigned 0xFFF = false ∧
    failing thr { frm with level := .u } (.kbind 3) = some ⟨4, 1, BitVec.allOnes 64, 0, 0⟩ ∧
    failing thr { frm with level := .u } (.sysr 1 0x40) = some ⟨4, 0x400001, BitVec.allOnes 64, 0, 0⟩ ∧
    failing thr frm (.sysw 1 0xFFF) = some ⟨6, 0x10FFF, BitVec.allOnes 64, 0, 0⟩ := by decide +kernel

theorem witness_OperandTrapsAtDecode :
    failing { thr with allot := 8 } frm (.add 1 2 8) = some ⟨64, 8, 8, 0, 0⟩ ∧
    failing { thr with pendG := 6 } frm (.add 1 2 8) = some ⟨5, 1, 6, 0, 0⟩ ∧
    (small.ctx? = some ctx ∧ thr.getG 0 = 0 ∧ checkAllots ctx 0 [.divu 1 1 0] = none ∧ checkPending ctx 0 0 (.divu 1 1 0) = none ∧
      checkEcc small ctx 0 0 (.divu 1 1 0) = none ∧ checkAllots ctx 0 [.remu 1 1 0] = none ∧ checkPending ctx 0 0 (.remu 1 1 0) = none ∧
      checkEcc small ctx 0 0 (.remu 1 1 0) = none) ∧
    ((thr.getG 1).toNat % 4 ≠ 0 ∧ checkAllots ctx 0 [.jr 1] = none ∧ checkPending ctx 0 0 (.jr 1) = none ∧ checkEcc small ctx 0 0 (.jr 1) = none ∧
      checkAllots ctx 0 [.callr 1] = none ∧ checkPending ctx 0 0 (.callr 1) = none ∧ checkEcc small ctx 0 0 (.callr 1) = none) ∧
    failing { thr with g := [0, 0, 0, 0, 0, 0, 0, 2] } frm .ret = some ⟨133, 2, 0, 0, 0⟩ ∧
    failing thr placedFrame (.barrive 15) = some ⟨256, 15, 0xFFFFFFFF, 0, 0⟩ := by decide +kernel

theorem witness_TrapParksAndResumeReturns :
    allIssue small ctx [.trap 255] = true ∧ small.thread? thr.cl thr.slot = some thr ∧ small.region? thr.rgn = some rgn ∧ thr.late = [] ∧
    thr.replay = [] := by decide +kernel

def place1 (kind : Nat) (ea : Word) (sz : Nat) (wins : List Window) (ldc : Bool) : Option Place :=
  val (small.checkAccess 0 frm rgn 0 (scalarAcc kind ea sz wins ldc))

theorem witness_LoadsAreStarted :
    allIssue small ctx [.ld 1 3 3 0, .ld 0 5 6 0, .ld 1 8 3 0, .ldAcq 1 4 0 1, .ldc 31 5 3 0] = true ∧
    place1 0 (thr.getG 3) 8 [.localW, .peer, .global, .host, .fabric] false = some (.scratch 0 0x1000 false) ∧
    place1 0 (thr.getG 8) 8 [.localW, .peer, .global, .host, .fabric] false = some (.fabric (thr.getG 8)) ∧
    place1 0 (thr.getG 4 + 1) 1 [.localW, .peer, .global, .host] false = some (.scratch 1 0x1001 true) ∧
    (place1 0 (thr.getG 5) 8 [.global] true).isSome = true := by decide +kernel

theorem witness_AccessChecksTrap :
    allIssue small ctx [.ld 1 10 3 0, .ldAcq 1 10 3 0, .ldc 1 10 3 0, .st 1 10 3 0, .stRel 1 10 3 3 0, .stNlo 1 10 0, .stNhi 1 10 0,
      .atom 1 10 1 0 0, .atom 1 10 0 3 8, .acas 1 10 1 0, .acas 1 10 0 3] = true ∧
    ([[Window.localW, .peer, .global, .host, .fabric], [.localW, .peer, .global, .host]].all (fun w =>
      (err (small.checkAccess 0 frm rgn 0 (scalarAcc 0 (thr.getG 10) 8 w false))).isSome &&
      (err (small.checkAccess 0 frm rgn 0 (storeAcc ctx 10 0 8 w))).isSome)) = true ∧
    (err (small.checkAccess 0 frm rgn 0 (scalarAcc 0 (thr.getG 10) 8 [.global] true))).isSome = true ∧
    (err (small.checkAccess 0 frm rgn 0 (storeAcc ctx 10 0 1 [.localW, .peer]))).isSome = true ∧
    ([(4, [Window.localW, .peer, .global, .fabric]), (8, [.localW, .peer, .global])].all (fun x =>
      (err (small.checkAccess 0 frm rgn 0 (scalarAcc 2 (thr.getG 10) x.1 x.2 false))).isSome)) = true ∧
    window 0x0100000000000000 = .none ∧
    (window 0x4000000000001001 ≠ .none ∧ flagOk frm (window 0x4000000000001001) = true ∧
      window (0x4000000000001001 + 7) = window 0x4000000000001001 ∧ winField (0x4000000000001001 + 7) = winField 0x4000000000001001 ∧
      (0x4000000000001001 : Nat) % 8 ≠ 0) := by decide +kernel

def job (j : Job) : State := { small with acts := [⟨7, 0, 0, 0, [], j, 0⟩], seq := 20 }

theorem witness_LoadsReadAndWriteBack :
    let s := job (.load 5 (.scratch 0 0x1000 false) 8 true 0 0x4000000000001000 0 0)
    (∃ a, s.act? 7 = some a ∧ a.job = .load 5 (.scratch 0 0x1000 false) 8 true 0 0x4000000000001000 0 0 ∧
      s.thread? a.cl a.slot = some thr ∧ s.doneAll a.after = true ∧ s.absent a = false ∧ s.loadNow thr a = some 0) ∧
    s.placeUp 0 0 (.scratch 0 0x1000 false) = true ∧ small.acts = [] :=
  ⟨⟨⟨7, 0, 0, 0, [], _, 0⟩, rfl, rfl, rfl, rfl, by decide +kernel, by decide +kernel⟩, by decide +kernel, rfl⟩

theorem witness_LocalStoresWriteTheirBytes :
    small.memsOk = true ∧ allIssue small ctx [.st 1 3 3 0x1FF, .st 10 3 0 0, .stNlo 1 3 0, .stNhi 1 3 0] = true ∧
    val (small.checkAccess 0 frm rgn 0 (storeAcc ctx 3 0x1FF 8 [.localW, .peer, .global, .host, .fabric])) = some (.scratch 0 0xFF8 false) ∧
    val (small.checkAccess 0 frm rgn 0 (storeAcc ctx 3 0 1 [.localW, .peer])) = some (.scratch 0 0x1000 false) ∧
    (small.frame? 0 0 0).isSome = true := by decide +kernel

theorem witness_QueuedAndReleaseStores :
    allIssue small ctx [.stRel 1 3 3 1 0, .st 1 4 3 0, .stRel 1 4 3 3 0, .stNlo 1 4 0, .stNhi 1 4 0, .atom 1 4 1 0 8, .acas 15 4 0 3] = true ∧
    val (small.checkAccess 0 frm rgn 0 (storeAcc ctx 3 0 8 [.localW, .peer, .global, .host])) = some (.scratch 0 0x1000 false) ∧
    val (small.checkAccess 0 frm rgn 0 (storeAcc ctx 4 0 8 [.localW, .peer, .global, .host])) = some (.scratch 1 0x1000 true) ∧
    val (small.checkAccess 0 frm rgn 0 (storeAcc ctx 4 0 1 [.localW, .peer])) = some (.scratch 1 0x1000 true) ∧
    place1 2 (thr.getG 4) 8 [.localW, .peer, .global, .fabric] false = some (.scratch 1 0x1000 true) ∧
    small.acts = [] ∧ small.sqFree 0 0 = true ∧
    (let s1 := (((job (.load 5 (.host 0x10000) 8 false 0 0 0 0)).begin ctx).fixLocal 0 0).fixLoads 0 0 20 (.scratch 0 0x1000 false) 8
     s1.scopeSet 0 0 3 ≠ []) := by decide +kernel

/-- A load of the small thread from its own window, still to perform. -/
def ownLoad : Job := .load 5 (.scratch 0 0x1000 false) 8 true 0 0x4000000000001000 0 0

/-- What an atomic of a scope on the first bytes of the own window waits for. -/
def atomWaits (s : State) (w sz : Nat) : List Nat :=
  let s1 := (if w = 0 then s.begin ctx else (s.begin ctx).fixLocal 0 0).fixLoads 0 0 s.seq (.scratch 0 0x1000 false) sz
  s1.scopeSet 0 0 w ++ s1.accessWaits thr (.scratch 0 0x1000 false) sz

/-- A load from host memory of the small thread, still to perform. -/
def hostLoad : Job := .load 5 (.host 0x10000) 8 false 0 0 0 0

theorem witness_LocalAtomics :
    allIssue small ctx [.atom 1 3 1 0 0, .atom 1 3 0 3 8, .acas 1 3 1 0, .acas 1 3 0 2] = true ∧
    place1 2 (thr.getG 3) 8 [.localW, .peer, .global, .fabric] false = some (.scratch 0 0x1000 false) ∧
    place1 2 (thr.getG 3) 4 [.localW, .peer, .global] false = some (.scratch 0 0x1000 false) ∧
    atomWaits small 0 8 = [] ∧ atomWaits small 3 4 = [] ∧ atomWaits (job hostLoad) 3 4 = [7] ∧ atomWaits (job hostLoad) 0 8 = [] ∧
    allIssue (job hostLoad) ctx [.atom 1 3 1 0 0, .atom 1 3 0 3 8, .acas 1 3 0 3] = true ∧
    (let s := job (.atomic 5 (.scratch 0 0x1000 false) 8 0 1 0 0 0 0)
     s.act? 7 = some ⟨7, 0, 0, 0, [], .atomic 5 (.scratch 0 0x1000 false) 8 0 1 0 0 0 0, 0⟩ ∧ s.thread? 0 0 = some thr ∧ s.doneAll [] = true ∧
     s.acts.all (fun a => !s.absent a) = true ∧ s.badAt thr.rgn thr.knum (.scratch 0 0x1000 false) = none) := by decide +kernel

/-- What a FENCE of a scope waits for. -/
def fenceWaits (s : State) (k : Nat) : List Nat :=
  ((if k = 0 then s.begin ctx else (s.begin ctx).fixLocal 0 0).seal 0 0).scopeSet 0 0 k

/-- The small thread with failures kept in its latch. -/
def latched (m f : Nat) : Thread :=
  { thr with errMem := { ErrHalf.none with n := BitVec.ofNat 16 m, cause := 457, ord := 3 }, errFab := { ErrHalf.none with n := BitVec.ofNat 16 f, cause := 433, ord := 2 } }

theorem witness_FencesAndInvalidation :
    allIssue small ctx [.fence 0, .fence 4, .icinvI, .icinvC] = true ∧ fenceWaits small 0 = [] ∧ fenceWaits small 4 = [] ∧
    fenceWaits (job hostLoad) 0 = [] ∧ (job hostLoad).acts ≠ [] ∧ thr.errMem.n = 0 ∧ thr.errFab.n = 0 ∧ thr.late = [] ∧
    (allIssue (job hostLoad) ctx [.fence 3] = true ∧ fenceWaits (job hostLoad) 3 ≠ []) ∧
    ([(1, 0), (0, 1), (1, 1)].all (fun x => allIssue { small with threads := [latched x.1 x.2] } { ctx with t := latched x.1 x.2 } [.fence 2, .fence 4])) = true ∧
    ((latched 1 1).errMem.n ≠ 0 ∧ (latched 1 1).errFab.n ≠ 0 ∧ (latched 1 1).errFab.ord < (latched 1 1).errMem.ord ∧ (latched 1 0).errFab.n = 0 ∧
      (latched 0 1).errMem.n = 0) := by decide +kernel

theorem witness_SpawnsSendTheirRequest : allIssue small ctx [.spawn 2 2, .spawnt 2 7 7] = true := by decide +kernel

theorem witness_ThreadControl :
    allIssue small ctx [.quit, .setpri 7, .rshrink 0, .rshrink 3, .sleep 1, .sleep 10] = true ∧ thr.late = [] ∧ thr.g.length = 32 := by decide +kernel

/-- The small machine with another frame or thread, and its context. -/
def withFrame (f : Frame) : State := { small with frames := [f] }
def ctxF (f : Frame) : Ctx := { ctx with f := f }
def withThread (t : Thread) : State := { small with threads := [t] }
def ctxT (t : Thread) : Ctx := { ctx with t := t, allot := t.allot }

/-- The small frame with a semaphore's value. -/
def semAt (k : Nat) (v : Sem) : Frame := { frm with sems := frm.sems.set k v }

theorem witness_SemaphoreWaits :
    thr.late = [] ∧ thr.wait = .none ∧ (thr.getG 1).toNat = 5 ∧ (255 : Nat) < frm.sems.length ∧ 2 * (127#7).toNat + 1 < frm.sems.length ∧
    (allIssue (withFrame (semAt 255 ⟨5, false⟩)) (ctxF (semAt 255 ⟨5, false⟩)) [.swait 0 1 255, .qwait 0 1 7 127] = true ∧
      (semAt 255 ⟨5, false⟩).sem 255 = ⟨5, false⟩ ∧ (semAt 255 ⟨5, false⟩).sem 254 = ⟨0, false⟩) ∧
    (allIssue (withFrame (semAt 254 ⟨6, false⟩)) (ctxF (semAt 254 ⟨6, false⟩)) [.swait 2 1 255, .qwait 2 1 0 127] = true ∧
      (semAt 254 ⟨6, false⟩).sem 255 = ⟨0, false⟩ ∧ (semAt 254 ⟨6, false⟩).sem 254 = ⟨6, false⟩) ∧
    allIssue small ctx [.qwait 0 1 7 127] = true ∧
    (allIssue (withFrame (semAt 255 ⟨9, true⟩)) (ctxF (semAt 255 ⟨9, true⟩)) [.swait 0 1 255] = true ∧
      ((semAt 255 ⟨9, true⟩).sem 255).poison = true) := by decide +kernel

theorem witness_SemaphoreOperations :
    allIssue small ctx [.ssig 1 255, .ssigRemote 9 1 0, .ssigG 1 0, .ssigGRemote 9 1 0, .sset 1 255, .sread 1 255, .stry 1 7 255, .spois 255] = true ∧
    (small.begin ctx).semWaiters 0 0 0 255 = [] ∧ small.semWaiters 0 0 0 255 = [] ∧ small.frame? 0 0 0 = some frm ∧ (255 : Nat) < frm.sems.length ∧
    (withFrame (semAt 255 ⟨0xFFFF, false⟩)).semWaiters 0 0 0 255 = [] ∧ (semAt 255 ⟨0xFFFF, false⟩).sem 255 = ⟨0xFFFF, false⟩ ∧
    (withFrame (semAt 255 ⟨0xFFFF, false⟩)).frame? 0 0 0 = some (semAt 255 ⟨0xFFFF, false⟩) := by
  decide +kernel

/-- The small frame with a barrier's value. -/
def barAt (k : Nat) (v : Bar) : Frame := { frm with bars := frm.bars.set k v }

theorem witness_BarrierOperations :
    (15#4).toNat < frm.bars.length ∧ thr.wait = .none ∧ thr.late = [] ∧ thr.bsarr = false ∧ thr.barph = 0 ∧
    allIssue small ctx [.barinit 1 15, .barrive 15, .barwait 1 15, .barsync 1 15] = true ∧ frm.bar 15 = ⟨true, 2, 0, false⟩ ∧
    (allIssue (withFrame (barAt 15 ⟨true, 2, 1, true⟩)) (ctxF (barAt 15 ⟨true, 2, 1, true⟩)) [.barrive 15, .barwait 1 15, .barsync 1 15] = true ∧
      (barAt 15 ⟨true, 2, 1, true⟩).bar 15 = ⟨true, 2, 1, true⟩) := by decide +kernel

theorem witness_RemoteOperationsAreIssued :
    allIssue small ctx [.rst 1 8 3 1, .rst 1 8 0 0, .rld 1 8 3, .ratom 1 8 1 8 1, .ratom 1 8 0 0 0, .rsig 1 8 1, .rspawn 8 2, .fpath 4] = true ∧
    rgn.fkey ≠ 0 ∧ bitOf (thr.getG 8) 63 = true ∧ (thr.getG 8).toNat % 8 = 0 ∧
    (let c : Ctx := { ctx with r := { rgn with fkey := 0 } }
     let s : State := { small with regions := [{ rgn with fkey := 0 }] }
     s.ctx? = some c ∧ decodeChecks s c [.rsig 1 8 1] = none) := by decide +kernel

/-! #### Further clauses and boundary values of the statements above -/

/-- The small machine with a changed thread and one piece of its work, number 7, in flight. -/
def jobT (t : Thread) (j : Job) : State := { job j with threads := [t] }

/-- An instruction executes normally on a state with this thread. -/
def runs (s : State) (t : Thread) (i : Instr) : Bool := decide (s.ctx? = some (ctxT' t)) && (decodeChecks s (ctxT' t) [i]).isNone
where ctxT' (t : Thread) : Ctx := { ctx with t := t, allot := t.allot }

/-- The small thread behind an acquire that has not performed, and that acquire. -/
def acqThr : Thread := { thr with acq := [7] }

def acquiring : State := jobT acqThr (.load 5 (.scratch 1 0x1000 true) 8 true 1 0x4100010000001000 0 0)

theorem witness_DecodeTrapParksTheThread_ecc :
    (let s : State := { small with eccG := [(0, 0, 3)] }
     s.ctx? = some ctx ∧ decodeChecks s ctx [.add 1 2 3] = some ⟨448, 3, 0, 0, 0⟩) ∧
    ({ small with pairs := [(0, { Pair.reset with window := some (2, 64) })] } : State).ctx? = some ctx := by decide +kernel

theorem witness_LoadsReadAndWriteBack_sound :
    (let s := job (.load 5 (.scratch 0 0x1000 false) 8 true 0 0x4000000000001000 0 0)
     (∀ a ∈ s.acts, s.loadBad thr a = none)) ∧
    ∀ q, (job (.load 5 (.scratch 0 0x1000 false) 8 true 0 0x4000000000001000 0 0)).ownWrites 0 0 7 q = [] :=
  ⟨by decide +kernel, fun _ => rfl⟩

theorem witness_LocalStoresWriteTheirBytes_behind_an_acquire :
    [Instr.st 1 3 3 0, .stNlo 1 3 0, .stNhi 1 3 0, .stRel 1 3 3 3 0].all (runs acquiring acqThr) = true ∧
    ((acquiring.begin ctx).fixLoads 0 0 acquiring.seq (.scratch 0 0x1000 false) 8).accessWaits acqThr (.scratch 0 0x1000 false) 8 ≠ [] ∧
    ((small.begin ctx).fixLoads 0 0 small.seq (.scratch 0 0x1000 false) 1).accessWaits thr (.scratch 0 0x1000 false) 1 = [] ∧
    acquiring.memsOk = true := by decide +kernel

/-- A data write of the small thread to a line of cluster 1's window. -/
def peerStore : Entry :=
  { cls := 0, line := .scratch 1 0x1000 true, mask := 1, kind := .data [(0, 0xAB)], release := false, ea := 0, i1 := 0, words := 0, rgn := 0, knum := 0,
    ack := none, mcast := [], note := none, sealed := false, queued := true }

/-- The store queue of cluster 0 with no entry left. -/
def fullQueue : State := { small with acts := (List.range 48).map (fun k => ⟨k, 0, 0, 0, [], .entry peerStore, 0⟩), seq := 60 }

theorem witness_QueuedAndReleaseStores_entries :
    (job (.entry peerStore)).mergeTarget 0 0 [] peerStore = some 7 ∧ (job (.entry peerStore)).sqFree 0 0 = true ∧
    fullQueue.sqFree 0 0 = false ∧ ({ fullQueue with acts := fullQueue.acts.tail } : State).sqFree 0 0 = true ∧
    small.mergeTarget 0 0 [] peerStore = none ∧ (small.thread? 0 0).isSome = true ∧ { peerStore with release := true }.release = true ∧
    (∀ x ∈ (job (.entry peerStore)).acts, x.id = 7 ∧ x.job = .entry peerStore ∧ peerStore.kind = .data [(0, 0xAB)]) := by decide +kernel

theorem witness_LocalAtomics_sound :
    small.badAt 0 0 (.scratch 0 0x1000 false) = none ∧ (8#5).toNat ≤ 8 ∧
    (∀ crc : Bool, ({ small with bad := [⟨false, 0, 0, 0, 0x40, crc⟩] } : State).badAt 0 0 (.scratch 0 0x1000 false) = some crc) := by decide +kernel

theorem witness_SemaphoreWaits_poison :
    (let f := semAt 254 ⟨9, true⟩
     allIssue (withFrame f) (ctxF f) [.qwait 0 1 7 127] = true ∧ (f.sem 254).poison = true) ∧
    (let f := semAt 255 ⟨9, true⟩
     allIssue (withFrame f) (ctxF f) [.qwait 0 1 7 127] = true ∧ (f.sem 254).poison = false ∧ (f.sem 255).poison = true) := by decide +kernel

theorem witness_BarrierOperations_waiting :
    (((job hostLoad).begin ctx).fixLocal 0 0).scopeSet 0 0 1 = [] ∧ small.arriving 0 0 15 = false ∧
    (let s := job (.load 5 (.scratch 0 0x1000 false) 8 true 1 0x4000000000001000 0 0)
     let t : Act := ⟨8, 0, 0, 0, [], .load 5 (.scratch 0 0x1000 false) 8 true 0 0x4000000000001000 0 0, 0⟩
     let s1 : State := { s with acts := s.acts.map (fun a => { a with after := [8] }) ++ [{ t with after := [7] }] }
     allIssue s1 ctx [.barrive 15, .barsync 1 15] = true ∧ ((s1.begin ctx).fixLocal 0 0).scopeSet 0 0 1 ≠ []) ∧
    (let s := job (.arrive 0 0 15)
     s.arriving 0 0 15 = true ∧ allIssue s ctx [.barrive 15, .barwait 1 15, .barsync 1 15] = true ∧ s.frame? 0 0 0 = some frm ∧ s.doneAll [] = true ∧
     ({ s with acts := s.acts.map (fun a => { a with after := [7] }) } : State).doneAll [7] = false ∧ 15 < frm.bars.length) := by decide +kernel

theorem witness_BarrierOperations_again :
    (let t : Thread := { thr with bsarr := true }
     runs (withThread t) t (.barsync 1 15) = true ∧ frm.bar 15 = ⟨true, 2, 0, false⟩ ∧ t.barph.getLsbD 15 = false) ∧
    (let t : Thread := { thr with bsarr := true, barph := 0x8000 }
     runs (withThread t) t (.barsync 1 15) = true ∧ t.barph.getLsbD 15 = true) := by decide +kernel

theorem witness_RemoteOperationsAreIssued_traps :
    allIssue small ctx [.rst 1 3 3 1, .rld 1 3 3, .ratom 1 3 1 8 1] = true ∧ bitOf (thr.getG 3) 63 = false ∧
    (let t : Thread := { thr with g := regs.set 8 0x8001000000001001 }
     [Instr.rst 1 8 1 1, .rld 1 8 3, .ratom 1 8 0 8 1].all (runs (withThread t) t) = true ∧ bitOf (t.getG 8) 63 = true ∧
     (t.getG 8).toNat % 2 ≠ 0 ∧ (t.getG 8).toNat % 4 ≠ 0 ∧ (t.getG 8).toNat % 8 ≠ 0) := by decide +kernel

theorem witness_VectorInstructionsAreIssued :
    thr.vstop = false ∧
    allIssue small ctx [.vld 0 3 0 3, .vlds 3 3 2 7 0, .vldx 1 3 2 0 0, .vldt 1 3 0 0, .vst 1 3 0 0, .vsts 1 3 2 0 0, .vstx 1 3 2 0 0,
      .vsig 255 3, .vadd 1 2 3 0, .vsub 1 2 3 0, .vmul 1 2 3 0, .vfma 1 2 3 0, .vfms 1 2 3 0, .vfnma 1 2 3 0, .vmin 1 2 3 0, .vmax 1 2 3 0,
      .vabs 1 2 0, .vneg 1 2 0, .vclass 1 2 0, .vexp2 1 2 0, .vlog2 1 2 0, .vrcp 1 2 0,
      .vrsq 1 2 0, .vsqrt 1 2 0, .vtanh 1 2 0, .vcvt 1 2 1 0 0 0, .vqnt 1 2 3 0 0 0, .vdq 1 2 3 0 0, .vrseed 1 2 0, .vrng 1 0, .vred 1 2 0 0,
      .vscan 1 2 0 0, .vperm 1 2 3 0, .vshuf 1 2 3 0, .vcmp 7 1 2 0 0, .vsel 1 2 3 0, .vmlog 1 2 3 0, .vrot 1 2 3 0,
      .vbcast 1 2 0, .vmovsToV 1 2, .vmovsToG 11 2, .vext 11 2 3, .vmpop 11 7] = true ∧
    allIssue (withThread { thr with vtype := 5 }) (ctxT { thr with vtype := 5 }) [.viadd 1 2 3 0, .visub 1 2 3 0, .vimul 1 2 3 0, .vimad 1 2 3 0,
      .vimin 1 2 3 0, .vimax 1 2 3 0, .vand 1 2 3 0, .vor 1 2 3 0, .vxor 1 2 3 0, .vshl 1 2 3 0, .vshr 1 2 3 0, .vsra 1 2 3 7, .vred 1 2 0 5,
      .vicmp 0 1 2 0 7, .viota 1 0] = true := by decide +kernel

theorem witness_VectorLengthAndWait : allIssue small ctx [.vsetvl 0 10 7 3, .vsetvl 1 2 0 0, .vwait] = true ∧ (7#4).toNat ≤ 7 := by decide +kernel

/-- The capture of a VIADD on the small machine, of four elements of 32 bits. -/
def cap : Captured := { capture small ctx (.viadd 1 2 3 0) 0 0 0 none with vtype := 5, vl := 4 }

theorem witness_IntegerElementsAndInactiveOnes :
    cap.vl ≤ cap.vlmax ∧ 3 < cap.vlmax ∧ (1#5).toNat + cap.g ≤ thr.v.length ∧ 3 < cap.vl ∧ ¬ 4 < cap.vl ∧ 4 < cap.vlmax := by decide +kernel

theorem witness_EngineCommandsAreIssued :
    allIssue small ctx [.mclr 7 255 3, .mmode 0 0 0, .mrnm 2 0 0, .msave 2 0 0, .mload 2 0 0, .mhdr 2 0 0, .mstat 7, .mdrain 2 0 0, .mpass 2 0 0 6,
      .mpassh 2 0 0 0, .cpy 2 0 0, .cpyx 2 0 0, .cpym 2 0 0, .cpyf 2 0 0, .cbcfg 2 0 0, .cbpush 2 0 0, .cbnext 2, .cbdone 2 0 0, .cbstat 2] = true := by
  decide +kernel

theorem witness_SystemRegisterReadsAndWrites :
    allIssue small ctx [.sysr 1 0, .sysr 0 1, .sysr 1 0x41, .sysr 31 2, .sysw 1 3, .sysw 1 0x12, .sysw 1 0x13, .sysw 1 0x15, .sysw 1 0x18, .sysw 1 0x10,
      .sysw 1 0x20, .sysw 1 0x23, .sysw 1 0x40] = true ∧ sysWritable 3 .m = false ∧ frm.level = .m := by decide +kernel

/-- A parked thread in slot 1 beside the small one, and a descriptor in its scratchpad window. -/
def parkedThr : Thread := { thr with slot := 1, wait := .parked }

def withDesc (cells : List Host.Cell) : State :=
  { small with frames := [{ frm with scr := cells }, { frm with cl := 1 }, { frm with knum := 3, cb := none }], threads := [thr, parkedThr] }

def descOf (s : State) : List Byte := match s.ctx? with
  | some c => (match (s.begin c).descPlaces c (c.t.getG 3) 0 4 with | .ok ps => (s.begin c).descBytes c ps | .error _ => [])
  | none => []

/-- The premises that the context instructions share, and the STATUS with which an instruction is refused, 0 for none. -/
def ctxReady (s : State) (op : CtxOp) (i : Instr) : Option Nat := match s.ctx? with
  | some c =>
    let s1 := s.begin c
    match s1.descPlaces c (c.t.getG 3) 0 4, s.checkAccess 0 c.f c.r 0 (descAcc (c.t.getG 3) 4 1) with
    | .ok ps, .ok _ =>
      if s1.scopeSet 0 0 3 ++ s1.openAcq c.t = [] ∧ ps.all (fun p => (s1.badAt 0 0 p).isNone) = true ∧ decodeChecks s c [i] = none then some (s1.ctxStatus op c.f.level 0 (s1.descBytes c ps)) else none
    | _, _ => none
  | none => none

/-- The buffer's places pass their checks and hold no error. -/
def bufReady (s : State) (kind : Nat) : Bool := match s.ctx? with
  | some c => (match (s.begin c).descPlaces c (BitVec.ofNat 64 (dfield (descOf s) 0x18 8)) kind (dfield (descOf s) 0x0C 4 / 8) with
    | .ok bp => bp.all (fun p => ((s.begin c).badAt 0 0 p).isNone)
    | .error _ => false)
  | none => false

theorem witness_ContextInstructions :
    ctxReady (withDesc []) .resume (.tresume 3) = some 3 ∧ ctxReady (withDesc [(0x1014, 1)]) .read (.tctxr 3) = some 7 ∧
    ctxReady (withDesc [(0x1014, 1)]) .write (.tctxw 3) = some 7 ∧ ctxReady (withDesc [(0x1006, 9)]) .kill (.tkill 3) = some 2 ∧
    ctxReady (withDesc [(0x1006, 1)]) .resume (.tresume 3) = some 0 ∧ ctxReady (withDesc [(0x1006, 1), (0x1008, 1)]) .kill (.tkill 3) = some 0 ∧
    (let s := withDesc [(0x1006, 1), (0x100C, 8), (0x1019, 0x20), (0x101F, 0x40)]
     ctxReady s .read (.tctxr 3) = some 0 ∧ ctxReady s .write (.tctxw 3) = some 0 ∧ bufReady s 1 = true ∧ bufReady s 0 = true ∧
     ((s.begin ctx).ctxThread (descOf s)) = some parkedThr) := by decide +kernel

theorem witness_BindInstructionsAndTeardown :
    (let s := withDesc [(0x1004, 3)]
     let c := ctxF { frm with scr := [(0x1004, 3)] }
     let ea := thr.getG 3
     s.ctx? = some c ∧ (s.begin c).scopeSet 0 0 3 ++ (s.begin c).openAcq c.t ++ (s.begin c).bindBusy = [] ∧ decodeChecks s c [.kbind 3] = none ∧ decodeChecks s c [.kunbind 3] = none ∧
     (val ((s.begin c).checkAccess 0 c.f c.r 0 { descAcc ea 8 0 with align := 64 })).isSome = true ∧
     (val ((s.begin c).descPlaces c ea 0 8)).isSome = true ∧ (val ((s.begin c).descPlaces c ea 1 1)).isSome = true ∧
     (val ((s.begin c).descPlaces c ea 0 2)).isSome = true ∧ (val ((s.begin c).descPlaces c ea 1 2)).isSome = true ∧
     (s.begin c).unbindStatus .m 0 (some 0) (descOf s) = 0) ∧
    (let t : Teardown := ⟨7, 0, 3, 2, true, 0, 512, 0, 0, []⟩
     ({ withDesc [] with teardowns := [t] } : State).teardowns.find? (fun x => x.id == t.id) = some t ∧
     ({ withDesc [] with teardowns := [t] } : State).drained t.rgn t.knum = true) := by decide +kernel

theorem witness_InstructionFetch :
    (small.thread? thr.cl thr.slot = some thr ∧ small.frame? thr.cl thr.rgn thr.knum = some frm ∧ small.region? thr.rgn = some rgn ∧
      thr.running = true ∧ frm.stopped = false ∧ small.bundle? thr frm = none ∧ frm.inCode thr.fetchPc = true ∧ small.iLine 0 0 thr.fetchPc = none ∧
      (match small.translate rgn (thr.fetchPc.toNat % 2 ^ 48 / 64 * 64) 3 false with
       | .ok x => (small.badAt 0 0 (.global x.1 x.2.1 x.2.2)).isNone | .error _ => false) = true) ∧
    (let t : Thread := { thr with pc := 60 }
     (withThread t).thread? 0 0 = some t ∧ t.running = true ∧ (withThread t).bundle? t frm = none ∧ frm.inCode t.fetchPc = false) ∧
    (let s : State := { small with keys := [] }
     s.bundle? thr frm = none ∧ s.iLine 0 0 thr.fetchPc = none ∧ (err (s.translate rgn (thr.fetchPc.toNat % 2 ^ 48 / 64 * 64) 3 false)).isSome = true) := by
  decide +kernel

/-- The one act of `job`. -/
def jobAct (j : Job) : Act := ⟨7, 0, 0, 0, [], j, 0⟩

theorem witness_ResultsReachTheirRegisters :
    (∀ j : Job, (job j).act? 7 = some (jobAct j) ∧ (job j).thread? (jobAct j).cl (jobAct j).slot = some thr ∧
      (job j).frame? thr.cl thr.rgn thr.knum = some frm ∧ (job j).doneAll (jobAct j).after = true ∧ (job j).absent (jobAct j) = false) ∧
    (0#64).toNat ≤ (frm.sem 0).count.toNat ∧ (frm.sem 0).poison = false ∧ (frm.sem 0).count.toNat < (1#64).toNat ∧
    (job (.load 5 (.host 0x10000) 8 true 0 0 0 0)).loadNow thr (jobAct (.load 5 (.host 0x10000) 8 true 0 0 0 0)) = some 0 :=
  ⟨fun _ => ⟨rfl, rfl, rfl, rfl, rfl⟩, by decide +kernel, by decide +kernel, by decide +kernel, by decide +kernel⟩

theorem witness_LateFailuresParkWithoutAResult :
    (∀ j : Job, (job j).act? 7 = some (jobAct j) ∧ (job j).thread? (jobAct j).cl (jobAct j).slot = some thr ∧ (jobAct j).slot < 512 ∧
      (job j).absent (jobAct j) = false) ∧
    thr.wait = .none ∧ thr.late = [] ∧ (∀ h, Place.scratch 0 0x1000 false ≠ .host h) ∧ (456 : BitVec 9) = 456 ∧ (1 : BitVec 16) ≠ 0 :=
  ⟨fun _ => ⟨rfl, rfl, (by decide : (0 : Nat) < 512), rfl⟩, by decide +kernel, by decide +kernel, fun _ h => Place.noConfusion h, rfl, by decide⟩

/-- A data write of the small thread to a line. -/
def dataEntry (pl : Place) (queued : Bool) : Entry :=
  { cls := 0, line := pl, mask := 1, kind := .data [(0, 0xAB)], release := false, ea := 0, i1 := 0, words := 0, rgn := 0, knum := 0, ack := none,
    mcast := [], note := none, sealed := false, queued := queued }

theorem witness_DepartedWritesPerform :
    (let e := dataEntry (.scratch 1 0 true) true
     (job (.flight e)).act? 7 = some (jobAct (.flight e)) ∧ (job (.flight e)).mayPerform (jobAct (.flight e)) = some e ∧ thr.wait ≠ .release [7]) ∧
    (let e := dataEntry (.global 0x40000000 1 ⟨0x40000000, [], 0, 0⟩) true
     (job (.flight e)).mayPerform (jobAct (.flight e)) = some e ∧ (job (.flight e)).thread? 0 0 = some thr) := by decide +kernel

/-- The small machine with one queued store and credit to send it. -/
def queuedStore : State := { job (.entry (dataEntry (.scratch 1 0 true) true)) with clus := [(0, { Clus.reset with credit := 1000 })] }

theorem witness_WriteLane :
    (3 : Nat) < 4 ∧ (queuedStore.mayDepart 0).isSome = true ∧ (∀ t ∈ queuedStore.threads, t.wait = .none) ∧
    (∀ x ∈ queuedStore.acts, x.job = .entry (dataEntry (.scratch 1 0 true) true)) := by decide +kernel

/-- A command of the small thread at the head of its port. -/
def cmdOf (p : Port) (i : Instr) (v : Option Captured) : Cmd :=
  { id := 7, port := p, cl := 0, slot := 0, rgn := 0, knum := 0, seq := 0, prio := 0, since := 0, ord := 1, instr := i, word := 0,
    group := [0, 0, 0, 0], swz := [0, 0, 0, 0], width := 1, vec := v, waits := [] }

def withCmd (p : Port) (i : Instr) (v : Option Captured) : State := { small with cmds := [cmdOf p i v], seq := 20 }

theorem witness_CommandsStart :
    (withCmd .matrix (.mclr 2 0 0) none).startable 0 .matrix = some (cmdOf .matrix (.mclr 2 0 0) none) ∧
    (withCmd .batcher (.cbstat 2) none).startable 0 .batcher = some (cmdOf .batcher (.cbstat 2) none) ∧
    (withCmd .copy (.cpy 2 0 0) none).startable 0 .copy = some (cmdOf .copy (.cpy 2 0 0) none) ∧
    (withCmd .vector (.viadd 1 2 3 0) (some cap)).startable 0 .vector = some (cmdOf .vector (.viadd 1 2 3 0) (some cap)) ∧
    cap.instr = .viadd 1 2 3 0 ∧ small.thread? 0 0 = some thr ∧ small.frame? 0 0 0 = some frm ∧ small.region? 0 = some rgn := by decide +kernel

/-- The end of a command. -/
def endingOf (sem : Option (Nat × Nat)) (dst : Option (BitVec 5 × Word)) (e : Option (Nat × Word × Word × Word × Word)) : Ending :=
  { port := .matrix, rgn := 0, knum := 0, sem := sem, dst := dst, err := e, cid := 9, bytes := 64 }

theorem witness_CommandsEndAndRetire :
    (∀ j : Job, (job j).act? 7 = some (jobAct j) ∧ (job j).goneAll (jobAct j).after = true ∧ (job j).thread? 0 0 = some thr) ∧
    (endingOf (some (3, 1)) none none).err = none ∧ (endingOf none (some (8, 5)) none).dst = some (8, 5) ∧
    (endingOf (some (3, 1)) none (some (320, 0, 0, 0, 0))).sem = some (3, 1) ∧
    (endingOf none (some (8, 5)) (some (320, 0, 0, 0, 0))).err = some (320, 0, 0, 0, 0) ∧ thr.late = [] :=
  ⟨fun _ => ⟨rfl, rfl, rfl⟩, rfl, rfl, rfl, rfl, rfl⟩

/-- A batcher whose stream is closed, with one constraint, and with a flight size of zero or more. -/
def cb (fmax : Nat) : Batcher :=
  { Batcher.fresh with cfg := true, closed := true, fmax := fmax, nextIndex := 1, stream := [(0, 0)], forming := true }

theorem witness_FlightsAreFormed :
    (let s := withFrame { frm with cb := some (cb 8) }
     s.cbFrame 0 = some ({ frm with cb := some (cb 8) }, cb 8) ∧ (cb 8).mayForm = true ∧ (cb 8).freeSlot = some 0 ∧ (cb 8).nextFlight = [(0, 0)]) ∧
    ((cb 0).mayForm = true ∧ (cb 0).freeSlot = some 0 ∧ (cb 0).nextFlight = []) := by decide +kernel

def spawnReq : SpawnReq := ⟨0, 0, 0, 0, [1, 2, 3, 4], some (1, 3), 7, 0, 0, 0⟩

/-- Room for more threads, and a request in the queue. -/
def roomy : Frame := { frm with hdr := { frm.hdr with kmaxt := 8 } }

theorem witness_SpawnRequestsAndAdmission :
    (∀ j : Job, (job j).act? 7 = some (jobAct j) ∧ (job j).frame? 0 0 0 = some frm ∧ frm.stopped = false ∧ (job j).thread? 0 0 = some thr ∧
      (job j).absent (jobAct j) = false) ∧
    (job (.spawn spawnReq (some 3))).queueTakes spawnReq = true ∧
    ({ job (.spawn spawnReq (some 3)) with clus := [(0, { Clus.reset with spawnq := List.replicate 64 spawnReq })] } : State).queueTakes spawnReq = false ∧
    (let s : State := { job (.spawn spawnReq none) with threads := [{ thr with wait := .spawn 7 0 }] }
     s.act? 7 = some (jobAct (.spawn spawnReq none)) ∧ s.queueTakes spawnReq = true ∧ s.thread? 0 0 = some { thr with wait := .spawn 7 0 }) ∧
    (let s : State := { small with frames := [roomy], clus := [(0, { Clus.reset with spawnq := [spawnReq] })] }
     s.firstAdmissible 0 (s.clu 0).spawnq [] = some spawnReq ∧ s.frame? 0 0 0 = some roomy ∧ s.admittedNow 0 = false ∧ (s.freeSlot 0).isSome = true ∧ s.region? 0 = some rgn) :=
  ⟨fun _ => ⟨rfl, rfl, rfl, rfl, rfl⟩, by decide +kernel, by decide +kernel, by decide +kernel, by decide +kernel⟩

theorem witness_WaitLimitsExpire :
    (∀ w : Wait, (withThread { thr with wait := w }).thread? 0 0 = some { thr with wait := w } ∧
      (withThread { thr with wait := w }).frame? 0 0 0 = some frm) ∧ frm.stopped = false ∧
    ({ thr with wait := .sem 3 5 9 9 1 } : Thread).wait = .sem 3 5 9 9 1 ∧ (9 : Word) ≠ 0 ∧
    ({ job (.spawn spawnReq none) with threads := [{ thr with wait := .spawn 7 9 }] } : State).act? 7 = some (jobAct (.spawn spawnReq none)) ∧
    (9 : Nat) ≠ 0 ∧ thr.late = [] ∧ (small.region? (small.fqOwner 0)).isSome = true :=
  ⟨fun _ => ⟨rfl, rfl⟩, rfl, rfl, by decide, rfl, by decide, rfl, by decide +kernel⟩

theorem witness_SignalsFencesAndQuits :
    (let j : Job := .signal 0 0 0 3 65535 true
     (job j).act? 7 = some (jobAct j) ∧ (job j).frame? 0 0 0 = some frm ∧ (job j).doneAll [] = true ∧ (frm.sem 3).count.toNat + (65535#64).toNat ≤ 65535) ∧
    (let t : Thread := { thr with wait := .fence 2 [] 0 }
     (withThread t).thread? 0 0 = some t ∧ (withThread t).doneAll [] = true ∧ (withThread t).savingOn 0 0 = false ∧ t.errMem.n = 0 ∧ t.errFab.n = 0 ∧ t.late = [] ∧
     ({ t.errMem with n := 1 } : ErrHalf).n ≠ 0) ∧
    (let t : Thread := { thr with wait := .quit, join := some (1, 3) }
     (withThread t).thread? 0 0 = some t ∧ (withThread t).quitDone t = true ∧ (withThread t).savingOn 0 0 = false ∧ ({ t with join := none } : Thread).join = none) := by decide +kernel

/-! #### Further clauses and boundary values of the statements above -/

theorem witness_VectorInstructionsAreIssued_behind_a_trap :
    (let t : Thread := { thr with vstop := true }
     runs (withThread t) t (.vadd 1 2 3 0) = true ∧ t.vstop = true) := by decide +kernel

theorem witness_SystemRegisterReadsAndWrites_by_level :
    allIssue small ctx [.sysw 1 0x48, .sysw 1 0x49, .sysw 1 0x50, .sysw 31 0x17] = true ∧ sysWritable 0x48 .m = true ∧ sysWritable 0x49 .m = true ∧
    sysWritable 0x50 .m = true ∧ thr.fpAt = small.now ∧
    (let t : Thread := { thr with fpAt := 5, fpPaths := [3] }
     runs (withThread t) t (.sysw 1 0x15) = true ∧ t.fpAt ≠ small.now) := by decide +kernel

theorem witness_ContextInstructions_waiting :
    (let s := job (.load 5 (.host 0x10000) 8 false 0 0 0 0)
     (s.begin ctx).scopeSet 0 0 3 ≠ [] ∧ allIssue s ctx [.tresume 3, .tctxr 3, .tctxw 3, .tkill 3, .kbind 3, .kunbind 3] = true) ∧
    (let s := withDesc [(0x1006, 1), (0x1008, 1)]
     (s.begin (ctxF { frm with scr := [(0x1006, 1), (0x1008, 1)] })).ctxThread (descOf s) = some parkedThr) := by decide +kernel

theorem witness_BindInstructionsAndTeardown_refused :
    (let s := withDesc [(0x1004, 9)]
     let c := ctxF { frm with scr := [(0x1004, 9)] }
     s.ctx? = some c ∧ (s.begin c).scopeSet 0 0 3 ++ (s.begin c).openAcq c.t ++ (s.begin c).bindBusy = [] ∧ decodeChecks s c [.kunbind 3] = none ∧
     (s.begin c).unbindStatus .m 0 (some 0) (descOf s) = 2 ∧
     (match (s.begin c).descPlaces c (thr.getG 3) 0 8 with | .ok ps => ps.all (fun p => ((s.begin c).badAt 0 0 p).isNone) | .error _ => false) = true) ∧
    (let t : Teardown := ⟨7, 0, 3, 0, false, 0, 0, 0x4000000000001000, 0, []⟩
     let u : Thread := { thr with wait := .desc [7] 0 0 }
     let s : State := { withDesc [] with teardowns := [t], threads := [u] }
     s.teardowns.find? (fun x => x.id == t.id) = some t ∧ s.drained t.rgn t.knum = true ∧
     ((({ s with teardowns := [] } : State).dropAct 7).removeKernel 0 3).thread? 0 0 = some u) ∧
    (({ small with cmds := [cmdOf .copy (.cpy 2 0 0) none] } : State).drained 0 0 = false) := by decide +kernel

/-- The line at address 64 of the code whose first word opens a pair, held by the instruction cache. -/
def pairLine : State := (small.fillI 0 0 64 true (BitVec.ofNat 512 0x1C000000))

theorem witness_InstructionFetch_errors :
    (let f : Frame := { frm with hdr := { frm.hdr with kcode := 4 } }
     let s : State := { pairLine with frames := [f] }
     s.bundle? thr f = none ∧ f.inCode 64 = true ∧ (s.iLine 0 0 64).isSome = true ∧
     (match s.iLine 0 0 64 with | some l => opensPair (lineWord l 64) 64 | none => false) = true ∧ f.inCode (64 + 4) = false ∧ thr.soloC = false ∧
     thr.fetchPc = 64) ∧
    (match small.translate rgn 64 3 false with
     | .ok x => decide (({ small with bad := [⟨true, 0, 0, 0, x.1 / 64, true⟩] } : State).badAt 0 0 (.global x.1 x.2.1 x.2.2) = some true)
     | .error _ => false) = true := by decide +kernel

theorem witness_ResultsReachTheirRegisters_aperture :
    (let j : Job := .load 5 (.host 0x10000) 8 true 0 0 0 0
     ∀ x ∈ (job j).acts, x.entry? = none) ∧ (frm.sem 0).count.toNat + 1 ≤ 65535 := by decide +kernel

/-- An atomic of the small thread on a line of HBM. -/
def atomicEntry (op : Nat) : Entry := { peerStore with line := .global 0x40000000 1 ⟨0x40000000, [], 0, 0⟩, kind := .atomic 0 8 op 1 0 5, release := true }

theorem witness_LateFailuresParkWithoutAResult_atomics :
    (∀ j : Job, (job j).act? 7 = some (jobAct j)) ∧ (atomicEntry 9).ack = none ∧ (atomicEntry 9).kind = .atomic 0 8 9 1 0 5 ∧ 9 < 10 ∧
    (143 : BitVec 9) = 143 ∧ (∀ h, Place.host 0x10000 = .host h → h = 0x10000) :=
  ⟨fun _ => rfl, rfl, rfl, by decide, rfl, fun _ h => (Place.host.inj h).symm⟩

theorem witness_DepartedWritesPerform_in_every_memory :
    (let e := { peerStore with line := Place.host 0x10000 }
     (job (.flight e)).mayPerform (jobAct (.flight e)) = some e ∧ e.ack = none ∧ e.cls = 0 ∧ e.note = none ∧ e.kind = .data [(0, 0xAB)]) ∧
    thr.late = [] ∧ (jobAct (.flight peerStore)).slot < 512 ∧ small.absent (jobAct (.flight peerStore)) = false ∧
    (∀ g, small.region? (small.fqOwner 0) = some g → g = rgn → g.full = false ∧ g.failing = false) ∧
    (jobT { thr with wait := .release [7] } (.flight peerStore)).thread? 0 0 = some { thr with wait := .release [7] } := by decide +kernel

theorem witness_WriteLane_tiers :
    small.windowDue 3 = true ∧ ({ small with dies := [(3, { Die.reset with win := 1 })] } : State).windowDue 3 = false ∧
    queuedStore.inCredit 0 = true ∧
    (let s : State := { queuedStore with clus := [] }
     s.inCredit 0 = false ∧ (s.mayDepart 0).isSome = true) ∧
    (∀ t ∈ queuedStore.threads, t.wait = .none) := by decide +kernel

theorem witness_CommandsStart_fabric :
    let a : Act := ⟨7, 0, 0, 0, [], .remote (remoteOf 0 0x8001000000001000 0 0 3 8 false 0 false), 0⟩
    let s : State := { small with acts := [a], seq := 20 }
    s.fabChosen 0 = some (a, remoteOf 0 0x8001000000001000 0 0 3 8 false 0 false) := by decide +kernel

theorem witness_CommandsEndAndRetire_waiting :
    (let t : Thread := { thr with wait := .vwait }
     let s := jobT t (.vretire 0 0 0x3F)
     s.thread? 0 0 = some t ∧ t.late = [] ∧ (s.dropAct 7).unretired 0 0 = 0 ∧ s.goneAll [] = true) ∧
    (let s := job (.vsig 0 0 255 8)
     s.act? 7 = some (jobAct (.vsig 0 0 255 8)) ∧ s.goneAll [] = true ∧ s.frame? 0 0 0 = some frm ∧ 255 < frm.sems.length ∧
     s.semWaiters 0 0 0 255 = [] ∧ s.thread? 0 0 = some thr ∧ thr.wait ≠ .vwait ∧ s.goneAll [7] = false) := by decide +kernel

/-- A formed flight whose list is on its way, or written. -/
def flightOf (ids : List Nat) (published : Bool) : Flight := ⟨0, 0, [(0, 0)], published, false, ids⟩

theorem witness_FlightsAreFormed_published :
    (let b : Batcher := { cb 8 with flights := [flightOf [] false], closed := false }
     let f : Frame := { frm with cb := some b }
     (withFrame f).cbFrame 0 = some (f, b) ∧ (withFrame f).frame? 0 0 0 = some f ∧ b.flights.find? (fun x => !x.published) = some (flightOf [] false) ∧
     (withFrame f).goneAll [] = true ∧ (withFrame f).semWaiters 0 0 0 b.fsem = [] ∧ b.fsem < f.sems.length ∧ b.closed = false) ∧
    ({ job (.entry peerStore) with frames := [frm] } : State).goneAll (flightOf [7] false).writes = false ∧
    ({ cb 8 with forming := false } : Batcher).mayForm = false ∧ (cb 8).flights.find? (fun x => !x.published) = none := by decide +kernel

theorem witness_SpawnRequestsAndAdmission_tags : small.absent (jobAct (.spawn spawnReq none)) = false ∧ thr.late = [] := by decide +kernel

theorem witness_WaitLimitsExpire_each :
    (9 : Word) ≠ 0 ∧ (9 : Nat) ≠ 0 ∧ ({ thr with wait := .ring 7 254 5 9 9 1 } : Thread).wait = .ring 7 254 5 9 9 1 ∧
    ({ thr with wait := .bar 15 true 9 9 1 } : Thread).wait = .bar 15 true 9 9 1 ∧
    ({ thr with wait := .store peerStore none 9 1 } : Thread).wait = .store peerStore none 9 1 ∧
    ({ thr with wait := .sleep 9 } : Thread).wait = .sleep 9 := by decide +kernel

theorem witness_SignalsFencesAndQuits_traps :
    (let f := semAt 255 ⟨0xFFFF, false⟩
     let s : State := { job (.signal 0 0 0 255 1 true) with frames := [f] }
     s.act? 7 = some (jobAct (.signal 0 0 0 255 1 true)) ∧ s.frame? 0 0 0 = some f ∧ f.stopped = false ∧ s.doneAll [] = true ∧
     65535 < (f.sem 255).count.toNat + (1#64).toNat ∧ s.thread? 0 0 = some thr ∧ thr.wait = .none ∧ thr.late = [] ∧
     s.semWaiters 0 0 0 255 = [] ∧ 255 < f.sems.length ∧ s.acts.all (fun a => !s.absent a) = true) ∧
    (let t : Thread := { thr with wait := .fence 4 [] 0 }
     let s : State := { withThread t with clus := [(0, { Clus.reset with rgnctl := 1, phase := 3 })] }
     s.thread? 0 0 = some t ∧ s.savingOn 0 0 = true ∧ s.doneAll [] = true) ∧
    (let h : ErrHalf := { ErrHalf.none with n := 1, cause := 457 }
     let t : Thread := { thr with wait := .fence 4 [] 0, errMem := h }
     (withThread t).thread? 0 0 = some t ∧ (withThread t).doneAll [] = true ∧ t.errMem.n ≠ 0 ∧ t.errFab.n = 0 ∧
     ({ thr with wait := .fence 4 [] 0, errFab := h } : Thread).errFab.n ≠ 0 ∧ ({ thr with wait := .fence 4 [] 0, errFab := h } : Thread).errMem.n = 0) ∧
    (let t : Thread := { thr with wait := .release [] }
     (withThread t).thread? 0 0 = some t) ∧
    (let t : Thread := { thr with wait := .desc [] 0 0 }
     (withThread t).thread? 0 0 = some t ∧ t.late = []) := by decide +kernel

/-- A thread of fp32 elements: v2 holds 1.5, NaN, the infinities, zeros, -2 and 4; v3 the scale 127 and 2.25, -1, 1, and m1 all elements but 2. -/
def floats : Thread :=
  { thr with
    v := [0, 0, lanes [0x3FC00000, 0x7FC00000, 0x7F800000, 0xFF800000, 0, 0x80000000, 0xC0000000, 0x40800000], lanes [0x40100000, 0x3F800000, 0x7F800000, 0x3F800000,
      0x80000000, 0xBF800000, 0x40A00000, 0x7F]] ++ List.replicate 28 0, m := [0, 0xFFFB] ++ List.replicate 6 0 }
where
  /-- Thirty-two-bit elements from element 0 up. -/
  lanes (l : List Nat) : VReg := BitVec.ofNat _ (l.foldr (fun x a => x + 2 ^ 32 * a) 0)

def fcap : Captured := { cap with vtype := 0, vl := 8 }

def fval (r i : Nat) : Val := fcap.val (elemAt (vget floats.v r fcap.g) fcap.w i)

theorem witness_IntegerElementsAndInactiveOnes_floats :
    fcap.vl ≤ fcap.vlmax ∧ 7 < fcap.vl ∧ (1#5).toNat + fcap.g ≤ floats.v.length ∧ (floats.getM 1).getLsbD 2 = false ∧ (floats.getM 1).getLsbD 7 = true ∧
    fval 2 0 = .fin false (3 * 2 ^ 22) (-23) ∧ fval 3 0 = .fin false (9 * 2 ^ 20) (-22) ∧ (fval 2 1).isNan = true ∧ (fval 3 1).isNan = false ∧
    fval 2 2 = .inf false ∧ fval 3 2 = .inf false ∧ fval 2 3 = .inf true ∧ fval 2 4 = .fin false 0 (-149) ∧ fval 3 4 = .fin true 0 (-149) ∧
    fval 2 6 = .fin true (2 ^ 23) (-22) ∧ fval 2 7 = .fin false (2 ^ 23) (-21) := by decide +kernel

theorem witness_IntegerElementsAndInactiveOnes_functions :
    fcap.w = 4 ∧ fcap.g = 1 ∧ (1#3) ≠ 0 ∧ (1#3).toNat < floats.m.length ∧ 7 < 1024 ∧ fcap.ty ≤ 5 ∧
    (1#5).toNat + (fcap.g * typeW 1 + fcap.w - 1) / fcap.w ≤ floats.v.length ∧ { fcap with vtype := 5 }.ty = 5 ∧
    ((List.range fcap.vl).filter (fun k => (floats.getM 1).getLsbD k)) ≠ [] ∧ ((List.range fcap.vl).filter (fun k => (floats.getM 2).getLsbD k)) = [] ∧
    (1#5).toNat + planeSpan fcap.vlmax (planeEP 0) ≤ floats.v.length ∧ (1#5).toNat + planeSpan fcap.vlmax (planeEP 0) ≤ (3#5).toNat ∧
    ((List.range 32).map (fun j => if j < 1 then decodeF fcap.fmt (elemAt (vget floats.v 2 fcap.g) 4 j) else .fin false 0 0)).all (fun v => v matches .fin _ _ _) = true := by
  decide +kernel

/-- The small machine with the register g1 at a value and cluster 0's RGNCTL at another. -/
def regCtl (v : Word) (r : Word) : State :=
  { withThread { thr with g := thr.g.set 1 v } with
    regions := [rgn, { rgn with num := 1 }], frames := [frm, { frm with rgn := 1 }], clus := [(0, { Clus.reset with rgnctl := r })] }

def ctxV (v : Word) : Ctx := ctxT { thr with g := thr.g.set 1 v }

theorem witness_SystemRegisterReadsAndWrites_control :
    allIssue (regCtl 5 0) (ctxV 5) [.sysw 1 0x48, .sysw 1 0x49, .sysw 1 0x50] = true ∧ sysWritable 0x48 .m = true ∧ sysWritable 0x50 .m = true ∧
    ((List.range 32).filter (fun k => (5 : Word).getLsbD k)).length < 4 ∧ allIssue (regCtl 0xF 0) (ctxV 0xF) [.sysw 1 0x48] = true ∧
    4 ≤ ((List.range 32).filter (fun k => (0xF : Word).getLsbD k)).length ∧ allIssue (regCtl 3 1) (ctxV 3) [.sysw 1 0x50] = true ∧
    ((regCtl 3 1).clu 0).rgnctl.toNat % 8 ≠ 0 ∧ ((regCtl 0x10000000003 0).begin (ctxV 0x10000000003)).rgnRefusal (ctxV 0x10000000003) 0x10000000003 3 = 0 ∧
    allIssue (regCtl 0x10000000003 0) (ctxV 0x10000000003) [.sysw 1 0x50] = true ∧ allIssue (regCtl 0x90080030001 0) (ctxV 0x90080030001) [.sysw 1 0x50] = true ∧
    ((regCtl 0x90080030001 0).begin (ctxV 0x90080030001)).rgnRefusal (ctxV 0x90080030001) 0x90080030001 1 ≠ 0 ∧
    (0x90080030001 : Word).getLsbD 31 = true ∧ (0x90080030001 : Word).toNat / 2 ^ 16 % 256 < frm.hdr.ksems := by decide +kernel

/-- A descriptor of the parked thread in slot 1, of a doubleword at an offset of its image. -/
def ctxDesc (off : Nat) (len : Nat) : List Byte := (List.replicate 6 0 ++ [1, 0]) ++ (List.replicate 4 0 ++ leBytes 4 len) ++ leBytes 4 off

/-- The parked thread with a join, a replay queue and a pending register. -/
def joinedThr : Thread := { parkedThr with join := some (0, 3), replay := [{ cap with pendReg := some 4 }], pendG := 16, vstop := true }

def joinedState (stopped : Bool) : State := { small with threads := [thr, joinedThr], frames := [{ frm with stopped := stopped }] }

theorem witness_ContextInstructions_effects :
    (joinedState false).thread? 0 1 = some joinedThr ∧ joinedThr.join = some (0, 3) ∧ (joinedState false).frame? 0 0 0 = some { frm with stopped := false } ∧
    3 < frm.sems.length ∧ ({ frm with stopped := false } : Frame).stopped = false ∧ ({ frm with stopped := true } : Frame).stopped = true ∧
    (joinedState true).frame? 0 0 0 = some { frm with stopped := true } ∧
    (joinedState false).ctxThread (ctxDesc 0x188 8) = some joinedThr ∧ dfield (ctxDesc 0x188 8) 0x0C 4 = 8 ∧ dfield (ctxDesc 0x188 8) 0x10 4 = 0x188 ∧
    joinedThr.g.length = 32 ∧ joinedThr.m.length = 8 ∧ joinedThr.fpcnt.length = 4 ∧ cap.vl < 2 ^ 16 := by decide +kernel

theorem witness_ContextInstructions_images :
    (∀ o ∈ [0, 8, 0x18, 0x60, 0x68, 0xA0, 0x180, 0x478, 0x480, 0x1480, 0x2480, 0x5C78, 0x5C80, 0x25C78], dfield (ctxDesc o 16) 0x10 4 = o ∧
      dfield (ctxDesc o 16) 0x0C 4 = dfield (ctxDesc (o + 8) 8) 0x0C 4 + 8 ∧ dfield (ctxDesc (o + 8) 8) 0x10 4 = dfield (ctxDesc o 16) 0x10 4 + 8 ∧
      dfield (ctxDesc o 16) 4 1 = dfield (ctxDesc o 8) 4 1 ∧ dfield (ctxDesc o 16) 6 2 = dfield (ctxDesc o 8) 6 2) ∧
    joinedThr.late = [] ∧ (joinedState false).trapComing joinedThr = false ∧ joinedThr.replay.length ≤ 16 ∧
    (joinedState false).portCount 0 .vector + joinedThr.replay.length ≤ 64 ∧
    (joinedState false).threadPortCount 0 1 .vector + joinedThr.replay.length ≤ 16 := by decide +kernel

/-- A bind descriptor of region 0 whose SET names cluster 1, and whose header stands at the page that the tables map at 0x40. -/
def bindDesc : List Byte := List.replicate 8 0 ++ leBytes 8 0x40 ++ List.replicate 16 0 ++ (2 : Byte) :: List.replicate 31 0

/-- A header of one entry point, eight registers, a batcher and four threads. -/
def headerBytes : List Byte :=
  leBytes 4 0x4B474F4A ++ leBytes 2 1 ++ [8, 0] ++ leBytes 2 4 ++ [1, 0] ++ leBytes 2 1 ++ leBytes 2 4 ++ leBytes 4 1 ++ leBytes 4 64 ++ leBytes 4 0 ++
  (List.replicate 7 (leBytes 4 0xFFFFFFFF)).flatten ++ leBytes 8 0

def bindable : State := { small.hbmWrite 1 (place 0 0x40000040) headerBytes with frames := [{ frm with cb := none }] }

def bindEntry : Option (Nat × Nat × Walked) := match bindable.translate rgn 0x80 3 false with
  | .ok x => some x
  | .error _ => none

theorem witness_BindInstructionsAndTeardown_effects :
    (bindable.bindStatus .m 0 bindDesc).1 = 0 ∧ (bindable.bindStatus .m 0 (bindDesc.set 8 1)).1 ≠ 0 ∧ rgn.held = 0 ∧ dfield headerBytes 0x18 4 = 0 ∧
    bindEntry.isSome = true ∧ bindable.bad = [] ∧
    small.unbindStatus .m 1 none (List.replicate 6 0 ++ [1, 0] ++ List.replicate 8 0) = 0 ∧ (small.removeKernel 0 0).frames = [] := by decide +kernel

/-- A control block of a root region: set {0}, ceiling 7, allowance 4,096, key 1, the small machine's table, a queue and a save area. -/
def rcbBytes (parent : Nat) (magic : Nat) : List Byte :=
  leBytes 4 magic ++ leBytes 2 parent ++ [0, 0] ++ leBytes 4 4096 ++ leBytes 2 0 ++ leBytes 2 1 ++ leBytes 8 0 ++ leBytes 8 0x40 ++ [6, 0, 0, 0] ++ leBytes 4 0 ++
  leBytes 8 0 ++ leBytes 8 9 ++ leBytes 16 0 ++ leBytes 32 1 ++ List.replicate 152 0

/-- The small machine with a control block at physical address 0x1000, read under key 1, in the RCB of region 0 too. -/
def withRcb (parent magic : Nat) (frames : List Frame) : State :=
  { small.hbmWrite 1 (place 2 0x1000) ((rcbBytes parent magic).set 17 16) with
    hostmem := 0x4000, regions := [{ rgn with rcbPa := 0x1000, clset := BitVec.allOnes 256, allow := 8192 }], frames := frames }


theorem witness_HostCommands_activations :
    (withRcb 1 0x4E474552 []).freeRegion = some 1 ∧ (withRcb 1 0x4E474552 []).readRcb 0x1000 = some ((rcbBytes 1 0x4E474552).set 17 16) ∧
    ((withRcb 1 0x4E474552 []).activate 0x1000).rstat = BitVec.ofNat 64 (2 ^ 40) ∧ ((withRcb 1 0 []).activate 0x1000).rstat = 2 ∧
    ({ small with hostmem := 0x14000 } : State).readRcb 0 = none := by decide +kernel

def reloads (parent : Nat) (frames : List Frame) : Option Nat :=
  match (withRcb parent 0x4E474552 frames).rcbRegion 0 0x1000 with
  | .ok _ => none
  | .error k => some k

theorem witness_HostCommands_reloads :
    reloads 0 [] = none ∧ reloads 1 [] = some 4 ∧ ((withRcb 0 0x4E474552 [frm]).reload 0).rstat = 0 ∧
    ((withRcb 0 0x4E474552 [frm, { frm with cl := 1 }]).reload 0).rstat = 13 ∧ (withRcb 0 0x4E474552 []).region? 5 = none := by decide +kernel

theorem witness_FaultQueuesAndRegionControl_kills :
    small.region? 0 = some rgn ∧ small.within 0 4 0 = true ∧ ({ small with regions := [{ rgn with killing := true }] } : State).telling [0] = false ∧
    (regCtl 0 0x10000000001).rgnRuns 0 1 = some 0 := by decide +kernel

theorem witness_CommandsEndAndRetire_records (j : Job) : (job j).takesRecords 0 0 ∧ 3 < frm.sems.length ∧ (job j).frame? 0 0 0 = some frm :=
  ⟨.inr ⟨rgn, rfl, rfl, rfl⟩, by decide +kernel, rfl⟩

/-- A small frame, of one semaphore and no vector registers, and a thread of it that waits at the semaphore. -/
def tinyFrame : Frame :=
  { frm with hdr := { frm.hdr with kflags := 0, kvregs := 0, ksems := 1, kbars := 0, ktiles := 0, kscr := 0 }, sems := [⟨7, true⟩], bars := [], tiles := [], scr := [], cb := none }

def tinyThr : Thread := { Thread.start 0 5 0 0 32 0 64 with g := regs, wait := .sem 0 9 100 40 3 }

/-- Its region saves to host memory. -/
def saved : State :=
  { small with regions := [{ rgn with modes := 0x2000, savebase := 0 }], frames := [tinyFrame], threads := [tinyThr] }

def suspendedState : State :=
  { saved with frames := [tinyFrame.emptied], threads := [], hostMem := cellsOf (({ saved with threads := [] } : State).saveBlock 0 0 1) 0x10000 }

def savedRgn : Region := { rgn with modes := 0x2000, savebase := 0 }

theorem witness_FaultQueuesAndRegionControl_saves :
    (saved.framesOn 0 0).length ≤ 16 ∧ tinyFrame.swz.length = 4 ∧ saved.saveLine savedRgn 0 1 = some (.host 0x10000) ∧ saved.saveLine savedRgn 4096 1 = none ∧
    ((suspendedState.savedFrames 0 0 (saved.saveBlock 0 0 1)).map (List.map (fun x => x.ts.map (fun y => (y.slot, y.state, y.limit))))) = some [[(5, 2, 40)]] := by
  decide +kernel

set_option maxRecDepth 20000 in
theorem witness_FaultQueuesAndRegionControl_blocks :
    ((suspendedState.readBlock savedRgn 0).bind (suspendedState.savedFrames 0 0)).isSome = true := by decide +kernel

theorem witness_FaultQueuesAndRegionControl_resumes :
    tinyFrame.emptied.suspended = true ∧ suspendedState.thread? 0 5 = none ∧ suspendedState.acts = [] ∧ suspendedState.away = [] ∧
    ((suspendedState.framesOn 0 0).map Frame.knum).Nodup ∧ suspendedState.canReserve 0 [tinyFrame] = true ∧ suspendedState.queueFull 0 [] = false ∧
    saved.readBlock savedRgn 0 = none := by decide +kernel

theorem witness_WaitLimitsExpire_arrivals :
    (job (.arrive 0 0 15)).arriving 0 0 15 = true ∧ small.arriving 0 0 15 = false := by decide +kernel

def rec1 : Record := small.parkRecord thr 64 ⟨7, 0, 0, 0, 0⟩

/-- The small machine with a kept record, and its region's queue in a page of the table. -/
def keeping (full : Bool) (cells : List Byte) : State :=
  { small.hbmWrite 1 (match small.translate rgn 0x20000 2 false with | .ok x => x.1 | .error _ => 0) cells with
    regions := [{ rgn with fqbase := 0x20000, kept := [rec1], full := full }] }

def slotIs (s : State) : Option SlotState := (s.region? 0).map (fun g => s.slotState g rec1)

/-- A region that has drained on cluster 0. -/
def drainedState : State :=
  { withFrame { frm with stopped := true, hdr := { frm.hdr with kscr := 0, kvregs := 0, ktiles := 0, ksems := 1 }, sems := [⟨0, false⟩], cb := none, tiles := [] } with
    threads := [], clus := [(0, { Clus.reset with rgnctl := 1, phase := 2 })] }

theorem drained_block_length : (drainedState.saveBlock 0 0 1).length = 704 := by decide +kernel

theorem drained_block_is_written : (drainedState.writeBlock { rgn with savebase := 0x1000000 } 0 (drainedState.saveBlock 0 0 1)).isSome = true := by
  unfold State.writeBlock
  rw [drained_block_length]
  generalize drainedState.saveBlock 0 0 1 = bs
  have h : (match drainedState.saveLines { rgn with savebase := 0x1000000 } (drainedState.blockVa { rgn with savebase := 0x1000000 } 0) 1
    ((704 + 63) / 64) with | some (_ :: _) => true | _ => false) = true := by decide +kernel
  revert h
  generalize drainedState.saveLines { rgn with savebase := 0x1000000 } (drainedState.blockVa { rgn with savebase := 0x1000000 } 0) 1
    ((704 + 63) / 64) = o
  rcases o with _ | _ | _ <;> simp

theorem witness_FaultQueuesAndRegionControl :
    ((keeping false []).region? 0).map (fun g => (g.kept, g.full, g.failing)) = some ([rec1], false, false) ∧
    ((keeping true []).region? 0).map (fun g => (g.kept, g.full)) = some ([rec1], true) ∧
    (match slotIs (keeping false []) with | some (.free _) => true | _ => false) = true ∧
    (match slotIs (keeping true (leBytes 8 0x8000)) with | some .inUse => true | _ => false) = true ∧
    (drainedState.rgnRuns 0 1 = some 0 ∧ (drainedState.clu 0).phase = 2 ∧ drainedState.regionDrained 0 0 = true ∧
      (({ drainedState with keys := [] } : State).writeBlock rgn 0 (({ drainedState with keys := [] } : State).saveBlock 0 0 1)).isNone = true) ∧
    (let s : State := { small with clus := [(0, { Clus.reset with rgnctl := 2 })] }
     s.rgnRuns 0 2 = some 0 ∧ (val (s.resumeRegion rgn 0)).isSome = true ∧
     err (({ s with keys := [], frames := [{ frm with stopped := true, suspended := true }] } : State).resumeRegion rgn 0) = some 9) ∧
    ({ small with clus := [(0, { Clus.reset with rgnctl := 3 })] } : State).rgnRuns 0 3 = some 0 ∧
    ({ rgn with killing := true } : Region).killing = true ∧ (∀ x ∈ small.clus, small.suspendRuns (small.family 0) x.1 = false) := by decide +kernel

def hostDesc (d : Nat) (ts : List Thread) : State := { small with ccmdDesc := BitVec.ofNat 256 d, threads := ts }

theorem witness_HostCommands :
    (small.bootReady = true ∧ bitOf small.rstat 63 = false ∧ State.reset.bootReady = false ∧ field (0x100#64) 8 31 = 1 ∧
      field (1#64) 0 3 = 1 ∧ field (2#64) 0 3 = 2 ∧ field (0x0000090000000003#64) 0 3 = 3 ∧
      err (small.rcbRegion (small.freeRegion.getD 256) 0) = some 2 ∧ small.region? (field (0x0000090000000003#64) 40 8) = none ∧
      (small.region? (field (3#64) 40 8)).isSome = true) ∧
    (∀ x ∈ [CtxOp.resume, .read, .write, .kill], (hostDesc 0 [thr]).ctxStatus x .m 0 (leBytes 32 (hostDesc 0 [thr]).ccmdDesc.toNat) ≠ 0) ∧
    (let s := hostDesc 0 [{ thr with wait := .parked }]
     let d := leBytes 32 s.ccmdDesc.toNat
     s.bootReady = true ∧ s.ctxStatus .resume .m 0 d = 0 ∧ s.ctxStatus .kill .m 0 d = 0 ∧ s.region? (dfield d 4 1) = some rgn) ∧
    (let s := hostDesc (8 * 2 ^ 96 + 0x2000 * 2 ^ 192) [{ thr with wait := .parked }]
     let d := leBytes 32 s.ccmdDesc.toNat
     s.ctxStatus .read .m 0 d = 0 ∧ s.ctxStatus .write .m 0 d = 0 ∧ s.region? (dfield d 4 1) = some rgn ∧
     (s.bufLocs rgn (dfield d 0x18 8) 1 (dfield d 0x0C 4)).isSome = true ∧ (s.bufLocs rgn (dfield d 0x18 8) 0 (dfield d 0x0C 4)).isSome = true) ∧
    (({ small with bcmd := 1 } : State).bcmd = 1 ∧ small.bindBusy = []) ∧
    (({ small with bcmd := 2, threads := [] } : State).unbindStatus .m 0 none ((leBytes 64 small.bcmdDesc.toNat).take 16) = 0) := by decide +kernel

/-- A Foyer request to entry 0 of kernel 0 on any cluster. -/
def foyerReq : BitVec 512 := BitVec.ofNat 512 (2 ^ 24)

theorem witness_FoyerLanes :
    (63 : Nat) < 64 ∧ (small.lane 63).code ≠ 1 ∧
    (∃ q, val (small.foyerCheck (leBytes 64 foyerReq.toNat)) = some q ∧ small.frame? q.target q.rgn q.knum = some { frm with cl := q.target } ∧
      small.queueTakes q = true) ∧
    (∃ q, val (small.foyerCheck (leBytes 64 (BitVec.ofNat 512 0 : BitVec 512).toNat)) = some q ∧
      ({ small with clus := [(0, { Clus.reset with spawnq := List.replicate 64 spawnReq })] } : State).queueTakes q = false) ∧
    (err (small.foyerCheck (leBytes 64 (BitVec.ofNat 512 9 : BitVec 512).toNat))).isSome = true ∧
    (let w := (small.lane 63).semsel
     small.frame? (field w 16 8) (field w 40 8) (field w 32 6) = some frm ∧ field w 0 8 < frm.hdr.ksems) := by
  refine ⟨by decide, by decide +kernel, ⟨(val (small.foyerCheck (leBytes 64 foyerReq.toNat))).getD spawnReq, by decide +kernel⟩,
    ⟨(val (small.foyerCheck (leBytes 64 (BitVec.ofNat 512 0 : BitVec 512).toNat))).getD spawnReq, by decide +kernel⟩, by decide +kernel,
    by decide +kernel⟩

theorem witness_HostMemoryAndDeviceRegisters :
    (∃ pa key, small.hdmPa 0 64 = some pa ∧ small.hostKey = some key ∧ small.hostWrites = [] ∧ small.walkHolds (small.hostLoc pa / 64) = false ∧
      small.badAt 0 0 (.global (small.hostLoc pa) key ⟨pa, [], 0, 0⟩) = none) ∧
    (({ small with keys := [] } : State).hdmPa 0 64).isSome = true ∧ ({ small with keys := [] } : State).hostKey = none ∧
    (3 : Nat) < 4 ∧ (small.die 3).mscOps.contains true = false ∧ (1#16) ≠ 0 ∧ (small.region? 0).isSome = true ∧ small.ctx? = some ctx ∧ frm.level ≠ .u ∧
    (255 : Nat) < 256 ∧ (2047 : Nat) < 2048 ∧
    (({ small with dies := [(3, { Die.reset with skipen := false })] } : State).die (255 / 64)).skipen = false :=
  ⟨⟨(small.hdmPa 0 64).getD 0, small.hostKey.getD 0, by decide +kernel⟩, by decide +kernel⟩

theorem witness_MailboxAndBoot :
    (∀ k ∈ [0, 1, 2, 3, 4, 5, 6, 7, 8, 9], field (BitVec.ofNat 64 k : Word) 0 8 = k) ∧
    (let g : Region := { rgn with modes := 0x20 }
     let s : State := { small with regions := [g], fencedLog := [0], awaiting := [(0, 0, 507)], frames := [{ frm with stopped := true }] }
     s.region? 0 = some g ∧ remapsAtOnce g = false ∧ s.remapPending g ≠ []) ∧
    small.region? 9 = none ∧ dfield (memRead small.hostMem 0 8) 2 6 = 0 ∧ dfield (memRead small.hostMem 0 8) 1 1 < 72 ∧
    bitOf small.mbstat 63 = false ∧ bitOf (0x8000000000000000#64) 63 = true := by decide +kernel

/-- A boot of an image without bytes. -/
def bareBoot : BootData := ⟨0, 0, [0, 287], 5, 0, 0, 4, 1, [], [], [], 0⟩

theorem witness_MailboxAndBoot_key :
    bareBoot.failStage ≠ 1 ∧ digest512 bareBoot.key ≠ ({ small with fusedKey := digest512 bareBoot.key + 1 } : State).fusedKey := by
  refine ⟨by decide, ?_⟩
  show digest512 bareBoot.key ≠ digest512 bareBoot.key + 1
  generalize digest512 bareBoot.key = x
  bv_omega

theorem witness_ClocksAndPower :
    popcount32 ((7#64).extractLsb' 0 32) < 4 ∧ 4 ≤ popcount32 ((15#64).extractLsb' 0 32) ∧ (287 : Nat) < 288 ∧
    (let p : Pair := { Pair.reset with req := 3, cur := 3, tgt := 3, goal := 0x74 }
     ({ small with pairs := [(5, p)], now := 1000000 } : State).pair 5 = p ∧ p.arrived 1000000 = true) ∧
    (143 : Nat) < 144 ∧ (small.pair 143).emergency = false ∧ (small.pair 143).temp < 110 ∧ (small.pair 143).imb ≤ 20 ∧
    (let s : State := { small with pairs := [(1, { Pair.reset with temp := 110, imb := 21 })] }
     110 ≤ (s.pair 1).temp ∧ 20 < (s.pair 1).imb) ∧ (∀ q, q < 144 → q ≠ 143 → (small.pair q).cap ≠ 3 → (small.pair q).temp ≤ 99) ∧ ({ Pair.reset with emergency := true } : Pair).emergency = true ∧
    (small.pair 143).above ≠ 1023 := by decide +kernel

/-- A frame of cluster 1 that a fence has stopped, in a region with a save area; its block is the one that a suspension writes. -/
def fencedFrame : Frame :=
  { frm with cl := 1, stopped := true, hdr := { frm.hdr with kscr := 0, kvregs := 0, ktiles := 0, ksems := 1, kbars := 0 }, sems := [⟨0, false⟩], bars := [],
             cb := none, tiles := [] }

def savingRgn : Region := { rgn with savebase := 0x1000000 }

def fencedState : State :=
  { small with fencedLog := [1], fencedPhys := [1], awaiting := [(1, 0, 507)], frames := [fencedFrame], threads := [], regions := [savingRgn] }

def withBlock (s : State) : State :=
  match s.saveLines savingRgn (s.blockVa savingRgn 1) 1 9 with
  | some ps => (List.range 9).foldl (fun s k => match ps.getD k (.host 0) with
      | .global loc key _ => s.hbmWrite key loc (((fencedState.saveBlock 1 0 1).drop (64 * k)).take 64)
      | _ => s) s
  | none => s

set_option maxRecDepth 20000 in
theorem fenced_block_can_be_restored :
    (let s := withBlock fencedState
     s.fencedLog.contains 1 = true ∧ (s.regionsOn 1).filter (s.waitsRemap 1) = [savingRgn] ∧ remapsAtOnce savingRgn = true ∧ s.savedOn 1 0 = false ∧
     s.spares (dieOf 1) ≠ [] ∧ ((s.assignSpare 1).restorable 1 savingRgn).isSome = true) := by decide +kernel

theorem witness_FleetEvents :
    (small.canFence 255 = true ∧ small.canFence 1 = true ∧ small.regionsOn 1 = [rgn] ∧ (small.spares 0).length = 8 ∧ rgn.savebase = 0 ∧
     (small.pair (small.pairOf 1)).window.isSome = false ∧ (small.region? (small.fqOwner 0)).map (fun o => (o.full, o.failing)) = some (false, false)) ∧
    (let s : State := { small with fencedPhys := (List.range 8).map (fun k => 64 + k) }
     s.canFence 1 = true ∧ s.regionsOn 1 = [rgn] ∧ s.spares (dieOf 1) = []) ∧
    small.logicalOn 287 = none ∧ small.fencedPhys.contains 287 = false ∧
    (let s := { fencedState with clus := [(1, { Clus.reset with spawnq := [{ spawnReq with target := 1, join := some (1, 0) }] })] }
     let all : State := { s with fencedPhys := 1 :: (List.range 8).map (fun k => 64 + k) }
     s.fencedLog.contains 1 = true ∧ (s.regionsOn 1).filter (s.waitsRemap 1) = [savingRgn] ∧ remapsAtOnce savingRgn = true ∧ s.spares (dieOf 1) ≠ [] ∧
     s.savedOn 1 0 = false ∧ (s.assignSpare 1).restorable 1 savingRgn = none ∧ (s.queuedOf 1 0).map (fun q => q.join) = [some (1, 0)] ∧
     fencedState.queuedOf 1 0 = [] ∧ (0 : Nat) < fencedFrame.hdr.ksems ∧
     (({ s with awaiting := [] } : State).regionsOn 1).filter (({ s with awaiting := [] } : State).waitsRemap 1) = [] ∧
     all.fencedPhys.contains (all.physOf 1) = true ∧ all.spares (dieOf 1) = [] ∧ ((all.regionsOn 1).filter (all.waitsRemap 1)).any remapsAtOnce = true ∧
     all.awaiting.find? (fun x => x.1 == 1 && x.2.1 == 0) = some (1, 0, 507)) ∧
    (small.eport 11).up = true ∧ (5 : Nat) < 6 ∧ 20 ≤ getK [(5, 20)] 5 0 := by decide +kernel

/-- A remote operation that has been sent. -/
def sentRemote (opc : Nat) : Remote := { remoteOf opc 0x8001000000001000 0 0 0 8 false 5 false with sent := true }

def remoteJob (opc : Nat) : Job := .remote (sentRemote opc)

theorem witness_RemoteAnswers :
    (∀ opc ∈ [0, 1, 2, 3, 4], ((job (remoteJob opc)).openRemote 7).map (fun x => (x.1, x.2.opc, x.2.resend)) = some (jobAct (remoteJob opc), opc, false)) ∧
    (jobAct (remoteJob 0)).slot < 1024 ∧ (∀ opc, (job (remoteJob opc)).absent (jobAct (remoteJob opc)) = false) ∧ small.marked = [] ∧
    1 ≤ (6#3).toNat ∧ (6#3).toNat ≤ 6 :=
  ⟨by decide +kernel, by decide +kernel, fun _ => rfl, rfl, by decide, by decide⟩

theorem sent_packet_is_forwarded :
    ((job (remoteJob 0)).forward ((job (remoteJob 0)).packetOf 0 0 (sentRemote 0))).isSome = true := by
  unfold State.forward
  generalize bitOf (job (remoteJob 0)).freeVal 0 = b
  cases b <;> decide +kernel

/-- The same operations with a piece of a copy, a marked packet, the package itself as target, an earlier write, and no route. -/
theorem witness_RemoteAnswers_effects :
    thr.fpcnt.length = 4 ∧ thr.wait = .none ∧ thr.late = [] ∧ thr.errFab.n = 0 ∧ ({ thr.errFab with n := 0xFFFF } : ErrHalf).n ≠ 0 ∧
    (small.thread? 0 0 = some thr) ∧ (BitVec.ofNat 15 0 : BitVec 15) = small.pkgid ∧
    (let r := sentRemote 1
     let w := sentRemote 0
     r.path < 16 ∧ r.sz ∈ [1, 2, 4, 8] ∧ r.dead = false ∧ r.cmd = none ∧ r.isWrite = false ∧ w.isWrite = true ∧
     (job (remoteJob 0)).earlierWrites 7 0 0 w = false ∧
     (let s : State := { small with acts := [jobAct (remoteJob 0), { jobAct (remoteJob 0) with id := 8 }] }
      (s.openRemote 8).isSome = true ∧ s.earlierWrites 8 0 0 w = true) ∧
     (let s : State := { job (remoteJob 0) with marked := [0] }
      s.marked.contains w.psn = true ∧ (s.packetOf 0 0 w).target ≠ s.pkgid) ∧
     ((job (remoteJob 0)).packetOf 0 0 { w with target := 0 }).target = small.pkgid ∧
     (let e : Ending := ⟨.copy, 0, 0, some (1, 1), none, none, 3, 64⟩
      let s : State := { small with acts := [jobAct (.remote { w with opc := 6, cmd := some 3 }), { jobAct (.ending e) with id := 9 }] }
      (s.openRemote 7).map (fun x => x.2.cmd) = some (some 3) ∧ (s.acts.map (fun x => x.id)).Nodup ∧ e.err = none)) := by decide +kernel

/-- A packet addressed to the package under key 9. -/
def pkt (opc arg flags : BitVec 8) (n : Nat) : Packet :=
  { target := 0, iface := 0, ev := 0, opc := opc, flags := flags, arg := arg, rsv := 0, mode := 0, seq := 0, fkey := 9, stream := 1,
    addr := 0x1000, ncount := if flags = 1 then List.replicate 16 0 else [], payload := List.replicate n 0, trimmed := false, ce := false, crcBad := false,
    psn := 5, urgent := false, hops := 0, vc := 0 }

theorem witness_InboundPackets :
    (∀ p ∈ [pkt 0 3 0 8, pkt 0 3 2 8, pkt 0 3 1 8, pkt 1 3 0 0, pkt 2 16 0 8, pkt 3 0 0 8, pkt 4 0 0 41, pkt 6 0 0 72],
      small.addressed p = true ∧ p.crcBad = false ∧ pktInTable p = true) ∧
    (pktWrite (pkt 1 3 0 0) = false ∧ pktWrite (pkt 0 3 2 8) = true ∧ pktStart (pkt 0 3 2 8) = true ∧ pktStart (pkt 0 3 1 8) = false ∧
      pktOf (pkt 0 3 1 8) = true) ∧
    (let p := pkt 1 3 0 0
     (small.note p).keyRegion p.fkey = none ∧ p.opc = 1 ∧ p.trimmed = false ∧ small.seenOf p = none ∧
     (let g : Region := { rgn with ownFkey := 9 }
      let s : State := { small with regions := [g] }
      (s.note p).keyRegion p.fkey = some g ∧ (match (s.note p).translate g p.addr.toNat 0 false with
        | .ok x => ((s.note p).badAt g.num 0 (.global x.1 x.2.1 x.2.2)).isNone | .error _ => false) = true)) := by decide +kernel

theorem witness_SwitchAndHoldEvents :
    (15 : Nat) < 16 ∧ (small.eport 15).up ≠ false ∧
    (let p : Packet := { pkt 0 3 0 8 with target := 1, vc := 1 }
     small.addressed p = false ∧ p.crcBad = false ∧ ¬ (small.foreign p = true ∧ 12 ≤ 15) ∧ (small.forward p).isSome = true ∧
     (({ small with eports := (List.range 16).map (fun k => (k, { EPort.reset with up := false })) } : State).forward p).isNone = true) ∧
    ({ pkt 0 3 0 8 with crcBad := true } : Packet).crcBad = true ∧
    ({ small with entries := [⟨9, 1, []⟩] } : State).entries[0]? = some ⟨9, 1, []⟩ ∧ small.heldOf = [] := by decide +kernel

/-! #### Further clauses and boundary values of the statements above -/

theorem witness_FaultQueuesAndRegionControl_ends :
    (match slotIs ({ keeping true [] with keys := [] }) with | some .fails => true | _ => false) = true ∧
    (({ keeping false [] with regions := [{ rgn with kept := [rec1], failing := true }] } : State).region? 0).map (fun g => g.failing) = some true ∧
    ({ drainedState with cmds := [cmdOf .copy (.cpy 2 0 0) none] } : State).regionDrained 0 0 = false ∧
    (let k : Clus := { Clus.reset with rgnctl := 1, phase := 3, saving := [7] }
     ({ drainedState with clus := [(0, k)] } : State).saveDone 0 = true ∧ ({ drainedState with clus := [(0, k)] } : State).rgnRuns 0 1 = some 0 ∧
     ({ drainedState with clus := [(0, k)], acts := [jobAct (.flight peerStore)] } : State).saveDone 0 = false ∧
     ({ drainedState with clus := [(0, { k with saveBad := true })] } : State).saveDone 0 = true) := by decide +kernel

theorem witness_HostCommands_busy :
    small.ccmd = 0 ∧ ({ small with ccmd := 2 } : State).ccmd ≠ 0 ∧
    (let s := hostDesc (8 * 2 ^ 96 + 0x2000 * 2 ^ 192) [{ thr with wait := .parked }]
     (match s.bufLocs rgn (dfield (leBytes 32 s.ccmdDesc.toNat) 0x18 8) 1 (dfield (leBytes 32 s.ccmdDesc.toNat) 0x0C 4) with
     | some l =>
       l.all (fun x => !s.walkHolds (x.1 / 64)) &&
       l.any (fun x => ({ s with acts := l.map (fun y => jobAct (.load 5 (.global 0 1 ⟨0, [y.1 / 64], 0, 0⟩) 8 false 0 0 0 0)) } : State).walkHolds (x.1 / 64))
     | none => false) = true) := by decide +kernel

theorem witness_HostCommands_waiting :
    (let s : State := { small with teardowns := [⟨7, 0, 3, 2, true, 0, 512, 0, 0, []⟩] }
     s.bootReady = true ∧ s.bindBusy ≠ [] ∧ s.bcmd = 0 ∧ ({ s with bcmd := 1 } : State).bindBusy ≠ [] ∧ ({ s with bcmd := 2 } : State).bindBusy ≠ []) ∧
    (let s : State := { hostDesc (8 * 2 ^ 96 + 0x2000 * 2 ^ 192) [{ thr with wait := .parked }] with regions := [{ rgn with troot := 0x7FFF000 }] }
     let d := leBytes 32 s.ccmdDesc.toNat
     s.ctxStatus .read .m 0 d = 0 ∧ s.ctxStatus .write .m 0 d = 0 ∧
     s.bufLocs { rgn with troot := 0x7FFF000 } (dfield d 0x18 8) 1 (dfield d 0x0C 4) = none ∧
     s.bufLocs { rgn with troot := 0x7FFF000 } (dfield d 0x18 8) 0 (dfield d 0x0C 4) = none) ∧
    (({ small with bcmd := 2 } : State).unbindStatus .m 0 none ((leBytes 64 small.bcmdDesc.toNat).take 16) = 3) ∧
    bitOf ({ small with rstat := 0x8000000000000000 } : State).rstat 63 = true := by decide +kernel

theorem witness_FoyerLanes_states :
    small.bootOk = true ∧ ({ small with lanes := [(63, { Lane.reset with code := 1 })] } : State).lane 63 = { Lane.reset with code := 1 } ∧
    (let f : Frame := { frm with stopped := true }
     let s : State := { small with frames := [f] }
     ∃ q, val (s.foyerCheck (leBytes 64 (BitVec.ofNat 512 0 : BitVec 512).toNat)) = some q ∧ s.frame? q.target q.rgn q.knum = some f ∧ f.stopped = true) ∧
    frm.stopped = false ∧
    (let s : State := { small with lanes := [(63, { Lane.reset with semsel := 0x0000090000000000 })] }
     s.frame? (field (s.lane 63).semsel 16 8) (field (s.lane 63).semsel 40 8) (field (s.lane 63).semsel 32 6) = none) ∧
    (let f : Frame := { frm with hdr := { frm.hdr with ksems := 8 } }
     let s : State := { withFrame f with lanes := [(63, { Lane.reset with semsel := 8 })] }
     s.frame? 0 0 0 = some f ∧ f.hdr.ksems ≤ field (s.lane 63).semsel 0 8) := by
  refine ⟨by decide +kernel, by decide +kernel,
    ⟨(val (({ small with frames := [{ frm with stopped := true }] } : State).foyerCheck (leBytes 64 (BitVec.ofNat 512 0 : BitVec 512).toNat))).getD spawnReq,
      by decide +kernel⟩, by decide +kernel, by decide +kernel, by decide +kernel⟩

/-- The small machine with a host write of one line that waits for die 0, its reserve and its spent part of it given. -/
def hostWriting (res used : Nat) : State :=
  { small with hostWrites := [(0, List.replicate 64 0xAB)], dies := [(0, { Die.reset with hostres := res, hostUsed := used })] }

theorem witness_HostMemoryAndDeviceRegisters_mismatch :
    ({ small with hostWBad := [small.hostLoc 0 / 64] } : State).hostWBad.contains (small.hostLoc 0 / 64) = true ∧
    small.hostWBad.contains (small.hostLoc 0 / 64) = false := by decide +kernel

theorem witness_HostMemoryAndDeviceRegisters_reserve :
    (∃ pa, small.hdmPa 0 (List.replicate 64 (0xAB : Byte)).length = some pa ∧ locDie (small.hostLoc pa) = 0 ∧ hostCharge pa 64 ≠ 0 ∧
      (hostWriting 0 0).hostOffer 0 = hostCharge pa 64 ∧ (hostWriting 0 0).hostFirst 0 = true ∧
      ({ hostWriting 0 0 with dies := [(0, { Die.reset with laneUsed := 1536 })] } : State).hostFirst 0 = false ∧
      ((hostWriting 4096 0).die 0).hostUsed + hostCharge pa 64 ≤ ((hostWriting 4096 0).die 0).hostres ∧
      ((hostWriting 4096 4096).die 0).hostres < ((hostWriting 4096 4096).die 0).hostUsed + hostCharge pa 64 ∧
      (∀ crc : Bool, (({ small with bad := [⟨true, 0, 0, 0, small.hostLoc pa / 64, crc⟩] } : State).badAt 0 0
        (.global (small.hostLoc pa) 1 ⟨pa, [], 0, 0⟩)) = some crc)) ∧
    small.bootOk = true ∧ ({ small with bootstat := 0x8007 } : State).bootOk = false ∧
    ({ small with dies := [(3, { Die.reset with mscOps := [false, true] })] } : State).die 3 = { Die.reset with mscOps := [false, true] } ∧
    0x10004 % 8 ≠ 0 ∧ 0x12004 % 8 ≠ 0 ∧ 0x12000 ≤ 0x12004 ∧ 0xFFFC % 8 ≠ 0 ∧ 0xFFFC < 0x10000 ∧
    (let s : State := { small with refreshed := [((255 * 4 + 3) * 4 + 3) * 2048 + 2047] }
     ((255 * 4 + 3) * 4 + 3) * 2048 + 2047 ∈ s.refreshed ∧ (s.die (255 / 64)).skipen = true) :=
  ⟨⟨(small.hdmPa 0 64).getD 0, by decide +kernel⟩, by decide +kernel⟩

theorem witness_MailboxAndBoot_failures :
    small.bufBad 0 1040 = false ∧ small.bufBad 1 32 = false ∧
    ({ small with hostBad := [(0, 5)] } : State).bufBad 7 1040 = true ∧ ({ small with hostBad := [(0, 5)] } : State).bufBad 1 32 = true ∧
    (small.region? 0).isSome = true ∧ remapsAtOnce rgn = true ∧ small.remapPending rgn = [] ∧
    (let s : State := { small with hostMem := [(1, 72), (2, 1)] }
     dfield (memRead s.hostMem 0 8) 2 6 ≠ 0 ∧ 72 ≤ dfield (memRead s.hostMem 0 8) 1 1 ∧ dfield (memRead s.hostMem 0 8) 1 1 ≠ 0xFF) ∧
    (let g : Region := { rgn with modes := 0x20 }
     let s : State := { small with regions := [g], fencedLog := [0], awaiting := [(0, 0, 507)], fencedPhys := 0 :: (List.range 8).map (fun k => 64 + k), frames := [{ frm with stopped := true }] }
     remapsAtOnce g = false ∧ s.remapPending g ≠ [] ∧ (s.remapPending g).filter s.noSpare ≠ [] ∧
     (({ s with fencedPhys := [0] } : State).remapPending g).filter ({ s with fencedPhys := [0] } : State).noSpare = []) ∧
    ({ small with ckpts := [⟨0, false, 0, 0, 0, 2 ^ 40⟩] } : State).storeRoom 64 = none ∧ (small.storeRoom 64).isSome = true := by decide +kernel

theorem witness_ClocksAndPower_boundary :
    (let s : State := { small with phys := [(287, { Phys.reset with patNext := some 15 })] }
     s.boundaryDue 287 = false ∧ ({ s with now := 704 } : State).boundaryDue 287 = true) ∧
    ((small.pair 5).window = none ∧
     (let p : Pair := { Pair.reset with req := 0, cur := 3, tgt := 0 }
      let s : State := { small with pairs := [(5, p)] }
      Nat.max (s.pair 5).req (s.pair 5).cap < (s.pair 5).cur ∧ 550 * voltOf (Nat.max (s.pair 5).req (s.pair 5).cap) ≤ (s.pair 5).goal)) ∧
    (({ small with pairs := [(1, { Pair.reset with temp := 110 })] } : State).pair 1).temp = 110 := by decide +kernel

theorem witness_FleetEvents_masked :
    small.msixMasked (field small.nbrvec 0 11) = true ∧
    ({ small with msixTable := [(1, 0)] } : State).msixMasked (field small.nbrvec 0 11) = false ∧ (4 : Nat) < 5 := by decide +kernel

theorem witness_RemoteAnswers_away :
    (let s : State := { small with acts := [⟨7, 0, 0, 1024 + 512 * 0, [], remoteJob 1, 0⟩] }
     (s.openRemote 7).isSome = true ∧ s.acts.all (fun a => s.absent a) = true ∧ ({ s with marked := [0] } : State).marked.contains 0 = true) ∧
    (let s : State := job (.remote { remoteOf 0 0x8001000000001000 0 0 0 8 false 5 false with sent := true, resend := true })
     (s.openRemote 7).map (fun x => x.2.resend) = some true) := by decide +kernel

theorem witness_InboundPackets_once :
    (∀ p ∈ [pkt 0 3 0 8, pkt 1 3 0 0, pkt 2 16 0 8, pkt 3 0 0 8, pkt 4 0 0 41, pkt 6 0 0 72],
      p.trimmed = false ∧ small.seenOf p = none ∧
      ({ small with seen := [⟨pktSource p, p.psn, 0, some (0, 0, 0)⟩] } : State).seenOf p = some (some (0, 0, 0)) ∧
      ({ small with seen := [⟨pktSource p, p.psn, 0, none⟩] } : State).seenOf p = some none ∧ small.bufferFull p = false) ∧
    (let q : Packet := { pkt 0 3 0 8 with trimmed := true, payload := [] }
     small.addressed q = true ∧ q.trimmed = true ∧ pktInTable q = true) ∧
    (let g : Region := { rgn with ownFkey := 9 }
     let p := pkt 1 3 0 0
     (err ((({ small with regions := [g], keys := [] } : State).note p).translate g p.addr.toNat 0 false)).isSome = true ∧
     ∀ crc : Bool, (match (small.note p).translate g p.addr.toNat 0 false with
       | .ok x => decide ((({ small with bad := [⟨true, 0, 0, 0, x.1 / 64, crc⟩] } : State).note p).badAt 0 0 (.global x.1 x.2.1 x.2.2) = some crc)
       | .error _ => false) = true) := by decide +kernel

/-- The small machine whose region holds key 9; packets from package 1 and from itself. -/
def keyed : State := { small with regions := [{ rgn with ownFkey := 9 }] }

def spawnPkt (desc : Word) : Packet := { pkt 4 0 0 41 with addr := desc }

theorem witness_InboundPackets_effects :
    (∀ p ∈ [pkt 0 3 0 8, { pkt 0 3 3 8 with ncount := List.replicate 16 0 }, pkt 2 16 0 8, pkt 2 25 0 16, pkt 6 0 0 72],
      keyed.addressed p = true ∧ p.crcBad = false ∧ pktInTable p = true ∧ p.trimmed = false ∧ keyed.seenOf p = none ∧ keyed.bufferFull p = false ∧
      (pktOf p = false ∨ pktStart p = true) ∧ keyed.keyRegion p.fkey = some { rgn with ownFkey := 9 } ∧ p.stream.toNat % 2 ^ 15 ≠ keyed.pkgid.toNat ∧
      (val (keyed.translate { rgn with ownFkey := 9 } p.addr.toNat 1 false)).isSome = true ∧
      (val (keyed.translate { rgn with ownFkey := 9 } p.addr.toNat 2 false)).isSome = true ∧
      (err (({ keyed with keys := [] } : State).translate { rgn with ownFkey := 9 } p.addr.toNat 1 false)).isSome = true) ∧
    keyed.landingOf 0 = some 0 ∧
    (({ keyed with fencedLog := List.range 256 } : State).landingOf 0).isNone = true ∧
    (let s : State := { keyed with entries := [⟨9, 1, List.replicate 16 0⟩] }
     (s.entry? (pkt 0 3 0 8)).isSome = true ∧ pktStart (pkt 0 3 0 8) = false) ∧
    (let p := { pkt 3 0 0 8 with addr := 0 }
     keyed.addressed p = true ∧ pktInTable p = true ∧ keyed.seenOf p = none ∧ keyed.keyRegion p.fkey = some { rgn with ownFkey := 9 } ∧
     keyed.anyFrameOf 0 (field p.addr 32 6) = some frm ∧ inSet frm.set 0 = true ∧ 0 < frm.hdr.ksems ∧ keyed.frame? 0 0 0 = some frm ∧
     0 < frm.sems.length ∧ keyed.semWaiters 0 0 0 0 = [] ∧
     ({ keyed with frames := [{ frm with stopped := true }] } : State).anyFrameOf 0 0 = some { frm with stopped := true }) ∧
    (keyed.addressed (spawnPkt 0) = true ∧ pktInTable (spawnPkt 0) = true ∧ keyed.seenOf (spawnPkt 0) = none ∧ spawnRefusal frm 0 = 0 ∧
     spawnRefusal frm 0x200 ≠ 0 ∧ keyed.spawnFits (rspawnReq 0 0 (spawnPkt 0)) = true ∧
     ({ keyed with frames := [{ frm with stopped := true }] } : State).spawnFits (rspawnReq 0 0 (spawnPkt 0)) = false ∧
     (let x : SpawnReq × Packet := (rspawnReq 0 0 (spawnPkt 0), spawnPkt 0)
      256 ≤ ({ keyed with heldSpawn := List.replicate 256 x } : State).heldSpawn.length)) := by decide +kernel

/-- The flight of an inbound write of a line. -/
def inboundFlight (p : Packet) : Entry := inboundEntry 0 (.global 0x40000000 1 ⟨0x40000000, [], 0, 0⟩) p

theorem witness_InboundPackets_perform :
    (∀ p ∈ [pkt 0 3 0 8, pkt 2 16 0 8, pkt 6 0 0 72],
      (let e := inboundFlight p
       let s := job (.flight e)
       s.memsOk = true ∧ s.act? 7 = some (jobAct (.flight e)) ∧ s.mayPerform (jobAct (.flight e)) = some e ∧ e.ack = some p ∧
       (s.keyOf 1).isSome = true)) ∧
    (match (inboundFlight (pkt 0 3 0 8)).kind with
     | .data bs => bs.all (fun x => decide (x.1 < 64)) && decide ((bs.map (fun x => x.1)).Nodup)
     | _ => false) = true ∧
    (match (inboundFlight (pkt 2 16 0 8)).kind with
     | .atomic off sz .. => decide (off + sz ≤ 64) && (job (.flight (inboundFlight (pkt 2 16 0 8)))).badAt 0 0 ((inboundFlight (pkt 2 16 0 8)).line.plus off) == none &&
         (({ job (.flight (inboundFlight (pkt 2 16 0 8))) with bad := [⟨true, 0, 0, 0, 0x1000000, true⟩] } : State).badAt 0 0
           ((inboundFlight (pkt 2 16 0 8)).line.plus off)) == some true
     | _ => false) = true ∧
    (let s : State := { small with settled := [(pkt 0 3 0 8, 0, 0)], threads := [] }
     s.agenda = [] ∧ s.auto = true ∧ s.windowEvent = none ∧ s.dueEvent s.acts = none ∧ s.stateEvent = none) := by decide +kernel

theorem witness_SwitchAndHoldEvents_routes :
    (let p : Packet := { pkt 0 3 0 8 with target := 1 }
     let down (l : List Nat) : State := { small with eports := l.map (fun k => (k, { EPort.reset with up := false })) }
     small.addressed p = false ∧ p.crcBad = false ∧ small.foreign p = false ∧ (small.eport 0).up = true ∧ p.hops < 2 ∧
     ((down [0, 1]).eport 0).up = false ∧ ((down [0, 1]).eport 1).up = false ∧ ((down [0, 1]).eport 4).up = true ∧
     ((down (List.range 16)).eport 4).up = false ∧ ((down (List.range 16)).eport 15).up = false) ∧
    small.addressed { pkt 0 3 0 8 with target := 4096 } = false ∧ (small.pkgid.toNat / 4096 ≠ 4096 / 4096) ∧
    ({ small with txBad := [0] } : State).txBad.contains 0 = true := by decide +kernel

/-- Inbound writes that fill the endpoint's buffer of 4 MiB. -/
theorem full_packet : packetSize (pkt 6 3 0 4096) = 4192 := by decide +kernel

theorem witness_InboundPackets_full :
    ({ small with inbuf := List.replicate 1024 (0, .scratch 0 0 false, pkt 6 3 0 4096) } : State).bufferFull (pkt 0 3 0 8) = true := by
  unfold State.bufferFull State.inbufBytes
  generalize hp : pkt 6 3 0 4096 = p
  have h := full_packet
  rw [hp] at h
  have f : ∀ n m, (List.replicate n ((0 : Nat), Place.scratch 0 0 false, p)).foldl (fun k x => k + packetSize x.2.2) m = m + n * 4192 := by
    intro n
    induction n with
    | zero => intro m; simp
    | succ n ih => intro m; simp only [List.replicate_succ, List.foldl_cons, h, ih]; omega
  simp only [f]
  decide

theorem witness_SwitchAndHoldEvents_drops :
    (let p : Packet := { pkt 0 3 0 8 with iface := 1 }
     small.addressed p = false ∧ p.crcBad = false ∧ small.foreign p = true) ∧
    (let p : Packet := { pkt 0 3 0 8 with opc := 9 }
     small.addressed p = true ∧ p.crcBad = false ∧ pktInTable p = false) ∧
    (let s : State := { small with entries := [⟨9, 1, []⟩], heldOf := [pkt 0 3 1 8] }
     ∃ q ∈ s.heldOf, q.stream = 1 ∧ q.fkey = 9) ∧ (12 : Nat) ≤ 15 ∧ (0 : Nat) < 12 := by decide +kernel

end Sys2Proof.Tests
end

section
/-! PROOFS. What the shared operations leave: frames and semaphores under their updates, a trap and the end of a wait of one thread, and
what the service of a semaphore keeps. -/

namespace Sys2Proof.Machine

/-! ### Memory and frames -/

theorem State.sameMemory.refl (s : State) : s.sameMemory s := fun _ _ _ => rfl

theorem State.sameMemory.trans {s t u : State} (h1 : s.sameMemory t) (h2 : t.sameMemory u) : s.sameMemory u :=
  fun rgn knum p => (h2 rgn knum p).trans (h1 rgn knum p)

theorem State.sameMemory_modThread (s : State) (cl slot : Nat) (f : Thread → Thread) : s.sameMemory (s.modThread cl slot f) :=
  State.sameMemory_of_eq rfl rfl rfl rfl rfl

theorem State.sameMemory_dropAct (s : State) (id : Nat) : s.sameMemory (s.dropAct id) :=
  State.sameMemory_of_eq (by simp) (by simp) (by simp) (by simp) (by simp)

/-- A lookup reads the threads alone. -/
theorem State.thread?_of_threads {s t : State} (h : t.threads = s.threads) (cl slot : Nat) : t.thread? cl slot = s.thread? cl slot := by
  unfold State.thread?
  rw [h]

/-- A lookup reads the frames alone. -/
theorem State.frame?_of_frames {s t : State} (h : t.frames = s.frames) (cl rgn knum : Nat) : t.frame? cl rgn knum = s.frame? cl rgn knum := by
  unfold State.frame?
  rw [h]

/-- The frame of the thread in issue is found under that thread's names. -/
theorem State.ctx?_frame {s : State} {c : Ctx} (h : s.ctx? = some c) : s.frame? c.t.cl c.t.rgn c.t.knum = some c.f := by
  unfold State.ctx? at h
  split at h
  · cases h
  · split at h
    · next hf _ => cases h; exact hf
    · cases h

/-- A frame's update under any key: the frame of that key is updated, and every other one stays. -/
theorem State.frame?_modFrame_any (s : State) (cl rgn knum c r k : Nat) {f : Frame → Frame}
    (hf : ∀ x, (f x).cl = x.cl ∧ (f x).rgn = x.rgn ∧ (f x).knum = x.knum) :
    (s.modFrame cl rgn knum f).frame? c r k =
      (s.frame? c r k).map (fun x => if x.cl = cl ∧ x.rgn = rgn ∧ x.knum = knum then f x else x) := by
  unfold State.frame? State.modFrame
  rw [List.find?_map]
  congr 2
  funext x
  simp only [Function.comp]
  split
  · rw [(hf x).1, (hf x).2.1, (hf x).2.2]
  · rfl

/-- A frame's update that keeps the scratchpad window changes no byte of memory. -/
theorem State.sameMemory_modFrame (s : State) (cl rgn knum : Nat) {f : Frame → Frame}
    (hf : ∀ x, (f x).cl = x.cl ∧ (f x).rgn = x.rgn ∧ (f x).knum = x.knum) (hscr : ∀ x, (f x).scr = x.scr) :
    s.sameMemory (s.modFrame cl rgn knum f) := by
  intro r k p
  cases p with
  | scratch c o _ =>
    simp only [State.readByte, State.frame?_modFrame_any _ _ _ _ _ _ _ hf]
    cases s.frame? c r k with
    | none => rfl
    | some x =>
      simp only [Option.map_some]
      split
      · rw [hscr]
      · rfl
  | _ => rfl

/-! ### Semaphores of a frame -/

theorem Frame.sem_set_same (f : Frame) {k : Nat} (v : Sem) (h : k < f.sems.length) : ({ f with sems := f.sems.set k v } : Frame).sem k = v := by
  simp [Frame.sem, nth, h]

theorem Frame.sem_set_other (f : Frame) {k j : Nat} (v : Sem) (h : j ≠ k) : ({ f with sems := f.sems.set k v } : Frame).sem j = f.sem j := by
  simp [Frame.sem, nth, Ne.symm h]

theorem State.frame?_setSem {s : State} {cl rgn knum : Nat} {f : Frame} (k : Nat) (v : Sem) (h : s.frame? cl rgn knum = some f) :
    (s.setSem cl rgn knum k v).frame? cl rgn knum = some { f with sems := f.sems.set k v } := by
  unfold State.setSem
  rw [State.frame?_modFrame, h]
  · rfl
  · exact fun x => ⟨rfl, rfl, rfl⟩

theorem State.setSem_modThread (s : State) (cl rgn knum k : Nat) (v : Sem) (c slot : Nat) (f : Thread → Thread) :
    (s.setSem cl rgn knum k v).modThread c slot f = (s.modThread c slot f).setSem cl rgn knum k v := rfl

theorem State.sameMemory_setSem (s : State) (cl rgn knum k : Nat) (v : Sem) : s.sameMemory (s.setSem cl rgn knum k v) :=
  s.sameMemory_modFrame cl rgn knum (fun _ => ⟨rfl, rfl, rfl⟩) (fun _ => rfl)

/-- The count that a taken amount leaves. -/
theorem Sem.toNat_sub_ofNat {c : BitVec 16} {n : Nat} (h : n ≤ c.toNat) : (c - BitVec.ofNat 16 n).toNat = c.toNat - n := by
  have := c.isLt
  rw [BitVec.toNat_sub_of_le] <;> simp [BitVec.le_def, Nat.mod_eq_of_lt (show n < 65536 by omega), h]

/-- A signal that stays in range adds its increment and keeps the poison (02 R37). -/
theorem Sem.signal_in_range {v : Sem} {inc : Nat} (h : v.count.toNat + inc ≤ 65535) :
    (v.signal inc).count.toNat = v.count.toNat + inc ∧ (v.signal inc).poison = v.poison := by
  unfold Sem.signal
  rw [if_neg (by omega)]
  refine ⟨?_, rfl⟩
  simp only [BitVec.toNat_add, BitVec.toNat_ofNat]
  omega

/-- A signal past 65,535 leaves the count there and sets the poison (02 R37). -/
theorem Sem.signal_saturates {v : Sem} {inc : Nat} (h : 65535 < v.count.toNat + inc) : v.signal inc = { count := 65535, poison := true } := by
  unfold Sem.signal
  rw [if_pos h]

/-- The frame of a key holds value v in semaphore k, and its other semaphores are those of f. -/
def State.semStands (s : State) (cl rgn knum k : Nat) (f : Frame) (v : Sem) : Prop :=
  ∃ g, s.frame? cl rgn knum = some g ∧ k < g.sems.length ∧ g.sem k = v ∧ ∀ j, j ≠ k → g.sem j = f.sem j

theorem State.semStands_of_frames {s t : State} {cl rgn knum k : Nat} {f : Frame} {v : Sem} (h : t.frames = s.frames)
    (hs : s.semStands cl rgn knum k f v) : t.semStands cl rgn knum k f v := by
  unfold State.semStands
  rw [State.frame?_of_frames h]
  exact hs

/-- A semaphore stands at the value that it is set to. -/
theorem State.semStands_setSem {s : State} {cl rgn knum k : Nat} {f : Frame} {w : Sem} (v : Sem) (h : s.semStands cl rgn knum k f w) :
    (s.setSem cl rgn knum k v).semStands cl rgn knum k f v := by
  obtain ⟨g, hg, hk, -, ho⟩ := h
  refine ⟨_, State.frame?_setSem k v hg, by simpa using hk, Frame.sem_set_same g v hk, fun j hj => ?_⟩
  rw [Frame.sem_set_other g v hj, ho j hj]

/-! ### One thread's turn: a trap, or the end of its wait -/

/-- The machine x is s after something happened to the thread of one slot alone, which is u now; records and semaphores may differ,
memory does not. -/
structure State.turns (s x : State) (cl slot : Nat) (u : Thread) : Prop where
  thread : x.thread? cl slot = some u
  others : ∀ c k, ¬ (c = cl ∧ k = slot) → x.thread? c k = s.thread? c k
  memory : s.sameMemory x

/-- A parked thread at the PC that its trap gives. -/
def Thread.parkedAt (t : Thread) (pc : Word) (solo : Bool) : Thread :=
  { t with wait := .parked, pc := pc, soloC := solo, pre := none, left := 0, launch := false, w := 0 }

/-- A thread that goes on. -/
def Thread.goesOn (t : Thread) : Thread := { t with wait := .none, w := 0 }

section OneThread
variable {s : State} {cl slot : Nat} {t : Thread}

theorem State.turns_modThread {f : Thread → Thread} (hf : ∀ u, (f u).cl = u.cl ∧ (f u).slot = u.slot)
    (h : s.thread? cl slot = some t) : s.turns (s.modThread cl slot f) cl slot (f t) := by
  refine ⟨?_, fun c k hk => State.thread?_modThread_ne _ _ hf hk, State.sameMemory_modThread s _ _ f⟩
  rw [State.thread?_modThread _ _ _ _ hf, h]
  rfl

/-- WHAT TAKING A TRAP LEAVES: its thread is parked at the PC of the trap, every other one and every frame stays, and the record is raised. -/
theorem State.park_spec (pc : Word) (solo : Bool) (tr : Trap) (h : s.thread? cl slot = some t) :
    s.turns (s.park cl slot pc solo tr) cl slot (t.parkedAt pc solo) ∧ (s.park cl slot pc solo tr).frames = s.frames ∧
      s.recorded (s.park cl slot pc solo tr) (s.parkRecord t pc tr) := by
  refine ⟨⟨State.thread?_park pc solo tr h, fun c k hk => ?_, (s.park_keeps ..).1⟩, (s.park_keeps ..).2, ?_⟩
  · unfold State.park
    simp only [h]
    rw [State.raise_thread?, State.thread?_modThread_ne _ _ _ hk]
    exact fun _ => ⟨rfl, rfl⟩
  · obtain ⟨rfl, rfl⟩ := State.thread?_spec h
    exact State.recorded_park pc solo tr h

/-- A trap after issue parks its thread at the PC of 10 R200. -/
theorem State.trapIssued_eq (tr : Trap) (h : s.thread? cl slot = some t) : s.trapIssued cl slot tr = s.park cl slot t.ipc t.isolo tr := by
  unfold State.trapIssued
  rw [h]

theorem State.trapIssued_spec (tr : Trap) (h : s.thread? cl slot = some t) :
    s.turns (s.trapIssued cl slot tr) cl slot (t.parkedAt t.ipc t.isolo) ∧ (s.trapIssued cl slot tr).frames = s.frames ∧
      s.recorded (s.trapIssued cl slot tr) (s.parkRecord t t.ipc tr) := by
  rw [State.trapIssued_eq tr h]
  exact State.park_spec t.ipc t.isolo tr h

/-- Without late failures nothing is delivered. -/
theorem State.deliverLate_of_late_nil (h : s.thread? cl slot = some t) (hl : t.late = []) : s.deliverLate cl slot = s := by
  unfold State.deliverLate
  rw [h]
  simp only [hl, earliestLate]

/-- Without late failures the end of a wait makes the thread ready, and does nothing else. -/
theorem State.endWait_of_late_nil (h : s.thread? cl slot = some t) (hl : t.late = []) :
    s.endWait cl slot = s.modThread cl slot Thread.goesOn :=
  State.deliverLate_of_late_nil (State.turns_modThread (f := Thread.goesOn) (fun _ => ⟨rfl, rfl⟩) h).thread hl

/-- A waiter that is served: its semaphore is left at v, and its wait ends. -/
theorem State.served_spec {rgn knum k : Nat} {f : Frame} {w : Sem} (v : Sem) (ht : s.thread? cl slot = some t)
    (hl : t.late = []) (hs : s.semStands cl rgn knum k f w) :
    s.turns ((s.setSem cl rgn knum k v).endWait cl slot) cl slot t.goesOn ∧
      ((s.setSem cl rgn knum k v).endWait cl slot).semStands cl rgn knum k f v := by
  have ht' : (s.setSem cl rgn knum k v).thread? cl slot = some t := ht
  rw [State.endWait_of_late_nil ht' hl]
  obtain ⟨h1, h2, h3⟩ := State.turns_modThread (f := Thread.goesOn) (fun _ => ⟨rfl, rfl⟩) ht'
  exact ⟨⟨h1, h2, (State.sameMemory_setSem s _ _ _ _ v).trans h3⟩, State.semStands_of_frames rfl (State.semStands_setSem v hs)⟩

end OneThread

/-- Two machines raise a record alike: they have the same pairs, regions and records behind switch windows. -/
structure State.recordsAlike (s s' : State) : Prop where
  pairs : s'.pairs = s.pairs
  clmap : s'.clmap = s.clmap
  regions : s'.regions = s.regions
  deferred : s'.deferred = s.deferred

theorem State.recordsAlike.trans {s t u : State} (h1 : s.recordsAlike t) (h2 : t.recordsAlike u) : s.recordsAlike u :=
  ⟨h2.pairs.trans h1.pairs, h2.clmap.trans h1.clmap, h2.regions.trans h1.regions, h2.deferred.trans h1.deferred⟩

theorem State.recordsAlike_setSem (s : State) (cl rgn knum k : Nat) (v : Sem) : s.recordsAlike (s.setSem cl rgn knum k v) :=
  ⟨by simp, by simp, by simp, by simp⟩

theorem State.recordsAlike_modThread (s : State) (cl slot : Nat) (f : Thread → Thread) : s.recordsAlike (s.modThread cl slot f) :=
  ⟨by simp, by simp, by simp, by simp⟩

theorem State.recordsAlike_dropAct (s : State) (id : Nat) : s.recordsAlike (s.dropAct id) :=
  ⟨by simp, by simp, by simp, by simp⟩

theorem State.recordsAlike.recorded {s s' x : State} {r : Record} (ha : s.recordsAlike s') (h : s'.recorded x r) : s.recorded x r := by
  obtain ⟨hp, hc, hr, hd⟩ := ha
  have hpair : s'.pair (s'.pairOf r.lcl) = s.pair (s.pairOf r.lcl) := by
    simp only [State.pair, State.pairOf, State.physOf, hp, hc]
  have hof : s'.pairOf r.lcl = s.pairOf r.lcl := by simp only [State.pairOf, State.physOf, hc]
  have hreg : s'.region? = s.region? := by funext n; simp only [State.region?, hr]
  have hown : s'.fqOwner r.rgn = s.fqOwner r.rgn := by simp only [State.fqOwner, hreg]
  unfold State.recorded at h ⊢
  rwa [hpair, hof, hreg, hown, hd] at h

/-- The record of a thread's trap is alike too: it rests on the thread's names, the PC, the trap and the state of the cluster's pair. -/
theorem State.recordsAlike.parkRecord {s s' x : State} {t u : Thread} {pc : Word} {tr : Trap} (ha : s.recordsAlike s')
    (hu : u.cl = t.cl ∧ u.slot = t.slot ∧ u.rgn = t.rgn ∧ u.knum = t.knum) (h : s'.recorded x (s'.parkRecord u pc tr)) :
    s.recorded x (s.parkRecord t pc tr) := by
  have hrec : s'.parkRecord u pc tr = s.parkRecord t pc tr := by
    obtain ⟨h1, h2, h3, h4⟩ := hu
    simp only [State.parkRecord, State.pstate, State.pair, State.pairOf, State.physOf, ha.pairs, ha.clmap, h1, h2, h3, h4]
  rw [hrec] at h
  exact ha.recorded h

/-! ### A waiter is examined (02 R38, R40) -/

section Waiter
variable {s : State} {t : Thread} {f : Frame} {v : Sem} {cl slot rgn knum k n o u : Nat} {lim : Word}

theorem State.serveOne_sem (ht : s.thread? cl slot = some t) (hf : s.frame? cl rgn knum = some f) (hw : t.wait = .sem k n lim u o) :
    s.serveOne cl rgn knum slot =
      if (f.sem k).poison then s.trapIssued cl slot ⟨259, semid cl k, BitVec.ofNat 64 (f.sem k).count.toNat, BitVec.ofNat 64 n, 0⟩
      else if n ≤ (f.sem k).count.toNat then
        (s.setSem cl rgn knum k { f.sem k with count := (f.sem k).count - BitVec.ofNat 16 n }).endWait cl slot
      else s := by
  unfold State.serveOne
  simp only [ht, hf, hw]

theorem State.serveOne_ring {p : BitVec 3} (ht : s.thread? cl slot = some t) (hf : s.frame? cl rgn knum = some f)
    (hw : t.wait = .ring p k n lim u o) :
    s.serveOne cl rgn knum slot =
      if (f.sem k).poison then s.trapIssued cl slot ⟨259, semid cl k, BitVec.ofNat 64 (f.sem k).count.toNat, BitVec.ofNat 64 n, 0⟩
      else if (f.sem (k + 1)).poison then
        s.trapIssued cl slot ⟨259, semid cl (k + 1), BitVec.ofNat 64 (f.sem (k + 1)).count.toNat, BitVec.ofNat 64 n, 0⟩
      else if n ≤ (f.sem k).count.toNat then
        ((s.setSem cl rgn knum k { f.sem k with count := (f.sem k).count - BitVec.ofNat 16 n }).modThread cl slot
          (fun t => t.setP p.toNat false)).endWait cl slot
      else if n ≤ (f.sem (k + 1)).count.toNat then
        ((s.setSem cl rgn knum (k + 1) { f.sem (k + 1) with count := (f.sem (k + 1)).count - BitVec.ofNat 16 n }).modThread cl slot
          (fun t => t.setP p.toNat true)).endWait cl slot
      else s := by
  unfold State.serveOne
  simp only [ht, hf, hw]

/-- A waiter whose amount is there takes it and goes on. -/
theorem State.serveOne_sem_takes (ht : s.thread? cl slot = some t) (hl : t.late = []) (hw : t.wait = .sem k n lim u o)
    (hs : s.semStands cl rgn knum k f v) (hp : v.poison = false) (hn : n ≤ v.count.toNat) :
    s.turns (s.serveOne cl rgn knum slot) cl slot t.goesOn ∧
      (s.serveOne cl rgn knum slot).semStands cl rgn knum k f { v with count := v.count - BitVec.ofNat 16 n } := by
  obtain ⟨g, hg, hk, rfl, ho⟩ := id hs
  rw [State.serveOne_sem ht hg hw, if_neg (by simp [hp]), if_pos hn]
  exact State.served_spec _ ht hl hs

/-- A waiter whose amount is not there goes on waiting. -/
theorem State.serveOne_sem_waits (ht : s.thread? cl slot = some t) (hw : t.wait = .sem k n lim u o)
    (hs : s.semStands cl rgn knum k f v) (hp : v.poison = false) (hn : v.count.toNat < n) : s.serveOne cl rgn knum slot = s := by
  obtain ⟨g, hg, hk, rfl, ho⟩ := hs
  rw [State.serveOne_sem ht hg hw, if_neg (by simp [hp]), if_neg (by omega)]

/-- Poison parks a waiter with 4.0.3, and nothing is taken. -/
theorem State.serveOne_sem_poisoned (ht : s.thread? cl slot = some t) (hw : t.wait = .sem k n lim u o)
    (hs : s.semStands cl rgn knum k f v) (hp : v.poison = true) :
    s.serveOne cl rgn knum slot = s.trapIssued cl slot ⟨259, semid cl k, BitVec.ofNat 64 v.count.toNat, BitVec.ofNat 64 n, 0⟩ := by
  obtain ⟨g, hg, hk, rfl, ho⟩ := hs
  rw [State.serveOne_sem ht hg hw, if_pos hp]

end Waiter

/-! ### What serving waiters keeps, whoever they are -/

/-- From s to x no byte of memory changes, and no slot that held no thread holds one. -/
structure State.keepsRest (s x : State) : Prop where
  memory : s.sameMemory x
  absent : ∀ c k, s.thread? c k = none → x.thread? c k = none

theorem State.keepsRest.refl (s : State) : s.keepsRest s := ⟨State.sameMemory.refl s, fun _ _ h => h⟩

theorem State.keepsRest.trans {s x y : State} (h1 : s.keepsRest x) (h2 : x.keepsRest y) : s.keepsRest y :=
  ⟨h1.memory.trans h2.memory, fun c k h => h2.absent c k (h1.absent c k h)⟩

theorem State.keepsRest_modThread (s : State) (cl slot : Nat) {f : Thread → Thread} (hf : ∀ t, (f t).cl = t.cl ∧ (f t).slot = t.slot) :
    s.keepsRest (s.modThread cl slot f) := by
  refine ⟨State.sameMemory_modThread s cl slot f, fun c k h => ?_⟩
  by_cases hk : c = cl ∧ k = slot
  · obtain ⟨rfl, rfl⟩ := hk
    rw [State.thread?_modThread _ _ _ _ hf, h]
    rfl
  · rw [State.thread?_modThread_ne _ _ hf hk, h]

theorem State.keepsRest_setSem (s : State) (cl rgn knum k : Nat) (v : Sem) : s.keepsRest (s.setSem cl rgn knum k v) :=
  ⟨State.sameMemory_setSem s cl rgn knum k v, fun _ _ h => h⟩

theorem State.keepsRest_park (s : State) (cl slot : Nat) (pc : Word) (solo : Bool) (tr : Trap) : s.keepsRest (s.park cl slot pc solo tr) := by
  refine ⟨(s.park_keeps ..).1, fun c k h => ?_⟩
  unfold State.park
  split
  · exact h
  · rw [State.raise_thread?]
    refine (State.keepsRest_modThread s cl slot ?_).absent c k h
    exact fun _ => ⟨rfl, rfl⟩

theorem State.keepsRest_trapIssued (s : State) (cl slot : Nat) (tr : Trap) : s.keepsRest (s.trapIssued cl slot tr) := by
  unfold State.trapIssued
  split
  · exact .refl s
  · exact s.keepsRest_park ..

theorem State.keepsRest_trapNext (s : State) (cl slot : Nat) (tr : Trap) : s.keepsRest (s.trapNext cl slot tr) := by
  unfold State.trapNext
  split
  · exact .refl s
  · exact s.keepsRest_park ..

theorem State.keepsRest_deliverLate (s : State) (cl slot : Nat) : s.keepsRest (s.deliverLate cl slot) := by
  have h1 (l : Late) : s.keepsRest (s.modThread cl slot fun t => { t with late := t.late.erase l }) :=
    State.keepsRest_modThread s cl slot fun t => ⟨rfl, rfl⟩
  unfold State.deliverLate
  split
  · exact .refl s
  · split
    · exact .refl s
    · simp only
      split
      · exact (h1 _).trans (State.keepsRest_trapNext _ _ _ _)
      · split
        · exact (h1 _).trans (State.keepsRest_trapIssued _ _ _ _)
        · exact .refl s
      · exact (h1 _).trans (State.keepsRest_trapIssued _ _ _ _)
      · exact .refl s

theorem State.keepsRest_endWait (s : State) (cl slot : Nat) : s.keepsRest (s.endWait cl slot) :=
  (State.keepsRest_modThread s cl slot (f := Thread.goesOn) fun _ => ⟨rfl, rfl⟩).trans
    (State.keepsRest_deliverLate _ cl slot)

theorem State.keepsRest_serveOne (s : State) (cl rgn knum slot : Nat) : s.keepsRest (s.serveOne cl rgn knum slot) := by
  have taken (k : Nat) (v : Sem) : s.keepsRest ((s.setSem cl rgn knum k v).endWait cl slot) :=
    (s.keepsRest_setSem cl rgn knum k v).trans (State.keepsRest_endWait _ cl slot)
  have taken' (k p : Nat) (v : Sem) (b : Bool) :
      s.keepsRest (((s.setSem cl rgn knum k v).modThread cl slot (fun t => t.setP p b)).endWait cl slot) :=
    ((s.keepsRest_setSem cl rgn knum k v).trans (State.keepsRest_modThread _ cl slot (f := fun t => t.setP p b) fun _ => ⟨rfl, rfl⟩)).trans
      (State.keepsRest_endWait _ cl slot)
  unfold State.serveOne
  split
  · split
    · simp only
      split
      · exact s.keepsRest_trapIssued ..
      · split
        · exact taken _ _
        · exact .refl s
    · simp only
      split
      · exact s.keepsRest_trapIssued ..
      · split
        · exact s.keepsRest_trapIssued ..
        · split
          · exact taken' _ _ _ _
          · split
            · exact taken' _ _ _ _
            · exact .refl s
    · exact .refl s
  · exact .refl s

theorem State.keepsRest_serveList (cl rgn knum : Nat) (l : List (Nat × Nat)) : ∀ s : State, s.keepsRest (s.serveList cl rgn knum l) := by
  induction l with
  | nil => exact State.keepsRest.refl
  | cons x r ih => exact fun s => (s.keepsRest_serveOne cl rgn knum x.2).trans (ih _)

/-- A signal changes semaphores and waiting threads: no byte of memory, and no empty slot. -/
theorem State.keepsRest_signal (s : State) (cl rgn knum k inc : Nat) : s.keepsRest (s.signal cl rgn knum k inc) := by
  unfold State.signal
  split
  · exact .refl s
  · split
    · exact .refl s
    · exact (s.keepsRest_setSem ..).trans (State.keepsRest_serveList _ _ _ _ _)

/-- A semaphore without waiters serves nobody. -/
theorem State.serve_of_no_waiters {s : State} {cl rgn knum k : Nat} (h : s.semWaiters cl rgn knum k = []) : s.serve cl rgn knum k = s := by
  unfold State.serve
  rw [h]
  rfl

/-- A signal of a semaphore without waiters sets the semaphore alone. -/
theorem State.signal_of_no_waiters {s : State} {cl rgn knum k inc : Nat} {f : Frame} (hf : s.frame? cl rgn knum = some f) (hi : inc ≠ 0)
    (h : s.semWaiters cl rgn knum k = []) : s.signal cl rgn knum k inc = s.setSem cl rgn knum k ((f.sem k).signal inc) := by
  unfold State.signal
  simp only [hf, if_neg hi]
  exact State.serve_of_no_waiters h

end Sys2Proof.Machine
end

section
namespace Sys2Proof.Machine

/-! ### SWAIT and QWAIT -/

/-- The machine in which the wait of the thread in issue begins, before the arbiter examines it (11 R242). -/
def State.waitBegun (s : State) (c : Ctx) (w : Wait) : State := (s.begin c).bump.startWait c.t.cl c.t.slot w

/-- The thread in issue as it begins to wait. -/
def State.waitingThread (s : State) (c : Ctx) (w : Wait) : Thread := { s.issuedThread c with wait := w }

@[simp] theorem State.waitBegun_frames (s : State) (c : Ctx) (w : Wait) : (s.waitBegun c w).frames = s.frames := by simp [State.waitBegun]

theorem State.recordsAlike_waitBegun (s : State) (c : Ctx) (w : Wait) : s.recordsAlike (s.waitBegun c w) := by
  constructor <;> simp [State.waitBegun]

theorem State.thread?_waitBegun {s : State} {c : Ctx} (w : Wait) (h : s.ctx? = some c) :
    (s.waitBegun c w).thread? c.t.cl c.t.slot = some (s.waitingThread c w) := by
  have hb : (s.begin c).bump.thread? c.t.cl c.t.slot = some (s.issuedThread c) := State.thread?_begin h
  unfold State.waitBegun State.startWait
  rw [State.thread?_modThread, hb]
  · rfl
  · exact fun t => ⟨rfl, rfl⟩

theorem State.sameMemory_waitBegun (s : State) (c : Ctx) (w : Wait) : s.sameMemory (s.waitBegun c w) :=
  State.sameMemory_of_eq (by simp) (by simp [State.waitBegun]) (by simp [State.waitBegun]) (by simp [State.waitBegun])
    (by simp [State.waitBegun])

theorem State.semStands_waitBegun {s : State} {c : Ctx} (w : Wait) {k : Nat} (h : s.ctx? = some c) (hk : k < c.f.sems.length) :
    (s.waitBegun c w).semStands c.t.cl c.t.rgn c.t.knum k c.f (c.f.sem k) :=
  ⟨c.f, (State.frame?_of_frames (by simp) ..).trans (State.ctx?_frame h), hk, rfl, fun _ _ => rfl⟩

theorem exec_swait_of_issues {s : State} {c : Ctx} {d a : BitVec 5} {e : BitVec 8} (h : s.issues c (.swait d a e)) :
    exec (.swait d a e) s = .next ((s.waitBegun c (.sem e.toNat (c.t.getG a.toNat).toNat (c.t.getG d.toNat)
      (limitAt (s.pulse c.t.cl) (c.t.getG d.toNat).toNat) s.seq)).serveOne c.t.cl c.t.rgn c.t.knum c.t.slot) := by
  change execSwait d a e s = _
  unfold execSwait
  exact issueI_next h

theorem exec_qwait_of_issues {s : State} {c : Ctx} {d a : BitVec 5} {p : BitVec 3} {e : BitVec 7} (h : s.issues c (.qwait d a p e)) :
    exec (.qwait d a p e) s = .next ((s.waitBegun c (.ring p (2 * e.toNat) (c.t.getG a.toNat).toNat (c.t.getG d.toNat)
      (limitAt (s.pulse c.t.cl) (c.t.getG d.toNat).toNat) s.seq)).serveOne c.t.cl c.t.rgn c.t.knum c.t.slot) := by
  change execQwait d a p e s = _
  unfold execQwait
  exact issueI_next h

/-- A wait that ends at once with a trap: the thread's registers and every frame stay, and the PC is that of 10 R200. -/
theorem State.waitBegun_trapIssued {s : State} {c : Ctx} (w : Wait) (tr : Trap) (h : s.ctx? = some c) :
    s.sameMemory ((s.waitBegun c w).trapIssued c.t.cl c.t.slot tr) ∧ ((s.waitBegun c w).trapIssued c.t.cl c.t.slot tr).frames = s.frames ∧
      s.recorded ((s.waitBegun c w).trapIssued c.t.cl c.t.slot tr) (s.parkRecord c.t (s.issuedThread c).ipc tr) ∧
      ((s.waitBegun c w).trapIssued c.t.cl c.t.slot tr).thread? c.t.cl c.t.slot =
        some ((s.waitingThread c w).parkedAt (s.issuedThread c).ipc (s.issuedThread c).isolo) := by
  obtain ⟨h1, h2, h3⟩ := State.trapIssued_spec tr (State.thread?_waitBegun w h)
  exact ⟨(s.sameMemory_waitBegun c w).trans h1.memory, h2.trans (by simp),
    (s.recordsAlike_waitBegun c w).parkRecord ⟨rfl, rfl, rfl, rfl⟩ h3, h1.thread⟩

/-- A semaphore of the pair serves a QWAIT: it is left at v, and the thread goes on with its predicate (11 R243). -/
theorem State.waitBegun_ring_served {s : State} {c : Ctx} (w : Wait) {k : Nat} (p : BitVec 3) (b : Bool) (v : Sem) (h : s.ctx? = some c)
    (hl : c.t.late = []) (hk : k < c.f.sems.length) :
    ∃ x, (((s.waitBegun c w).setSem c.t.cl c.t.rgn c.t.knum k v).modThread c.t.cl c.t.slot (fun t => t.setP p.toNat b)).endWait c.t.cl c.t.slot = x ∧
      s.sameMemory x ∧ x.thread? c.t.cl c.t.slot = some ((s.waitingThread c w).setP p.toNat b).goesOn ∧
      x.semStands c.t.cl c.t.rgn c.t.knum k c.f v := by
  have h0 := State.turns_modThread (f := fun t => t.setP p.toNat b) (fun _ => ⟨rfl, rfl⟩) (State.thread?_waitBegun w h)
  have hs : ((s.waitBegun c w).modThread c.t.cl c.t.slot (fun t => t.setP p.toNat b)).semStands c.t.cl c.t.rgn c.t.knum k c.f (c.f.sem k) :=
    State.semStands_of_frames (by simp) (State.semStands_waitBegun w h hk)
  obtain ⟨h1, h2⟩ := State.served_spec v h0.thread hl hs
  rw [State.setSem_modThread]
  exact ⟨_, rfl, ((s.sameMemory_waitBegun c w).trans h0.memory).trans h1.memory, h1.thread, h2⟩

/-- Settles O28: the wait that SWAIT or QWAIT begins is examined at once, by the branches of the examination of a waiter. -/
theorem semaphoreWaits : Obligations.SemaphoreWaits := by
  unfold Obligations.SemaphoreWaits
  intro s c d a hl n lim limit pc sem goesOn waits traps
  have trapped (w : Wait) (k : Nat) (u : Sem) (hc : s.ctx? = some c) :
      let x := (s.waitBegun c w).trapIssued c.t.cl c.t.slot ⟨259, semid c.t.cl k, BitVec.ofNat 64 u.count.toNat, BitVec.ofNat 64 n, 0⟩
      s.sameMemory x ∧ traps x k u := by
    obtain ⟨h1, h2, h3, h4⟩ := State.waitBegun_trapIssued w ⟨259, semid c.t.cl k, BitVec.ofNat 64 u.count.toNat, BitVec.ofNat 64 n, 0⟩ hc
    exact ⟨h1, h2, h3, _, h4, rfl, rfl, rfl, fun _ => rfl, rfl⟩
  refine ⟨fun e hi he => ?_, fun p e hi he => ?_⟩
  · intro v
    rw [exec_swait_of_issues hi]
    let w : Wait := .sem e.toNat n lim limit s.seq
    have ht := State.thread?_waitBegun w hi.1
    have hs := State.semStands_waitBegun w hi.1 he
    have hm := s.sameMemory_waitBegun c w
    refine ⟨fun hp hn => ?_, fun hp hn => ?_, fun hp => ?_⟩
    · obtain ⟨h1, g, hg, -, hk, ho⟩ := State.serveOne_sem_takes ht hl rfl hs hp hn
      exact ⟨_, rfl, hm.trans h1.memory, ⟨g, hg, hk⟩, fun k hk => ⟨g, hg, ho k hk⟩, _, h1.thread, rfl, rfl, rfl, fun _ => rfl, rfl⟩
    · refine ⟨s.waitBegun c w, ?_, hm, rfl, _, ht, rfl, rfl, rfl, fun _ => rfl, rfl⟩
      exact congrArg _ (State.serveOne_sem_waits ht rfl hs hp hn)
    · rw [State.serveOne_sem_poisoned ht rfl hs hp]
      exact ⟨_, rfl, trapped w _ _ hi.1⟩
  · intro v v'
    rw [exec_qwait_of_issues hi]
    let w : Wait := .ring p (2 * e.toNat) n lim limit s.seq
    have hf : (s.waitBegun c w).frame? c.t.cl c.t.rgn c.t.knum = some c.f :=
      (State.frame?_of_frames (by simp) ..).trans (State.ctx?_frame hi.1)
    rw [State.serveOne_ring (State.thread?_waitBegun w hi.1) hf rfl]
    refine ⟨fun hp hp' hn => ?_, fun hp hp' hn hn' => ?_, fun hp hp' hn hn' => ?_, fun hp => ?_, fun hp hp' => ?_⟩
    · rw [if_neg (ne_true_of_eq_false hp), if_neg (ne_true_of_eq_false hp'), if_pos hn]
      obtain ⟨x, hx, hm, ht, g, hg, -, hk, ho⟩ := State.waitBegun_ring_served w p false
        { v with count := v.count - BitVec.ofNat 16 n } hi.1 hl (k := 2 * e.toNat) (by omega)
      exact ⟨x, congrArg _ hx, hm, ⟨g, hg, hk⟩, fun k hk => ⟨g, hg, ho k hk⟩, _, ht, rfl, rfl, rfl, fun _ => rfl, rfl⟩
    · rw [if_neg (ne_true_of_eq_false hp), if_neg (ne_true_of_eq_false hp'), if_neg (Nat.not_le.mpr hn), if_pos hn']
      obtain ⟨x, hx, hm, ht, g, hg, -, hk, ho⟩ := State.waitBegun_ring_served w p true
        { v' with count := v'.count - BitVec.ofNat 16 n } hi.1 hl he
      exact ⟨x, congrArg _ hx, hm, ⟨g, hg, hk⟩, fun k hk => ⟨g, hg, ho k hk⟩, _, ht, rfl, rfl, rfl, fun _ => rfl, rfl⟩
    · rw [if_neg (ne_true_of_eq_false hp), if_neg (ne_true_of_eq_false hp'), if_neg (Nat.not_le.mpr hn), if_neg (Nat.not_le.mpr hn')]
      exact ⟨_, rfl, s.sameMemory_waitBegun c w, rfl, _, State.thread?_waitBegun w hi.1, rfl, rfl, rfl, fun _ => rfl, rfl⟩
    · rw [if_pos hp]
      exact ⟨_, rfl, trapped w _ _ hi.1⟩
    · rw [if_neg (ne_true_of_eq_false hp), if_pos hp']
      exact ⟨_, rfl, trapped w _ _ hi.1⟩

end Sys2Proof.Machine
end

section
namespace Sys2Proof.Machine

/-! ### Limits that end (02 R30, R39, R40; 04 R90; 11 R239) -/

/-- A limit that has ended the wait of thread t: in x its thread is parked at its last bundle with its registers as they were, and the
record is raised. -/
def State.expires (s x : State) (t : Thread) (arrived : Bool) (tr : Trap) : Prop :=
  ∃ u, x.thread? t.cl t.slot = some u ∧ u.wait = .parked ∧ u.pc = t.ipc ∧ (∀ r, u.getG r = t.getG r) ∧ u.p = t.p ∧ u.bsarr = arrived ∧
    x.frames = s.frames ∧ s.sameMemory x ∧ s.recorded x (s.parkRecord t t.ipc tr)

section Limits
variable {s : State} {t : Thread} {f : Frame}

theorem State.expires_trapIssued (tr : Trap) (h : s.thread? t.cl t.slot = some t) : s.expires (s.trapIssued t.cl t.slot tr) t t.bsarr tr := by
  obtain ⟨h1, h2, h3⟩ := State.trapIssued_spec tr h
  exact ⟨_, h1.thread, rfl, rfl, fun _ => rfl, rfl, rfl, h2, h1.memory, h3⟩

/-- Work that is dropped before the trap leaves the thread and its record as they are. -/
theorem State.expires_dropAct {id : Nat} (tr : Trap) (h : s.thread? t.cl t.slot = some t) :
    s.expires ((s.dropAct id).trapIssued t.cl t.slot tr) t t.bsarr tr := by
  obtain ⟨h1, h2, h3⟩ := State.trapIssued_spec tr ((State.thread?_of_threads (s.dropAct_threads id) _ _).trans h)
  exact ⟨_, h1.thread, rfl, rfl, fun _ => rfl, rfl, rfl, h2.trans (by simp), (s.sameMemory_dropAct id).trans h1.memory,
    (s.recordsAlike_dropAct id).parkRecord ⟨rfl, rfl, rfl, rfl⟩ h3⟩

/-- BARSYNC keeps in BSARR that its arrival has counted (11 R248). -/
def Thread.keepArrival (sync : Bool) (t : Thread) : Thread := if sync then { t with bsarr := true } else t

theorem State.expires_keepArrival (sync : Bool) (tr : Trap) (h : s.thread? t.cl t.slot = some t) :
    s.expires ((s.modThread t.cl t.slot (Thread.keepArrival sync)).trapIssued t.cl t.slot tr) t (sync || t.bsarr) tr := by
  have h0 := State.turns_modThread (f := Thread.keepArrival sync) (fun _ => by cases sync <;> exact ⟨rfl, rfl⟩) h
  obtain ⟨h1, h2, h3⟩ := State.trapIssued_spec tr h0.thread
  have hr := (s.recordsAlike_modThread t.cl t.slot (Thread.keepArrival sync)).parkRecord (t := t) (by cases sync <;> exact ⟨rfl, rfl, rfl, rfl⟩) h3
  cases sync <;>
    exact ⟨_, h1.thread, rfl, rfl, fun _ => rfl, rfl, rfl, h2.trans (by simp), h0.memory.trans h1.memory, hr⟩

/-- A thread whose frame is resident is not frozen (02 R46). -/
theorem State.frozen_of_frame (hf : s.frame? t.cl t.rgn t.knum = some f) (hs : f.stopped = false) : s.frozen t = false := by
  unfold State.frozen
  rw [hf]
  exact hs

section Resident
variable (ht : s.thread? t.cl t.slot = some t) (hf : s.frame? t.cl t.rgn t.knum = some f) (hs : f.stopped = false)
include ht hf hs

theorem execWaitLimitExpiry_sem {k n u o : Nat} {lim : Word} (hw : t.wait = .sem k n lim u o) (hl : lim ≠ 0) :
    execWaitLimitExpiry t.cl t.slot s =
      .next (s.trapIssued t.cl t.slot ⟨256, semid t.cl k, (f.sem k).count.setWidth 64, BitVec.ofNat 64 n, lim⟩) := by
  unfold execWaitLimitExpiry
  simp only [ht, hf, hs, hw, hl, Bool.false_eq_true, if_false]

theorem execWaitLimitExpiry_ring {p : BitVec 3} {k n u o : Nat} {lim : Word} (hw : t.wait = .ring p k n lim u o) (hl : lim ≠ 0) :
    execWaitLimitExpiry t.cl t.slot s = .next (s.trapIssued t.cl t.slot ⟨256, semid t.cl k,
      BitVec.ofNat 64 ((f.sem k).count.toNat + 65536 * (f.sem (k + 1)).count.toNat), BitVec.ofNat 64 n, lim⟩) := by
  unfold execWaitLimitExpiry
  simp only [ht, hf, hs, hw, hl, Bool.false_eq_true, if_false]

theorem execWaitLimitExpiry_bar_held {b u o : Nat} {lim : Word} (hw : t.wait = .bar b true lim u o) (ha : s.arriving t.cl t.slot b = true) :
    execWaitLimitExpiry t.cl t.slot s = .next s := by
  have he : s.expiryHeld t = true := by simp only [State.expiryHeld, hw, ha]
  unfold execWaitLimitExpiry
  simp only [ht, hf, hs, hw, he, or_true, if_true, Bool.false_eq_true, if_false]

theorem execWaitLimitExpiry_bar {b u o : Nat} {sync : Bool} {lim : Word} (hw : t.wait = .bar b sync lim u o) (hl : lim ≠ 0)
    (ha : sync = false ∨ s.arriving t.cl t.slot b = false) :
    execWaitLimitExpiry t.cl t.slot s = .next ((s.modThread t.cl t.slot (Thread.keepArrival sync)).trapIssued t.cl t.slot
      ⟨256, BitVec.ofNat 64 b, BitVec.ofNat 64 ((f.bar b).counter + 65536 * (f.bar b).n), if (f.bar b).phase then 1 else 0, lim⟩) := by
  have he : s.expiryHeld t = false := by
    unfold State.expiryHeld
    rw [hw]
    cases sync with
    | false => rfl
    | true => simpa using ha
  unfold execWaitLimitExpiry
  simp only [ht, hf, hs, hw, hl, he, Bool.false_eq_true, or_self, if_false] <;> rfl

theorem execSpwlimExpiry_spawn {id lim : Nat} {a : Act} {r : SpawnReq} {ans : Option (BitVec 3)} (hw : t.wait = .spawn id lim) (hl : lim ≠ 0)
    (ha : s.act? id = some a) (hj : a.job = .spawn r ans) :
    execSpwlimExpiry t.cl t.slot s = .next ((s.dropAct id).trapIssued t.cl t.slot ⟨257, BitVec.ofNat 64 r.target,
      BitVec.ofNat 64 (s.clu r.target).spawnq.length, BitVec.ofNat 64 (s.share r.target), t.spwlim.setWidth 64⟩) := by
  unfold execSpwlimExpiry
  simp only [ht, State.frozen_of_frame hf hs, hw, ha, hj, hl, Bool.false_eq_true, if_false]

theorem execSwlimExpiry_store {e : Entry} {d : Option (BitVec 5)} {lim o : Nat} (hw : t.wait = .store e d lim o) (hl : lim ≠ 0) :
    execSwlimExpiry t.cl t.slot s = .next (s.trapIssued t.cl t.slot
      ⟨266, e.ea, s.sqstat t.cl &&& 0xFFFFFFFF#64, s.wlstat t.cl &&& 0x03FFFFFFFFFFFFFF#64, t.swlim.setWidth 64⟩) := by
  unfold execSwlimExpiry
  simp only [ht, State.frozen_of_frame hf hs, hw, hl, Bool.false_eq_true, if_false] <;> rfl

theorem execSleepExpiry_sleep {u : Nat} (hw : t.wait = .sleep u) (hl : t.late = []) :
    execSleepExpiry t.cl t.slot s = .next (s.modThread t.cl t.slot Thread.goesOn) := by
  unfold execSleepExpiry
  simp only [ht, State.frozen_of_frame hf hs, hw, Bool.false_eq_true, if_false]
  rw [State.endWait_of_late_nil ht hl]

end Resident
end Limits

/-- Settles O48: each expiry is a trap after issue of its thread, and so parks it with its record and leaves every frame. -/
theorem waitLimitsExpire : Obligations.WaitLimitsExpire := by
  unfold Obligations.WaitLimitsExpire
  intro s t f ht hf hs parks
  have expired {o : Host.Outcome State Fault Refusal} {x : State} {arrived : Bool} {tr : Trap} (ho : o = .next x)
      (hx : s.expires x t arrived tr) : parks o arrived tr := by
    obtain ⟨u, hu⟩ := hx
    exact ⟨x, u, ho, hu⟩
  refine ⟨fun k n lim u o hw hl => ?_, fun p k n lim u o hw hl => ?_, fun b lim u o hw ha => ?_, fun b sync lim u o hw hl ha => ?_,
    fun id lim a r ans hw hl ha hj => ?_, fun e d lim o hw hl => ?_, fun u hw hl => ?_⟩
  · exact expired (execWaitLimitExpiry_sem ht hf hs hw hl) (State.expires_trapIssued _ ht)
  · exact expired (execWaitLimitExpiry_ring ht hf hs hw hl) (State.expires_trapIssued _ ht)
  · exact execWaitLimitExpiry_bar_held ht hf hs hw ha
  · exact expired (execWaitLimitExpiry_bar ht hf hs hw hl ha) (State.expires_keepArrival sync _ ht)
  · exact expired (execSpwlimExpiry_spawn ht hf hs hw hl ha hj) (State.expires_dropAct _ ht)
  · exact expired (execSwlimExpiry_store ht hf hs hw hl) (State.expires_trapIssued _ ht)
  · exact execSleepExpiry_sleep ht hf hs hw hl

end Sys2Proof.Machine
end

section
namespace Sys2Proof.Machine

/-! ### Signals and the other operations on semaphores (02 R37; 11 R244 to R246) -/

/-- A signal that adds something leaves its semaphore at the signalled value and serves the waiters. -/
theorem State.signal_eq {s : State} {cl rgn knum k inc : Nat} {f : Frame} (hf : s.frame? cl rgn knum = some f) (hi : inc ≠ 0) :
    s.signal cl rgn knum k inc = (s.setSem cl rgn knum k ((f.sem k).signal inc)).serve cl rgn knum k := by
  unfold State.signal
  simp only [hf, if_neg hi]

/-- A semaphore's value does not decide who waits for it. -/
theorem State.semWaiters_setSem (s : State) (cl rgn knum k : Nat) (v : Sem) (c r n j : Nat) :
    (s.setSem cl rgn knum k v).semWaiters c r n j = s.semWaiters c r n j := by
  unfold State.semWaiters
  rw [State.setSem_threads]

/-- Two waiters are served in the order in which their waits began (02 R38). -/
theorem State.serve_two {s : State} {cl rgn knum k o1 o2 p q : Nat} (h : o1 < o2)
    (hw : s.semWaiters cl rgn knum k = [(o1, p), (o2, q)] ∨ s.semWaiters cl rgn knum k = [(o2, q), (o1, p)]) :
    s.serve cl rgn knum k = (s.serveOne cl rgn knum p).serveOne cl rgn knum q := by
  unfold State.serve
  rcases hw with hw | hw <;> rw [hw]
  · simp [sortOrd, insertOrd, h, State.serveList]
  · simp [sortOrd, insertOrd, Nat.not_lt.mpr (Nat.le_of_lt h), State.serveList]

/-- The set value of a semaphore that the frame has. -/
theorem State.semStands_setSem_frame {s : State} {cl rgn knum k : Nat} {f : Frame} (v : Sem) (hf : s.frame? cl rgn knum = some f)
    (hk : k < f.sems.length) : (s.setSem cl rgn knum k v).semStands cl rgn knum k f v :=
  State.semStands_setSem v ⟨f, hf, hk, rfl, fun _ _ => rfl⟩

/-- Two threads of a cluster wait as given, and semaphore k stands at v. -/
def State.bothStand (x : State) (cl rgn knum k : Nat) (f : Frame) (p q : Nat) (a b : Wait) (v : Sem) : Prop :=
  (∃ t, x.thread? cl p = some t ∧ t.wait = a) ∧ (∃ u, x.thread? cl q = some u ∧ u.wait = b) ∧ x.semStands cl rgn knum k f v

section TwoWaiters
variable {s : State} {t u : Thread} {f : Frame} {v : Sem} {cl rgn knum k n m l1 l2 o1 o2 p q : Nat} {w1 w2 : Word}

/-- The thread at the other slot is as it was. -/
theorem State.turns.other {x : State} {t' : Thread} (h : s.turns x cl p t') (hpq : p ≠ q) (hu : s.thread? cl q = some u) :
    x.thread? cl q = some u :=
  (h.others cl q fun hq => hpq hq.2.symm).trans hu

variable (hpq : p ≠ q) (ht : s.thread? cl p = some t) (hu : s.thread? cl q = some u) (hs : s.semStands cl rgn knum k f v)
include hpq ht hu hs

/-- Poison parks both, and the semaphore stays (02 R38). -/
theorem State.serveOne_twice_poisoned (htw : t.wait = .sem k n w1 l1 o1) (huw : u.wait = .sem k m w2 l2 o2) (hp : v.poison = true) :
    ((s.serveOne cl rgn knum p).serveOne cl rgn knum q).bothStand cl rgn knum k f p q .parked .parked v := by
  obtain ⟨h1, f1, -⟩ := State.trapIssued_spec ⟨259, semid cl k, BitVec.ofNat 64 v.count.toNat, BitVec.ofNat 64 n, 0⟩ ht
  rw [State.serveOne_sem_poisoned ht htw hs hp]
  have hu1 := h1.other hpq hu
  have hs1 := State.semStands_of_frames f1 hs
  obtain ⟨h2, f2, -⟩ := State.trapIssued_spec ⟨259, semid cl k, BitVec.ofNat 64 v.count.toNat, BitVec.ofNat 64 m, 0⟩ hu1
  rw [State.serveOne_sem_poisoned hu1 huw hs1 hp]
  exact ⟨⟨_, h2.other hpq.symm h1.thread, rfl⟩, ⟨_, h2.thread, rfl⟩, State.semStands_of_frames f2 hs1⟩

/-- The later waiter takes its amount or goes on waiting, and leaves the earlier one as it is. -/
theorem State.serveOne_second (huw : u.wait = .sem k m w2 l2 o2) (hul : u.late = []) (hp : v.poison = false) :
    (m ≤ v.count.toNat → (s.serveOne cl rgn knum q).bothStand cl rgn knum k f p q t.wait .none { v with count := v.count - BitVec.ofNat 16 m }) ∧
      (v.count.toNat < m → (s.serveOne cl rgn knum q).bothStand cl rgn knum k f p q t.wait u.wait v) := by
  refine ⟨fun hm => ?_, fun hm => ?_⟩
  · obtain ⟨h1, s1⟩ := State.serveOne_sem_takes hu hul huw hs hp hm
    exact ⟨⟨_, h1.other hpq.symm ht, rfl⟩, ⟨_, h1.thread, rfl⟩, s1⟩
  · rw [State.serveOne_sem_waits hu huw hs hp hm]
    exact ⟨⟨_, ht, rfl⟩, ⟨_, hu, rfl⟩, hs⟩

/-- Two waiters, one after the other: the earlier takes its amount where the count suffices, then the later what is left (02 R38). -/
theorem State.serveOne_twice (htw : t.wait = .sem k n w1 l1 o1) (htl : t.late = []) (huw : u.wait = .sem k m w2 l2 o2) (hul : u.late = [])
    (hp : v.poison = false) :
    let x := (s.serveOne cl rgn knum p).serveOne cl rgn knum q
    let v1 : Sem := { v with count := v.count - BitVec.ofNat 16 n }
    (n ≤ v.count.toNat →
      (m ≤ v1.count.toNat → x.bothStand cl rgn knum k f p q .none .none { v1 with count := v1.count - BitVec.ofNat 16 m }) ∧
      (v1.count.toNat < m → x.bothStand cl rgn knum k f p q .none u.wait v1)) ∧
    (v.count.toNat < n →
      (m ≤ v.count.toNat → x.bothStand cl rgn knum k f p q t.wait .none { v with count := v.count - BitVec.ofNat 16 m }) ∧
      (v.count.toNat < m → x.bothStand cl rgn knum k f p q t.wait u.wait v)) := by
  refine ⟨fun hn => ?_, fun hn => ?_⟩
  · obtain ⟨h1, s1⟩ := State.serveOne_sem_takes ht htl htw hs hp hn
    exact State.serveOne_second hpq h1.thread (h1.other hpq hu) s1 huw hul hp
  · rw [State.serveOne_sem_waits ht htw hs hp hn]
    exact State.serveOne_second hpq ht hu hs huw hul hp

end TwoWaiters

/-- A signal in range of a semaphore for which two threads wait: the count rises, the poison stays, and the two are examined in wait order. -/
theorem State.signal_examines_two {s : State} {cl rgn knum k inc o1 o2 p q : Nat} {f : Frame} (hf : s.frame? cl rgn knum = some f)
    (hk : k < f.sems.length) (hi : 0 < inc) (ho : o1 < o2)
    (hw : s.semWaiters cl rgn knum k = [(o1, p), (o2, q)] ∨ s.semWaiters cl rgn knum k = [(o2, q), (o1, p)])
    (hc : (f.sem k).count.toNat + inc ≤ 65535) :
    ∃ (s1 : State) (v : Sem), (∀ j, s1.thread? cl j = s.thread? cl j) ∧ s1.semStands cl rgn knum k f v ∧ v.count.toNat = (f.sem k).count.toNat + inc ∧
      v.poison = (f.sem k).poison ∧ s.signal cl rgn knum k inc = (s1.serveOne cl rgn knum p).serveOne cl rgn knum q := by
  obtain ⟨hvc, hvp⟩ := Sem.signal_in_range hc
  refine ⟨_, _, fun _ => State.thread?_of_threads (s.setSem_threads ..) _ _, State.semStands_setSem_frame _ hf hk, hvc, hvp, ?_⟩
  rw [State.signal_eq hf (Nat.ne_of_gt hi), State.serve_two ho (by simpa only [State.semWaiters_setSem] using hw)]

/-- SSET takes bits 15:0 of its operand as the count and bit 16 as the poison (11 R246). -/
theorem exec_sset_of_issues {s : State} {c : Ctx} {a : BitVec 5} {e : BitVec 8} (h : s.issues c (.sset a e)) :
    exec (.sset a e) s = .next (((s.begin c).setSem c.t.cl c.t.rgn c.t.knum e.toNat
      ⟨(c.t.getG a.toNat).extractLsb' 0 16, (c.t.getG a.toNat).getLsbD 16⟩).serve c.t.cl c.t.rgn c.t.knum e.toNat) := by
  change execSset a e s = _
  unfold execSset
  rw [issueI_next h, ← BitVec.setWidth_eq_extractLsb' (by decide)]

theorem exec_spois_of_issues {s : State} {c : Ctx} {e : BitVec 8} (h : s.issues c (.spois e)) :
    exec (.spois e) s = .next (((s.begin c).setSem c.t.cl c.t.rgn c.t.knum e.toNat { c.f.sem e.toNat with poison := true }).serve
      c.t.cl c.t.rgn c.t.knum e.toNat) := by
  have hf : (s.begin c).frame? c.t.cl c.t.rgn c.t.knum = some c.f := (State.frame?_of_frames (by simp) ..).trans (State.ctx?_frame h.1)
  change execSpois e s = _
  unfold execSpois
  rw [issueI_next h]
  simp only [State.poisonSem, hf]

/-- Settles O29: a signal without waiters sets its semaphore alone; with two, they are examined one after the other in wait order. -/
theorem semaphoreOperations : Obligations.SemaphoreOperations := by
  unfold Obligations.SemaphoreOperations
  refine ⟨?_, fun s cl rgn knum k inc f hf hk hw => ?_, ?_⟩
  · intro s c d a p e v s1 sent far served
    refine ⟨fun hi => ?_, fun hi => ?_, fun hi => ?_, fun hi => ?_, exec_sset_of_issues, fun hi => ?_, fun hi => ?_,
      exec_spois_of_issues, fun x => State.serve_of_no_waiters⟩
    · change execSsig a e s = _
      unfold execSsig
      exact issueI_next hi
    · change execSsigRemote d a e s = _
      unfold execSsigRemote
      exact issueI_next hi
    · change execSsigG a e s = _
      unfold execSsigG
      exact issueI_next hi
    · change execSsigGRemote d a e s = _
      unfold execSsigGRemote
      exact issueI_next hi
    · change execSread d e s = _
      unfold execSread
      exact issueI_next hi
    · change execStry a p e s = _
      unfold execStry
      exact issueI_next hi
  · by_cases hi : inc = 0
    · subst hi
      have h0 : s.signal cl rgn knum k 0 = s := by
        unfold State.signal
        simp only [hf, if_true]
      rw [h0]
      exact ⟨f, hf, fun _ => ⟨rfl, rfl⟩, fun _ h => absurd h (Nat.lt_irrefl 0), fun _ _ => rfl, rfl⟩
    · rw [State.signal_of_no_waiters hf hi hw]
      obtain ⟨g, hg, -, hgk, ho⟩ := State.semStands_setSem_frame ((f.sem k).signal inc) hf hk
      refine ⟨g, hg, fun hr => ?_, fun hr _ => ?_, ho, by simp⟩
      · rw [hgk]
        exact Sem.signal_in_range hr
      · rw [hgk, Sem.signal_saturates hr]
        exact ⟨rfl, rfl⟩
  · intro s cl rgn knum k inc n m l1 l2 o1 o2 w1 w2 f t u hf hk hi ho htu ht hu htl hul htw huw hw x c waits
    have stands {a b : Wait} {v : Sem} (hv : x.bothStand cl rgn knum k f t.slot u.slot a b v) (hp : v.poison = (f.sem k).poison) :
        waits a b v.count.toNat := by
      obtain ⟨⟨p, h1, h2⟩, ⟨q, h3, h4⟩, g, h5, -, rfl, h7⟩ := hv
      exact ⟨p, q, g, h1, h3, h2, h4, h5, rfl, hp, h7⟩
    refine ⟨fun hp hc => ?_, fun hp hc => ?_⟩
    · obtain ⟨s1, v, hth, hs, hvc, hvp, hx⟩ := State.signal_examines_two hf hk hi ho hw hc
      obtain ⟨hn, hn'⟩ := State.serveOne_twice htu ((hth _).trans ht) ((hth _).trans hu) hs htw htl huw hul (hvp.trans hp)
      rw [← hx] at hn hn'
      rw [show c = v.count.toNat from hvc.symm]
      refine ⟨fun h1 h2 => ?_, fun h1 h2 => ?_, fun h1 h2 => ?_, fun h1 h2 => ?_⟩
      · rw [← Sem.toNat_sub_ofNat h1] at h2 ⊢
        rw [← Sem.toNat_sub_ofNat h2]
        exact stands ((hn h1).1 h2) hvp
      · rw [← Sem.toNat_sub_ofNat h1] at h2 ⊢
        exact stands ((hn h1).2 h2) hvp
      · rw [← Sem.toNat_sub_ofNat h2]
        exact stands ((hn' h1).1 h2) hvp
      · exact stands ((hn' h1).2 h2) hvp
    · obtain ⟨s1, v, hth, hs, hvc, hvp, hx⟩ := State.signal_examines_two hf hk hi ho hw hc
      have hv := State.serveOne_twice_poisoned htu ((hth _).trans ht) ((hth _).trans hu) hs htw huw (hvp.trans hp)
      rw [← hx] at hv
      rw [show c = v.count.toNat from hvc.symm]
      exact stands hv hvp

end Sys2Proof.Machine
end

section
namespace Sys2Proof.Machine

/-! ### A signal arrives (02 R37; 11 R247) -/

section Arrival
variable {s : State} {id cl rgn knum k : Nat} {a : Act} {inc : Word} {own : Bool} {f : Frame}
variable (ha : s.act? id = some a) (hj : a.job = .signal cl rgn knum k inc own) (hf : s.frame? cl rgn knum = some f) (hs : f.stopped = false)
  (hd : s.doneAll a.after = true)
include ha hj hf hs hd

theorem execSemaphoreSignal_signal (h : (f.sem k).count.toNat + inc.toNat ≤ 65535 ∨ own = false) :
    execSemaphoreSignal id s = .next ((s.dropAct id).signal cl rgn knum k inc.toNat) := by
  have ho : (own && decide (65535 < (f.sem k).count.toNat + inc.toNat)) = false := by
    rcases h with h | h
    · simp [Nat.not_lt.mpr h]
    · simp [h]
  unfold execSemaphoreSignal
  simp only [ha, hj, hf, hs, hd, ho, Bool.not_true, Bool.or_self, Bool.false_and, Bool.false_eq_true, if_false]

/-- One more failure that is to be delivered to a thread. -/
def Thread.addLate (l : Late) (t : Thread) : Thread := { t with late := t.late ++ [l] }

/-- The failure that an own signal which saturates its semaphore leaves to its thread. -/
def overflowLate (id cl k : Nat) (count : BitVec 16) (inc : Word) : Late := ⟨id, 260, semid cl k, count.setWidth 64, inc, 0, false⟩

theorem execSemaphoreSignal_overflows (h : 65535 < (f.sem k).count.toNat + inc.toNat) (ho : own = true) (hb : s.absent a = false) :
    execSemaphoreSignal id s = .next ((((s.dropAct id).signal cl rgn knum k inc.toNat).modThread a.cl a.slot
      (Thread.addLate (overflowLate a.id cl k (f.sem k).count inc))).deliverLate a.cl a.slot) := by
  unfold execSemaphoreSignal
  simp only [ha, hj, hf, hs, hd, ho, hb, h, decide_true, Bool.not_true, Bool.or_self, Bool.and_false, Bool.false_eq_true, if_false,
    Bool.and_self, if_true]
  rfl

end Arrival

/-- WHAT A LATE FAILURE LEAVES: a ready thread that has this one parks before its next bundle (12 R259). -/
theorem State.deliverLate_single {s : State} {cl slot : Nat} {t : Thread} {l : Late} (h : s.thread? cl slot = some t) (hl : t.late = [l])
    (hw : t.wait = .none) :
    s.turns (s.deliverLate cl slot) cl slot (Thread.parkedAt { t with late := [] } t.pc t.soloC) ∧ (s.deliverLate cl slot).frames = s.frames ∧
      s.recorded (s.deliverLate cl slot) (s.parkRecord t t.pc ⟨l.cause, l.i0, l.i1, l.i2, l.i3⟩) := by
  have h0 := State.turns_modThread (f := fun t => { t with late := t.late.erase l }) (fun _ => ⟨rfl, rfl⟩) h
  have hx : s.deliverLate cl slot =
      (s.modThread cl slot (fun t => { t with late := t.late.erase l })).park cl slot t.pc t.soloC ⟨l.cause, l.i0, l.i1, l.i2, l.i3⟩ := by
    unfold State.deliverLate
    simp only [h, hl, earliestLate, hw]
    unfold State.trapNext
    rw [h0.thread]
  obtain ⟨h1, h2, h3⟩ := State.park_spec t.pc t.soloC ⟨l.cause, l.i0, l.i1, l.i2, l.i3⟩ h0.thread
  simp only [hl, List.erase_cons_head] at h1
  rw [hx]
  exact ⟨⟨h1.thread, fun c k hk => (h1.others c k hk).trans (h0.others c k hk), h0.memory.trans h1.memory⟩, h2.trans (by simp),
    (s.recordsAlike_modThread ..).parkRecord ⟨rfl, rfl, rfl, rfl⟩ h3⟩

/-! ### Fences (12 R260, R263) -/

/-- The words with which a half of the latch traps. -/
def ErrHalf.trap (h : ErrHalf) (w : Word) : Trap :=
  ⟨h.cause.toNat, h.i0, (h.i1 &&& 0x0000FFFFFFFFFFFF#64) ||| BitVec.ofNat 64 (h.n.toNat * 2 ^ 48), w, h.i3⟩

theorem latchTrap_none {t : Thread} {sc : Nat} (w : Word) (hm : t.errMem.n = 0 ∨ sc < 2) (hf : t.errFab.n = 0 ∨ sc ≠ 4) :
    latchTrap t sc w = none := by
  have h1 : (decide (2 ≤ sc) && t.errMem.n != 0) = false := by
    rcases hm with h | h
    · simp [h]
    · simp [Nat.not_le.mpr h]
  have h2 : (sc == 4 && t.errFab.n != 0) = false := by rcases hf with h | h <;> simp [h]
  simp only [latchTrap, h1, h2, Bool.false_and, Bool.false_eq_true, if_false]

theorem latchTrap_mem {t : Thread} {sc : Nat} (w : Word) (h2 : 2 ≤ sc) (hm : t.errMem.n ≠ 0) (hf : t.errFab.n = 0 ∨ sc ≠ 4) :
    latchTrap t sc w = some (t.errMem.trap w, false) := by
  have h1 : (decide (2 ≤ sc) && t.errMem.n != 0) = true := by simpa [h2] using hm
  have h3 : (sc == 4 && t.errFab.n != 0) = false := by rcases hf with h | h <;> simp [h]
  simp only [latchTrap, h1, h3, Bool.not_false, Bool.true_or, Bool.and_self, if_true] <;> rfl

theorem latchTrap_fab {t : Thread} (w : Word) (hm : t.errMem.n = 0) (hf : t.errFab.n ≠ 0) :
    latchTrap t 4 w = some (t.errFab.trap w, true) := by
  have h1 : (decide (2 ≤ 4) && t.errMem.n != 0) = false := by simp [hm]
  have h3 : ((4 : Nat) == 4 && t.errFab.n != 0) = true := by simpa using hf
  simp only [latchTrap, h1, h3, Bool.false_and, Bool.false_eq_true, if_false, if_true] <;> rfl

/-- The thread whose latch has reported a half: the half holds nothing then (12 R260). -/
def Thread.reported (fab : Bool) (u : Thread) : Thread :=
  if fab then { u with wait := .none, errFab := { u.errFab with n := 0, cause := 0, i0 := 0, i1 := 0, i3 := 0 } }
  else { u with wait := .none, errMem := { u.errMem with n := 0, cause := 0, i0 := 0, i1 := 0, i3 := 0 } }

section Fence
variable {s : State} {t : Thread} {sc : Nat} {after : List Nat} {w : Word} (ht : s.thread? t.cl t.slot = some t)
include ht

theorem execFencePerform_saving (hw : t.wait = .fence sc after w) (hs : s.savingOn t.cl t.rgn = true) :
    execFencePerform t.cl t.slot s = .next s := by
  unfold execFencePerform
  simp only [ht, hw, hs, Bool.not_true, Bool.and_false, Bool.false_eq_true, if_false]

theorem execFencePerform_fence (hw : t.wait = .fence sc after w) (hd : s.doneAll after = true) (hs : s.savingOn t.cl t.rgn = false) :
    execFencePerform t.cl t.slot s = .next (s.fenceDone t.cl t.slot sc w) := by
  unfold execFencePerform
  simp only [ht, hw, hd, hs, Bool.not_false, Bool.and_self, if_true]

theorem State.fenceDone_goes (hl : latchTrap t sc w = none) (hla : t.late = []) :
    s.fenceDone t.cl t.slot sc w = s.modThread t.cl t.slot Thread.goesOn := by
  unfold State.fenceDone
  simp only [ht, hl]
  exact State.endWait_of_late_nil ht hla

theorem State.fenceDone_traps {tr : Trap} {fab : Bool} (hl : latchTrap t sc w = some (tr, fab)) :
    s.fenceDone t.cl t.slot sc w = (s.modThread t.cl t.slot (Thread.reported fab)).trapIssued t.cl t.slot tr := by
  unfold State.fenceDone
  simp only [ht, hl] <;> rfl

/-- The trap of a fence: the thread keeps its registers, and its record is raised. -/
theorem State.reported_trapIssued (fab : Bool) (tr : Trap) :
    let x := (s.modThread t.cl t.slot (Thread.reported fab)).trapIssued t.cl t.slot tr
    ∃ u, x.thread? t.cl t.slot = some u ∧ u.wait = .parked ∧ u.pc = t.ipc ∧ u.errMem = (t.reported fab).errMem ∧
      u.errFab = (t.reported fab).errFab ∧ (∀ r, u.getG r = t.getG r) ∧ s.sameMemory x ∧ x.frames = s.frames ∧
      s.recorded x (s.parkRecord t t.ipc tr) := by
  have h0 := State.turns_modThread (f := Thread.reported fab) (fun _ => by cases fab <;> exact ⟨rfl, rfl⟩) ht
  obtain ⟨h1, h2, h3⟩ := State.trapIssued_spec tr h0.thread
  have hr := (s.recordsAlike_modThread t.cl t.slot (Thread.reported fab)).parkRecord (t := t) (by cases fab <;> exact ⟨rfl, rfl, rfl, rfl⟩) h3
  cases fab <;>
    exact ⟨_, h1.thread, rfl, rfl, rfl, rfl, fun _ => rfl, h0.memory.trans h1.memory, h2.trans (by simp), hr⟩

theorem execFencePerform_release (hw : t.wait = .release after) (hd : s.doneAll after = true) (hl : t.late = []) :
    execFencePerform t.cl t.slot s = .next (s.modThread t.cl t.slot Thread.goesOn) := by
  unfold execFencePerform
  simp only [ht, hw, hd, if_true]
  rw [State.endWait_of_late_nil ht hl]

theorem execFencePerform_desc {u o : Nat} (hw : t.wait = .desc after u o) (hd : s.doneAll after = true) (hl : t.late = []) :
    execFencePerform t.cl t.slot s = .next (s.modThread t.cl t.slot Thread.goesOn) := by
  unfold execFencePerform
  simp only [ht, hw, hd, if_true]
  rw [State.endWait_of_late_nil ht hl]

end Fence

/-! ### QUIT (02 R32) -/

theorem State.thread?_endThread (s : State) (t : Thread) : (s.endThread t).thread? t.cl t.slot = none := by
  simp only [State.endThread, State.reslot, State.thread?, State.bump]
  rw [List.find?_filter]
  simp only [List.find?_eq_none]
  intro x _
  cases x.cl == t.cl && x.slot == t.slot <;> simp

theorem State.endThread_frames (s : State) (t : Thread) : (s.endThread t).frames = s.frames := rfl

theorem State.sameMemory_endThread (s : State) (t : Thread) : s.sameMemory (s.endThread t) :=
  State.sameMemory_of_eq rfl rfl rfl rfl rfl

theorem execQuitComplete_quiet {s : State} {t : Thread} (ht : s.thread? t.cl t.slot = some t) (hw : t.wait = .quit) (hq : s.quitDone t = true)
    (hs : s.savingOn t.cl t.rgn = false) :
    execQuitComplete t.cl t.slot s = .next (match t.join with
      | some (jc, js) => (s.endThread t).signal jc t.rgn t.knum js 1
      | none => s.endThread t) := by
  unfold execQuitComplete
  simp only [ht, hw, hq, hs, beq_self_eq_true, Bool.not_false, Bool.and_self, if_true] <;> rfl

/-- Settles O49: a signal keeps everything but its cluster's threads and semaphores; each end of a wait is one branch of its event. -/
theorem signalsFencesAndQuits : Obligations.SignalsFencesAndQuits := by
  unfold Obligations.SignalsFencesAndQuits
  refine ⟨fun s id a cl rgn knum k inc own f ha hj hf hs hd => ⟨execSemaphoreSignal_signal ha hj hf hs hd, ?_⟩, ?_, ?_⟩
  · intro t hov ho h512 hb ht hw hl hwait hk
    have hinc : inc.toNat ≠ 0 := by have := (f.sem k).count.isLt; omega
    have hf' : (s.dropAct id).frame? cl rgn knum = some f := (State.frame?_of_frames (by simp) ..).trans hf
    have hw' : (s.dropAct id).semWaiters cl rgn knum k = [] := by simpa only [State.semWaiters, State.dropAct_threads] using hwait
    have hx := execSemaphoreSignal_overflows ha hj hf hs hd hov ho hb
    rw [State.signal_of_no_waiters hf' hinc hw', Sem.signal_saturates hov] at hx
    obtain ⟨g, hg, -, hgk, -⟩ := State.semStands_setSem_frame { count := 65535, poison := true } hf' hk
    have ht' : ((s.dropAct id).setSem cl rgn knum k { count := 65535, poison := true }).thread? a.cl a.slot = some t :=
      (State.thread?_of_threads (by simp) ..).trans ht
    have h0 := State.turns_modThread (f := Thread.addLate (overflowLate a.id cl k (f.sem k).count inc)) (fun _ => ⟨rfl, rfl⟩) ht'
    have hl' : (t.addLate (overflowLate a.id cl k (f.sem k).count inc)).late = [overflowLate a.id cl k (f.sem k).count inc] := by
      simp only [Thread.addLate, hl, List.nil_append]
    obtain ⟨h1, h2, h3⟩ := State.deliverLate_single h0.thread hl' hw
    have alike := (s.recordsAlike_dropAct id).trans ((State.recordsAlike_setSem _ cl rgn knum k { count := 65535, poison := true }).trans
      (State.recordsAlike_modThread _ a.cl a.slot (Thread.addLate (overflowLate a.id cl k (f.sem k).count inc))))
    refine ⟨_, _, g, hx, h1.thread, rfl, rfl, fun _ => rfl, ?_, hgk, ?_, alike.parkRecord ⟨rfl, rfl, rfl, rfl⟩ h3⟩
    · exact (State.frame?_of_frames (h2.trans (by simp)) ..).trans hg
    · exact ((s.sameMemory_dropAct id).trans (State.sameMemory_setSem _ _ _ _ _ _)).trans (h0.memory.trans h1.memory)
  · intro s t ht goes words traps
    have reports (fab : Bool) (tr : Trap) {sc : Nat} {w : Word} {left : Thread → ErrHalf}
        (hx : exec (.fencePerform t.cl t.slot) s = .next (s.fenceDone t.cl t.slot sc w)) (hl : latchTrap t sc w = some (tr, fab))
        (hleft : ∀ u : Thread, u.errMem = (t.reported fab).errMem → u.errFab = (t.reported fab).errFab → (left u).n = 0) : traps tr left := by
      rw [State.fenceDone_traps ht hl] at hx
      obtain ⟨u, h1, h2, h3, h4, h5, h6, h7, h8, h9⟩ := State.reported_trapIssued ht fab tr
      exact ⟨_, u, hx, h1, h2, h3, hleft u h4 h5, h6, h7, h8, h9⟩
    refine ⟨fun sc after w hw hd => ⟨execFencePerform_saving ht hw, fun hs hm hf hl => ?_, fun hs h2 hm hf => ?_, fun hs h4 hf hm => ?_⟩,
      fun after => execFencePerform_release ht, fun after u o => execFencePerform_desc ht⟩
    · exact (execFencePerform_fence ht hw hd hs).trans (congrArg _ (State.fenceDone_goes ht (latchTrap_none w hm hf) hl))
    · refine reports false _ (execFencePerform_fence ht hw hd hs) (latchTrap_mem w h2 hm hf) fun u hu _ => ?_
      rw [hu]
      rfl
    · subst h4
      refine reports true _ (execFencePerform_fence ht hw hd hs) (latchTrap_fab w hm hf) fun u _ hu => ?_
      rw [hu]
      rfl
  · intro s t ht hw hq hs
    have hx := execQuitComplete_quiet ht hw hq hs
    refine ⟨_, hx, ?_⟩
    rcases hj : t.join with _ | ⟨jc, js⟩
    · exact ⟨s.thread?_endThread t, s.sameMemory_endThread t, fun _ => s.endThread_frames t, fun _ _ h => absurd h.symm (Option.some_ne_none _)⟩
    · have hk := (s.endThread t).keepsRest_signal jc t.rgn t.knum js 1
      refine ⟨hk.absent _ _ (s.thread?_endThread t), (s.sameMemory_endThread t).trans hk.memory, fun h => absurd h (Option.some_ne_none _), fun _ _ h => ?_⟩
      cases h
      rfl

end Sys2Proof.Machine
end

section
namespace Sys2Proof.Machine

/-! ### A spawn request arrives (02 R29 to R31) -/

section Spawn
variable {s : State} {id : Nat} {a : Act} {r : SpawnReq} {f : Frame}
variable (ha : s.act? id = some a) (hb : s.absent a = false) (hf : s.frame? r.target r.rgn r.knum = some f) (hs : f.stopped = false)
include ha hb hf hs

theorem execSpawnRequestArrival_spawnt {p : BitVec 3} (hj : a.job = .spawn r (some p)) :
    execSpawnRequestArrival id s = .next (if s.queueTakes r then ((s.dropAct id).enqueueSpawn r).spawnAnswer a r p 1
      else (s.dropAct id).spawnAnswer a r p 0) := by
  unfold execSpawnRequestArrival
  simp only [ha, hj, hb, hf, hs, Bool.or_self, Bool.false_eq_true, if_false]
  split <;> rfl

theorem execSpawnRequestArrival_refused (hj : a.job = .spawn r none) (hq : s.queueTakes r = false) : execSpawnRequestArrival id s = .next s := by
  unfold execSpawnRequestArrival
  simp only [ha, hj, hb, hf, hs, hq, Bool.or_self, Bool.false_eq_true, if_false]

theorem execSpawnRequestArrival_taken {t : Thread} {u : Nat} (hj : a.job = .spawn r none) (hq : s.queueTakes r = true)
    (ht : ((s.dropAct id).enqueueSpawn r).thread? a.cl a.slot = some t) (hw : t.wait = .spawn id u) :
    execSpawnRequestArrival id s = .next (((s.dropAct id).enqueueSpawn r).endWait a.cl a.slot) := by
  unfold execSpawnRequestArrival
  simp only [ha, hj, hb, hf, hs, hq, ht, hw, Bool.or_self, Bool.false_eq_true, if_false, if_true]

end Spawn

theorem State.enqueueSpawn_threads (s : State) (r : SpawnReq) : (s.enqueueSpawn r).threads = s.threads := by
  simp [State.enqueueSpawn]

/-- An accepted request stands last in its target's queue (02 R29). -/
theorem State.enqueueSpawn_spawnq (s : State) (r : SpawnReq) :
    ((s.enqueueSpawn r).clu r.target).spawnq = (s.clu r.target).spawnq ++ [r] := by
  have h : (s.enqueueSpawn r).clu r.target = (s.modClu r.target (fun k => { k with spawnq := k.spawnq ++ [r] })).clu r.target := by
    simp only [State.enqueueSpawn, State.clu, State.tick_clus]
  rw [h, State.clu_modClu]

/-! ### Admission (02 R25, R26) -/

/-- The slot that a thread takes is free (02 R24). -/
theorem State.thread?_freeSlot {s : State} {cl k : Nat} (h : s.freeSlot cl = some k) : s.thread? cl k = none := by
  have picked (x n : Nat) (r : List Nat) : nth (x :: r) (n % (r.length + 1)) x ∈ x :: r := by
    have hlt : n % (r.length + 1) < (x :: r).length := Nat.mod_lt n (Nat.succ_pos r.length)
    rw [nth, List.getD_eq_getElem?_getD, List.getElem?_eq_getElem hlt]
    exact List.getElem_mem hlt
  have hk : k ∈ s.openSlots cl := by
    unfold State.freeSlot at h
    generalize hl : (s.openSlots cl).filter (fun k => !s.slotKept cl k) = l at h
    generalize s.openSlots cl = o at h hl ⊢
    cases l with
    | cons x r =>
      cases h
      have hm := picked x s.freeVal.toNat r
      generalize nth (x :: r) (s.freeVal.toNat % (r.length + 1)) x = j at hm ⊢
      rw [← hl] at hm
      exact (List.mem_filter.mp hm).1
    | nil =>
      cases o with
      | cons x r =>
        cases h
        exact picked x _ r
      | nil => cases h
  simpa [State.openSlots] using (List.mem_filter.mp hk).2

theorem execSpawnAdmission_admits {s : State} {cl k : Nat} {r : SpawnReq} {f : Frame} {g : Region}
    (hr : s.firstAdmissible cl (s.clu cl).spawnq [] = some r) (hf : s.frame? cl r.rgn r.knum = some f) (hn : s.admittedNow cl = false)
    (hk : s.freeSlot cl = some k) (hg : s.region? r.rgn = some g) :
    execSpawnAdmission cl s = .next { (s.useFree.modClu cl (fun c =>
          { c with spawnq := c.spawnq.erase r, admits := c.admits.filter (fun x => x != (r.rgn, r.knum)) ++ [(r.rgn, r.knum)] })) with
        threads := s.threads ++ [childOf f r k g.ceil (s.pulse cl + 1)], streams := restartStreams s.streams r.rgn cl k } := by
  unfold execSpawnAdmission
  simp only [hr, hf, hn, hk, hg, Bool.false_eq_true, if_false]

/-- Settles O47: each answer of a request is one branch of its arrival, and the slot that an admission takes is free. -/
theorem spawnRequestsAndAdmission : Obligations.SpawnRequestsAndAdmission := by
  unfold Obligations.SpawnRequestsAndAdmission
  refine ⟨fun s id a r f ha hb hf hs => ⟨fun p hj => ?_, fun hj hq => ?_, fun t u hj hq ht hw hl => ?_⟩, fun s cl k r f g hr hf hn hk hg => ?_⟩
  · exact execSpawnRequestArrival_spawnt ha hb hf hs hj
  · exact execSpawnRequestArrival_refused ha hb hf hs hj hq
  · have ht' : ((s.dropAct id).enqueueSpawn r).thread? a.cl a.slot = some t :=
      (State.thread?_of_threads (((s.dropAct id).enqueueSpawn_threads r).trans (s.dropAct_threads id)) ..).trans ht
    have hx := execSpawnRequestArrival_taken ha hb hf hs hj hq ht' hw
    rw [State.endWait_of_late_nil ht' hl] at hx
    have h1 := State.turns_modThread (f := Thread.goesOn) (fun _ => ⟨rfl, rfl⟩) ht'
    refine ⟨_, _, hx, h1.thread, rfl, fun _ => rfl, rfl, ?_⟩
    have hq' := (s.dropAct id).enqueueSpawn_spawnq r
    simpa only [State.clu, State.dropAct_clus, State.modThread_clus] using hq'
  · have hx := execSpawnAdmission_admits hr hf hn hk hg
    refine ⟨State.thread?_freeSlot hk, _, _, hx, rfl, rfl, rfl, rfl, rfl, rfl, rfl, rfl, rfl, rfl, rfl, rfl, rfl, rfl, ?_, ?_⟩
    · exact congrArg Clus.spawnq (getK_setK_same s.clus cl _ _)
    · exact State.sameMemory_of_eq (by simp) (by simp) (by simp) (by simp) (by simp)

/-! ### Decode checks of the scalar instructions (02 R35; 03 R53) -/

/-- The lowest number that passes a test is the least of those that pass it. -/
theorem lowest_eq_min? (p : Nat → Bool) (l : List Nat) : lowest p l = (l.filter p).min? := by
  have found (r : List Nat) : ∀ a : Nat,
      r.foldl (fun m x => if p x then (match m with | none => some x | some y => some (Nat.min x y)) else m) (some a) =
        some ((r.filter p).foldl min a) := by
    induction r with
    | nil => exact fun _ => rfl
    | cons x r ih =>
      intro a
      by_cases hx : p x = true
      · rw [List.foldl_cons, if_pos hx, List.filter_cons_of_pos hx, List.foldl_cons, Nat.min_comm a x]
        exact ih (min x a)
      · rw [List.foldl_cons, if_neg hx, List.filter_cons_of_neg hx, ih]
  unfold lowest
  induction l with
  | nil => rfl
  | cons x r ih =>
    by_cases hx : p x = true
    · rw [List.foldl_cons, if_pos hx, List.filter_cons_of_pos hx, List.min?_cons']
      exact found r x
    · rw [List.foldl_cons, if_neg hx, List.filter_cons_of_neg hx, ih]

theorem lowest_eq_some {p : Nat → Bool} {l : List Nat} {r : Nat} (hr : r ∈ l) (hp : p r = true) (hl : ∀ x ∈ l, p x = true → r ≤ x) :
    lowest p l = some r := by
  rw [lowest_eq_min?, List.min?_eq_some_iff]
  exact ⟨List.mem_filter.mpr ⟨hr, hp⟩, fun x hx => hl x (List.mem_filter.mp hx).1 (List.mem_filter.mp hx).2⟩

theorem lowest_eq_none {p : Nat → Bool} {l : List Nat} (h : ∀ x ∈ l, p x = false) : lowest p l = none := by
  rw [lowest_eq_min?, List.min?_eq_none_iff, List.filter_eq_nil_iff]
  exact fun x hx => ne_true_of_eq_false (h x hx)

section Decode
variable {s : State} {c : Ctx} {i : Instr}

/-- An instruction that is no vector, system or privileged one passes the checks before the allotment's. -/
theorem decodeChecks_plain (hv : isVec i = false) (hs : ∀ w k, checkSys c w k i = none) (hp : ∀ w k, checkPriv c w k i = none) :
    decodeChecks s c [i] = orTrap (checkAllots c s.cur.words [i]) (orTrap (checkPending c s.cur.words 0 i)
      (orTrap (checkEcc s c s.cur.words 0 i) (checkOwn c s.cur.words 0 i))) := by
  have hty : checkType c s.cur.words 0 i = none := by simp only [checkType, hv, Bool.false_and, Bool.false_eq_true, if_false]
  have one (g : Nat → Instr → Option Trap) : firstTrap g 0 [i] = g 0 i := by
    unfold firstTrap
    cases g 0 i <;> rfl
  unfold decodeChecks
  simp only [one, hty, hs, hp, orTrap]

/-- Where the checks of 10 R217 pass, the instruction's own check decides (11 R219). -/
theorem State.failsWith_own {tr : Trap} (hc : s.ctx? = some c) (hv : isVec i = false) (hs : ∀ w k, checkSys c w k i = none)
    (hp : ∀ w k, checkPriv c w k i = none)
    (he : checkAllots c s.cur.words [i] = none ∧ checkPending c s.cur.words 0 i = none ∧ checkEcc s c s.cur.words 0 i = none)
    (ho : checkOwn c s.cur.words 0 i = some tr) : s.failsWith c i tr := by
  obtain ⟨hallot, hpend, hecc⟩ := he
  refine ⟨hc, ?_⟩
  rw [decodeChecks_plain hv hs hp, hallot, hpend, hecc, ho]
  rfl

/-- A three-register instruction's allotment check looks at its registers alone (02 R35). -/
theorem checkAllots_add (c : Ctx) (w : Word) (d a b : BitVec 5) :
    checkAllots c w [.add d a b] = (lowest (fun r => decide (c.allot ≤ r)) [a.toNat, b.toNat, d.toNat]).map (fun r => allotTrap 64 r c.allot w 0) := by
  have hreg : gReads (.add d a b) ++ gWrites (.add d a b) = [a.toNat, b.toNat, d.toNat] := rfl
  unfold checkAllots firstTrap checkAllot
  simp only [if_true, hreg]
  cases lowest (fun r => decide (c.allot ≤ r)) [a.toNat, b.toNat, d.toNat] <;> rfl

end Decode

/-- Settles O17: the checks are made in order, and the lowest register that fails one is named. -/
theorem operandTrapsAtDecode : Obligations.OperandTrapsAtDecode := by
  unfold Obligations.OperandTrapsAtDecode
  refine ⟨fun s c d a b r hc hr => ⟨fun ha hl => ⟨hc, ?_⟩, fun ha hp hl => ⟨hc, ?_⟩⟩, fun s c d a b n hc => ?_⟩
  · rw [decodeChecks_plain (i := .add d a b) rfl (fun _ _ => rfl) (fun _ _ => ite_self _), checkAllots_add,
      lowest_eq_some hr (decide_eq_true ha) (by simpa using hl)]
    rfl
  · have hpend : checkPending c s.cur.words 0 (.add d a b) = some ⟨5, BitVec.ofNat 64 r, pendWord c.t, s.cur.words, 0⟩ := by
      have hreg : gReads (.add d a b) ++ gWrites (.add d a b) = [a.toNat, b.toNat, d.toNat] := rfl
      simp only [checkPending, hreg, lowest_eq_some (p := fun r => c.t.pendG.getLsbD r) hr hp hl]
    rw [decodeChecks_plain (i := .add d a b) rfl (fun _ _ => rfl) (fun _ _ => ite_self _), checkAllots_add,
      lowest_eq_none (fun x hx => decide_eq_false (Nat.not_le.mpr (ha x hx))), hpend]
    rfl
  · intro earlier
    refine ⟨fun h => ⟨fun he => ?_, fun he => ?_⟩, fun h => ⟨fun he => ?_, fun he => ?_⟩, fun h he => ?_, fun h he => ?_⟩
    · exact State.failsWith_own hc rfl (fun _ _ => rfl) (fun _ _ => ite_self _) he (if_pos h)
    · exact State.failsWith_own hc rfl (fun _ _ => rfl) (fun _ _ => ite_self _) he (if_pos h)
    · exact State.failsWith_own hc rfl (fun _ _ => rfl) (fun _ _ => ite_self _) he (if_pos h)
    · exact State.failsWith_own hc rfl (fun _ _ => rfl) (fun _ _ => ite_self _) he (if_pos h)
    · exact State.failsWith_own hc rfl (fun _ _ => rfl) (fun _ _ => ite_self _) he (if_pos h)
    · exact State.failsWith_own hc rfl (fun _ _ => rfl) (fun _ _ => ite_self _) he (if_neg (ne_true_of_eq_false h))

end Sys2Proof.Machine
end

section
namespace Sys2Proof.Machine

/-! ### Barriers: what the statement leaves open (11 R248)

The statement reads whether an arrival is on its way off the state before the instruction. The instruction first performs the
thread's pending loads of its own window, each found by its number; where an arrival bears a load's number, that changes it
too. No hypothesis says that the numbers of the work in flight differ. -/

def barrierFrame : Frame := { placedFrame with bars := List.replicate 16 ⟨true, 2, 0, false⟩ }

def barrierCtx : Ctx := ⟨Thread.start 0 0 0 0 32 4 64, barrierFrame, placedRegion, 32⟩

/-- One thread with a load of its own window and an arrival at barrier 3 in flight, both under number 5. -/
def arrivalUnderLoadNumber : State :=
  { State.reset with
    regions := [placedRegion]
    frames := [barrierFrame]
    threads := [Thread.start 0 0 0 0 32 4 64]
    acts := [⟨5, 0, 0, 0, [], .load 5 (.scratch 0 0x1000 false) 8 true 0 0x4000000000001000 0 0, 0⟩, ⟨5, 0, 0, 0, [], .arrive 0 0 3, 0⟩]
    seq := 20 }

/-- The arrivals counted at a barrier of the thread's frame after a step. -/
def arrivalsAfter (o : Host.Outcome State Fault Refusal) (b : Nat) : Option Nat :=
  match o with
  | .next t => (t.frame? 0 0 0).map (fun f => (f.bar b).counter)
  | _ => none

theorem arrivalUnderLoadNumber_issues : arrivalUnderLoadNumber.issues barrierCtx (.barrive 3) := by
  unfold State.issues
  decide +kernel

theorem arrivalUnderLoadNumber_arriving : arrivalUnderLoadNumber.arriving 0 0 3 = true := by decide +kernel

/-- The second arrival counts at once, though the first one is on its way. -/
theorem barrive_arrivalUnderLoadNumber_counts : arrivalsAfter (exec (.barrive 3) arrivalUnderLoadNumber) 3 = some 1 := by decide +kernel

/-- Refutes O30: an arrival that bears the number of a pending load is lost with that load, so that BARRIVE counts at once. -/
theorem not_barrierOperations : ¬ Obligations.BarrierOperations := by
  unfold Obligations.BarrierOperations
  intro h
  obtain ⟨-, harrive, -⟩ := h.1 arrivalUnderLoadNumber barrierCtx 0 3 (by decide) (by decide) rfl rfl
  obtain ⟨t, ht, -, -, hheld⟩ := harrive arrivalUnderLoadNumber_issues
  obtain ⟨⟨⟨f, hf, hbar⟩, -⟩, -⟩ := hheld (.inr arrivalUnderLoadNumber_arriving)
  have hcount := barrive_arrivalUnderLoadNumber_counts
  rw [ht] at hcount
  have hzero : arrivalsAfter (.next t) 3 = some 0 := by
    change (t.frame? 0 0 0).map (fun f => (f.bar 3).counter) = some 0
    rw [show t.frame? 0 0 0 = some f from hf]
    exact congrArg (fun w : Bar => some w.counter) hbar
  exact absurd (hzero.symm.trans hcount) (by decide)

end Sys2Proof.Machine
end

section
namespace Sys2Proof.Machine

/-! ### The length of what a cipher leaves (21 R391) -/

theorem length_xorBytes {a b : List Nat} {n : Nat} (ha : a.length = n) (hb : b.length = n) : (xorBytes a b).length = n := by
  simp [xorBytes, ha, hb]

theorem length_bytesOfNat (n v : Nat) : (bytesOfNat n v).length = n := by
  induction n generalizing v with
  | zero => rfl
  | succ n ih => exact congrArg (· + 1) (ih (v / 256))

theorem length_blocks (n : Nat) (l : List Nat) : (blocks n l).length = n := by
  induction n generalizing l with
  | zero => rfl
  | succ n ih => exact congrArg (· + 1) (ih (l.drop 16))

theorem length_of_mem_blocks {n : Nat} {l b : List Nat} (hl : 16 * n ≤ l.length) (hb : b ∈ blocks n l) : b.length = 16 := by
  induction n generalizing l with
  | zero => cases hb
  | succ n ih =>
    rcases List.mem_cons.mp hb with rfl | hb
    · rw [List.length_take]
      omega
    · exact ih (by rw [List.length_drop]; omega) hb

/-- A word of the key schedule has four bytes where the words before it have. -/
theorem length_nextKeyWord {ws : List (List Nat)} (rcon : Nat) (h8 : 8 ≤ ws.length) (hw : ∀ w ∈ ws, w.length = 4) :
    (nextKeyWord ws rcon).length = 4 := by
  have hold : (ws.getD 7 []).length = 4 := by
    rw [List.getD_eq_getElem?_getD, List.getElem?_eq_getElem (by omega : 7 < ws.length)]
    exact hw _ (List.getElem_mem _)
  have htemp : (ws.headD []).length = 4 := by
    obtain ⟨w, r, rfl⟩ := List.exists_cons_of_length_pos (by omega : 0 < ws.length)
    exact hw w List.mem_cons_self
  unfold nextKeyWord
  dsimp only
  generalize ws.headD [] = temp at htemp ⊢
  split
  · exact length_xorBytes hold (length_xorBytes (by simp [htemp]) rfl)
  · split
    · exact length_xorBytes hold (by simp [htemp])
    · exact length_xorBytes hold htemp

theorem growKey_words (n : Nat) : ∀ (rcon : Nat) {ws : List (List Nat)}, 8 ≤ ws.length → (∀ w ∈ ws, w.length = 4) →
    (growKey n rcon ws).length = ws.length + n ∧ ∀ w ∈ growKey n rcon ws, w.length = 4 := by
  induction n with
  | zero => exact fun _ _ _ hw => ⟨rfl, hw⟩
  | succ n ih =>
    intro rcon ws h8 hw
    obtain ⟨h1, h2⟩ := ih (if ws.length % 8 = 0 then aesTimes rcon else rcon) (ws := nextKeyWord ws rcon :: ws)
      (Nat.le_succ_of_le h8) (List.forall_mem_cons.mpr ⟨length_nextKeyWord rcon h8 hw, hw⟩)
    exact ⟨h1.trans (by rw [List.length_cons]; omega), h2⟩

theorem length_of_mem_roundKeys {key k : List Nat} (hkey : key.length = 32) (hk : k ∈ roundKeys key) : k.length = 16 := by
  obtain ⟨hlen, hword⟩ := growKey_words 52 1 (ws := ((List.range 8).map (fun k => (key.drop (4 * k)).take 4)).reverse) (by simp)
    (by
      simp only [List.mem_reverse, List.mem_map, List.mem_range, forall_exists_index, and_imp]
      rintro w j hj rfl
      rw [List.length_take, List.length_drop]
      omega)
  refine length_of_mem_blocks (Nat.le_of_eq ?_) hk
  rw [List.length_flatten, List.map_congr_left (g := fun _ => 4) (fun w hw => hword w (List.mem_reverse.mp hw)), List.map_const', List.sum_replicate_nat,
    List.length_reverse, hlen]
  simp

theorem length_aesRounds {ks : List (List Nat)} {b : List Nat} (hk : ∀ k ∈ ks, k.length = 16) (hb : b.length = 16) :
    (aesRounds ks b).length = 16 := by
  fun_induction aesRounds ks b with
  | case1 b => exact hb
  | case2 k b => exact length_xorBytes (by simp [shiftRows]) (hk k List.mem_cons_self)
  | case3 k r b _ ih =>
    exact ih (fun x hx => hk x (List.mem_cons_of_mem _ hx)) (length_xorBytes (by simp [mixWith]) (hk k List.mem_cons_self))

theorem length_aesInvRounds {ks : List (List Nat)} {b : List Nat} (hk : ∀ k ∈ ks, k.length = 16) (hb : b.length = 16) :
    (aesInvRounds ks b).length = 16 := by
  fun_induction aesInvRounds ks b with
  | case1 b => exact hb
  | case2 k b => exact length_xorBytes (by simp [invShiftRows]) (hk k List.mem_cons_self)
  | case3 k r b _ ih => exact ih (fun x hx => hk x (List.mem_cons_of_mem _ hx)) (by simp [mixWith])

theorem length_aesEncrypt {key b : List Nat} (hkey : key.length = 32) (hb : b.length = 16) : (aesEncrypt key b).length = 16 := by
  have hk := fun k => length_of_mem_roundKeys (k := k) hkey
  unfold aesEncrypt
  generalize roundKeys key = ks at hk
  cases ks with
  | nil => exact hb
  | cons k r => exact length_aesRounds (fun x hx => hk x (List.mem_cons_of_mem _ hx)) (length_xorBytes hb (hk k List.mem_cons_self))

theorem length_aesDecrypt {key b : List Nat} (hkey : key.length = 32) (hb : b.length = 16) : (aesDecrypt key b).length = 16 := by
  have hk := fun k hm => length_of_mem_roundKeys (k := k) hkey (List.mem_reverse.mp hm)
  unfold aesDecrypt
  generalize (roundKeys key).reverse = ks at hk
  cases ks with
  | nil => exact hb
  | cons k r => exact length_aesInvRounds (fun x hx => hk x (List.mem_cons_of_mem _ hx)) (length_xorBytes hb (hk k List.mem_cons_self))

theorem length_xtsBlocks {cipher : List Nat → List Nat} (hc : ∀ b, b.length = 16 → (cipher b).length = 16) {bs : List (List Nat)} :
    ∀ {t : List Nat}, t.length = 16 → (∀ b ∈ bs, b.length = 16) → (xtsBlocks cipher t bs).length = 16 * bs.length := by
  induction bs with
  | nil => exact fun _ _ => rfl
  | cons b r ih =>
    intro t ht hb
    obtain ⟨hb0, hr⟩ := List.forall_mem_cons.mp hb
    rw [xtsBlocks, List.length_append, length_xorBytes (hc _ (length_xorBytes hb0 ht)) ht, ih (t := nextTweak t) (length_bytesOfNat ..) hr, List.length_cons]
    omega

/-- A line has its 64 bytes in its ciphertext too (21 R391). -/
theorem length_xtsLine (dec : Bool) (key : BitVec 512) (tweak : Nat) {line : List Nat} (h : line.length = 64) :
    (xtsLine dec key tweak line).length = 64 := by
  have hkey : ((bytesOfNat 64 key.toNat).take 32).length = 32 := by simp [length_bytesOfNat]
  have htweak : (aesEncrypt ((bytesOfNat 64 key.toNat).drop 32) (bytesOfNat 16 tweak)).length = 16 :=
    length_aesEncrypt (by simp [length_bytesOfNat]) (length_bytesOfNat ..)
  unfold xtsLine
  dsimp only
  generalize (bytesOfNat 64 key.toNat).take 32 = k1 at hkey
  generalize aesEncrypt ((bytesOfNat 64 key.toNat).drop 32) (bytesOfNat 16 tweak) = t at htweak
  have hcipher : ∀ b, b.length = 16 → ((if dec = true then aesDecrypt k1 else aesEncrypt k1) b).length = 16 := by
    intro b hb
    split
    · exact length_aesDecrypt hkey hb
    · exact length_aesEncrypt hkey hb
  have hlen := length_xtsBlocks hcipher htweak (fun b hb => length_of_mem_blocks (n := 4) (Nat.le_of_eq h.symm) hb)
  rw [length_blocks] at hlen
  exact hlen

theorem length_xtsUnder (wrote reads : KeyVal) (tweak : Nat) {line : List Nat} (h : line.length = 64) :
    (xtsUnder wrote reads tweak line).length = 64 := by
  cases wrote <;> cases reads
  · exact h
  · exact length_xtsLine _ _ _ h
  · exact length_xtsLine _ _ _ h
  · exact length_xtsLine _ _ _ (length_xtsLine _ _ _ h)

theorem length_memRead (m : List Host.Cell) (a n : Nat) : (memRead m a n).length = n := by
  induction n generalizing a with
  | zero => rfl
  | succ n ih => exact congrArg (· + 1) (ih (a + 1))

/-- A line under a key has 64 bytes. -/
theorem State.length_lineUnder (s : State) (key : KeyVal) (line : Nat) : (s.lineUnder key line).length = 64 := by
  have hl : (memRead s.hbm (64 * line) 64).length = 64 := length_memRead ..
  unfold State.lineUnder
  cases lineTag s.lineKey line with
  | none => exact hl
  | some k =>
    simp only
    split
    · exact hl
    · rw [List.length_map, length_xtsUnder _ _ _ (by rw [List.length_map, hl])]

end Sys2Proof.Machine
end

section
namespace Sys2Proof.Machine

/-! ### One byte of HBM, under the key that writes it and under others (21 R391, R392) -/

theorem lineTag_setK_same (l : List (Nat × KeyVal)) (line : Nat) (key : KeyVal) : lineTag (setK l line key) line = some key := by
  induction l with
  | nil => simp [setK, lineTag]
  | cons x r ih =>
    obtain ⟨k, v⟩ := x
    unfold setK
    split
    · simp [lineTag]
    · next hk =>
      split
      · simp [lineTag]
      · simp [lineTag, hk, ih]

theorem lineTag_setK_other (l : List (Nat × KeyVal)) {line n : Nat} (key : KeyVal) (h : n ≠ line) :
    lineTag (setK l line key) n = lineTag l n := by
  induction l with
  | nil => simp [setK, lineTag, Ne.symm h]
  | cons x r ih =>
    obtain ⟨k, v⟩ := x
    unfold setK
    split
    · next hk => simp [lineTag, hk, Ne.symm h]
    · split
      · simp [lineTag, Ne.symm h]
      · simp [lineTag, ih]

theorem memRead_congr {m m' : List Host.Cell} {a n : Nat} (h : ∀ x, a ≤ x → x < a + n → memGet m' x = memGet m x) :
    memRead m' a n = memRead m a n := by
  induction n generalizing a with
  | zero => rfl
  | succ n ih =>
    rw [memRead, memRead, h a (Nat.le_refl a) (by omega), ih (fun x h1 h2 => h x (by omega) (by omega))]

section Bytes
variable {s t : State} {key loc l : Nat} {kv : KeyVal}

/-- A byte of a line that its own key wrote last, or that none has written, is the byte stored. -/
theorem State.hbmByte_stored (hk : s.keyOf key = some kv)
    (ht : lineTag s.lineKey (loc / 64) = none ∨ lineTag s.lineKey (loc / 64) = some kv) : s.hbmByte key loc = memGet s.hbm loc := by
  unfold State.hbmByte
  rcases ht with ht | ht <;> simp [hk, ht]

/-- A byte of a line that another key wrote last is that of the line under the reading key. -/
theorem State.hbmByte_decrypted {k : KeyVal} (hk : s.keyOf key = some kv) (ht : lineTag s.lineKey (loc / 64) = some k) (hne : k ≠ kv) :
    s.hbmByte key loc = (s.lineUnder kv (loc / 64)).getD (loc % 64) 0 := by
  unfold State.hbmByte
  simp [hk, ht, hne]

/-- A byte of HBM rests on the keys, and on the tag and the stored bytes of its line. -/
theorem State.hbmByte_of_line (hk : t.keys = s.keys) (ht : lineTag t.lineKey (l / 64) = lineTag s.lineKey (l / 64))
    (hm : ∀ a, a / 64 = l / 64 → memGet t.hbm a = memGet s.hbm a) : t.hbmByte key l = s.hbmByte key l := by
  have hread : memRead t.hbm (64 * (l / 64)) 64 = memRead s.hbm (64 * (l / 64)) 64 :=
    memRead_congr fun a h1 h2 => hm a (by omega)
  simp only [State.hbmByte, State.keyOf, State.lineUnder, hk, ht, hm l rfl, hread]

theorem State.rekey_lineTag (s : State) (kv : KeyVal) (line : Nat) : lineTag (s.rekey kv line).lineKey line = some kv := by
  unfold State.rekey
  split
  · exact lineTag_setK_same ..
  · next k hk =>
    split
    · next h => exact hk.trans (congrArg some h)
    · exact lineTag_setK_same ..

theorem State.rekey_lineTag_other (s : State) (kv : KeyVal) {line n : Nat} (h : n ≠ line) :
    lineTag (s.rekey kv line).lineKey n = lineTag s.lineKey n := by
  unfold State.rekey
  split
  · exact lineTag_setK_other _ _ h
  · split
    · rfl
    · exact lineTag_setK_other _ _ h

/-- What is stored after a line's change of key: the line as it reads under the new key, and every other line as it was. -/
theorem State.memGet_rekey (hw : Memory.wf s.hbm = true) (hk : s.keyOf key = some kv) (line a : Nat) :
    memGet (s.rekey kv line).hbm a = if a / 64 = line then s.hbmByte key a else memGet s.hbm a := by
  unfold State.rekey
  split
  · next ht =>
    split
    · next ha => exact (State.hbmByte_stored hk (.inl (ha ▸ ht))).symm
    · rfl
  · next k ht =>
    by_cases hkv : k = kv
    · subst hkv
      rw [if_pos rfl]
      split
      · next ha => exact (State.hbmByte_stored hk (.inr (ha ▸ ht))).symm
      · rfl
    · rw [if_neg hkv]
      change memGet (memWrite s.hbm (64 * line) (s.lineUnder kv line)) a = _
      rw [memGet_memWrite a hw, State.length_lineUnder]
      by_cases ha : a / 64 = line
      · rw [if_pos (by omega), if_pos ha, State.hbmByte_decrypted hk (ha ▸ ht) hkv, ha, show a - 64 * line = a % 64 by omega]
        rfl
      · rw [if_neg (by omega), if_neg ha]

/-- What a byte written to HBM leaves stored: the byte, in its line as it reads under the writing key. -/
theorem State.hbmPut_stored (hk : s.keyOf key = some kv) (b : Byte) :
    (s.hbmPut key loc b).hbm = memSet (s.rekey kv (loc / 64)).hbm loc b ∧ (s.hbmPut key loc b).lineKey = (s.rekey kv (loc / 64)).lineKey := by
  unfold State.hbmPut
  simp only [hk]
  rw [State.access_eq]
  exact ⟨rfl, rfl⟩

@[simp] theorem State.hbmPut_keys (s : State) (key loc : Nat) (b : Byte) : (s.hbmPut key loc b).keys = s.keys := by
  rw [State.hbmPut_eq]

/-- A byte written to HBM leaves every other line under every key. -/
theorem State.hbmByte_hbmPut_other_line (hw : Memory.wf s.hbm = true) (b : Byte) {k : Nat} (hl : l / 64 ≠ loc / 64) :
    (s.hbmPut key loc b).hbmByte k l = s.hbmByte k l := by
  cases hk : s.keyOf key with
  | none => simp only [State.hbmPut, hk]
  | some kv =>
    obtain ⟨hhbm, htag⟩ := State.hbmPut_stored (loc := loc) hk b
    refine State.hbmByte_of_line (State.hbmPut_keys ..) (by rw [htag, State.rekey_lineTag_other s kv hl]) fun a ha => ?_
    rw [hhbm, memGet_memSet a (State.rekey_wf s kv (loc / 64) hw), State.memGet_rekey hw hk, if_neg (fun h => hl (by omega)),
      if_neg (by omega)]

/-- A byte written under a key that holds a value: it reads back under that key, and every other byte does as before. -/
theorem State.hbmByte_hbmPut (hw : Memory.wf s.hbm = true) (hk : s.keyOf key = some kv) (b : Byte) :
    (s.hbmPut key loc b).hbmByte key l = if l = loc then b else s.hbmByte key l := by
  obtain ⟨hhbm, htag⟩ := State.hbmPut_stored (loc := loc) hk b
  have hk' : (s.hbmPut key loc b).keyOf key = some kv := by
    rw [State.keyOf, State.hbmPut_keys]
    exact hk
  have hget : memGet (s.hbmPut key loc b).hbm l =
      if l = loc then b else if l / 64 = loc / 64 then s.hbmByte key l else memGet s.hbm l := by
    rw [hhbm, memGet_memSet l (State.rekey_wf s kv (loc / 64) hw), State.memGet_rekey hw hk]
  by_cases hl : l / 64 = loc / 64
  · rw [State.hbmByte_stored hk' (.inr (by rw [htag, hl, State.rekey_lineTag])), hget, if_pos hl]
  · rw [if_neg (fun h => hl (by rw [h]))]
    exact State.hbmByte_hbmPut_other_line hw b hl

end Bytes

end Sys2Proof.Machine
end

section
namespace Sys2Proof.Machine

/-! ### Bytes written at the places of a line, and what every other byte reads (04 R70, R80; 12 R255; 22 R403) -/

/-- A byte written at a place can be read there: memory has its canonical form, and the place's frame or key is there. -/
def State.holdsPlace (s : State) (rgn knum : Nat) : Place → Prop
  | .scratch c _ _ => s.memsOk = true ∧ (s.frame? c rgn knum).isSome = true
  | .global _ key _ => s.memsOk = true ∧ (s.keyOf key).isSome = true
  | _ => s.memsOk = true

theorem State.memsOk_spec {s : State} (h : s.memsOk = true) :
    Memory.wf s.hbm = true ∧ Memory.wf s.hostMem = true ∧ ∀ f ∈ s.frames, Memory.wf f.scr = true := by
  simp only [State.memsOk, Bool.and_eq_true, List.all_eq_true] at h
  obtain ⟨⟨h1, h2⟩, h3⟩ := h
  exact ⟨h1, h2, h3⟩

theorem State.holdsPlace_memsOk {s : State} {rgn knum : Nat} {p : Place} (h : s.holdsPlace rgn knum p) : s.memsOk = true := by
  cases p with
  | scratch c o q => exact h.1
  | global l k w => exact h.1
  | host a => exact h
  | fabric a => exact h

/-- The frame with a byte written to its scratchpad window. -/
def Frame.putScr (o : Nat) (b : Byte) (f : Frame) : Frame := { f with scr := memSet f.scr o b }

/-- A byte written to a scratchpad window changes the frame of its kernel on its cluster. -/
theorem State.frame?_writeByte_scratch (s : State) (rgn knum c o : Nat) (q : Bool) (b : Byte) (d r k : Nat) :
    (s.writeByte rgn knum (.scratch c o q) b).frame? d r k =
      (s.frame? d r k).map (fun x => if x.cl = c ∧ x.rgn = rgn ∧ x.knum = knum then x.putScr o b else x) :=
  s.frame?_modFrame_any c rgn knum d r k (f := Frame.putScr o b) fun _ => ⟨rfl, rfl, rfl⟩

theorem State.frame?_spec {s : State} {cl rgn knum : Nat} {f : Frame} (h : s.frame? cl rgn knum = some f) :
    f.cl = cl ∧ f.rgn = rgn ∧ f.knum = knum := by
  have hkey := List.find?_some h
  simpa [and_assoc] using hkey

theorem State.frame?_writeByte_global (s : State) (rgn knum l key : Nat) (w : Walked) (b : Byte) (d r k : Nat) :
    (s.writeByte rgn knum (.global l key w) b).frame? d r k = s.frame? d r k :=
  State.frame?_of_frames (s.hbmPut_frames key l b) d r k

theorem State.frame?_writeByte_isSome (s : State) (rgn knum : Nat) (p : Place) (b : Byte) (d r k : Nat) :
    ((s.writeByte rgn knum p b).frame? d r k).isSome = (s.frame? d r k).isSome := by
  cases p with
  | scratch c o q => rw [State.frame?_writeByte_scratch, Option.isSome_map]
  | global l key w => rw [State.frame?_writeByte_global]
  | host a => rfl
  | fabric a => rfl

theorem State.keyOf_writeByte (s : State) (rgn knum : Nat) (p : Place) (b : Byte) (key : Nat) :
    (s.writeByte rgn knum p b).keyOf key = s.keyOf key := by
  cases p with
  | global l k w => simp only [State.keyOf, State.writeByte, State.hbmPut_keys]
  | scratch c o q => rfl
  | host a => rfl
  | fabric a => rfl

/-- A byte written anywhere leaves a place as one that holds its bytes. -/
theorem State.holdsPlace_writeByte {s : State} {rgn knum : Nat} {p : Place} (r k : Nat) (q : Place) (b : Byte)
    (h : s.holdsPlace rgn knum p) : (s.writeByte r k q b).holdsPlace rgn knum p := by
  have hm := s.memsOk_writeByte r k q b (State.holdsPlace_memsOk h)
  cases p with
  | scratch c o v => exact ⟨hm, (s.frame?_writeByte_isSome r k q b c rgn knum).trans h.2⟩
  | global l key w => exact ⟨hm, (congrArg Option.isSome (s.keyOf_writeByte r k q b key)).trans h.2⟩
  | host a => exact hm
  | fabric a => exact hm

section OneByte
variable {s : State} {rgn knum : Nat}

theorem State.readByte_writeByte_global {key loc l : Nat} {w v : Walked} {b : Byte} (h : s.holdsPlace rgn knum (.global loc key w))
    (r k : Nat) : (s.writeByte rgn knum (.global loc key w) b).readByte r k (.global l key v) =
      if l = loc then b else s.readByte r k (.global l key v) := by
  obtain ⟨kv, hk⟩ := Option.isSome_iff_exists.mp h.2
  exact State.hbmByte_hbmPut (State.memsOk_spec h.1).1 hk b

theorem State.readByte_writeByte_host {a j : Nat} {b : Byte} (h : s.memsOk = true) (r k : Nat) :
    (s.writeByte rgn knum (.host a) b).readByte r k (.host j) = if j = a then b else s.readByte r k (.host j) :=
  memGet_memSet j (State.memsOk_spec h).2.1

theorem State.readByte_writeByte_scratch {c o j : Nat} {q v : Bool} {b : Byte} (h : s.holdsPlace rgn knum (.scratch c o q)) :
    (s.writeByte rgn knum (.scratch c o q) b).readByte rgn knum (.scratch c j v) =
      if j = o then b else s.readByte rgn knum (.scratch c j v) := by
  obtain ⟨f, hf⟩ := Option.isSome_iff_exists.mp h.2
  have hwf := (State.memsOk_spec h.1).2.2 f (List.mem_of_find?_eq_some hf)
  simp only [State.readByte, State.frame?_writeByte_scratch, hf, Option.map_some, if_pos (State.frame?_spec hf)]
  exact memGet_memSet j hwf

/-- A byte written to one scratchpad window leaves the window of every other frame. -/
theorem State.readByte_writeByte_other_frame {c o r n k j : Nat} {q v : Bool} (b : Byte) (h : ¬ (r = rgn ∧ n = knum ∧ k = c)) :
    (s.writeByte rgn knum (.scratch c o q) b).readByte r n (.scratch k j v) = s.readByte r n (.scratch k j v) := by
  simp only [State.readByte, State.frame?_writeByte_scratch]
  cases hf : s.frame? k r n with
  | none => rfl
  | some f =>
    obtain ⟨h1, h2, h3⟩ := State.frame?_spec hf
    rw [Option.map_some, if_neg (fun hx => h ⟨h2.symm.trans hx.2.1, h3.symm.trans hx.2.2, h1.symm.trans hx.1⟩)]

end OneByte

/-- The memory in which a place lies. -/
def Place.kind : Place → Nat
  | .scratch .. => 0
  | .global .. => 1
  | .host _ => 2
  | .fabric _ => 3

theorem Place.kind_plus (p : Place) (n : Nat) : (p.plus n).kind = p.kind := by cases p <;> rfl

/-- A byte written in one memory leaves the others. -/
theorem State.readByte_writeByte_other_memory (s : State) (rgn knum : Nat) (p q : Place) (b : Byte) (r k : Nat) (h : q.kind ≠ p.kind) :
    (s.writeByte rgn knum p b).readByte r k q = s.readByte r k q := by
  cases p with
  | scratch c o v =>
    cases q with
    | scratch => exact absurd rfl h
    | _ => rfl
  | global l key w =>
    cases q with
    | scratch c o v => simp only [State.readByte, State.frame?_writeByte_global]
    | global => exact absurd rfl h
    | host a => simp only [State.readByte, State.writeByte, State.hbmPut_hostMem]
    | fabric a => rfl
  | host a =>
    cases q with
    | host => exact absurd rfl h
    | _ => rfl
  | fabric a => rfl

section Line
variable {rgn knum : Nat} {line : Place} {P : State → Prop}

/-- What each byte of a list leaves, all of them leave. -/
theorem State.writeLine_keeps {rd : State → Byte} {bs : List (Nat × Byte)}
    (hP : ∀ s, P s → ∀ x ∈ bs, P (s.writeByte rgn knum (line.plus x.1) x.2))
    (hrd : ∀ s, P s → ∀ x ∈ bs, rd (s.writeByte rgn knum (line.plus x.1) x.2) = rd s) :
    ∀ s, P s → rd (s.writeLine rgn knum line bs) = rd s := by
  induction bs with
  | nil => exact fun _ _ => rfl
  | cons x r ih =>
    intro s hs
    exact (ih (fun t ht y hy => hP t ht y (List.mem_cons_of_mem _ hy)) (fun t ht y hy => hrd t ht y (List.mem_cons_of_mem _ hy)) _
      (hP s hs x List.mem_cons_self)).trans (hrd s hs x List.mem_cons_self)

/-- Bytes at different offsets read back where they were written. -/
theorem State.writeLine_reads {rd : State → Nat → Byte} (hP : ∀ s, P s → ∀ o b, P (s.writeByte rgn knum (line.plus o) b))
    (hrd : ∀ s, P s → ∀ o b j, rd (s.writeByte rgn knum (line.plus o) b) j = if j = o then b else rd s j)
    {bs : List (Nat × Byte)} (hn : (bs.map (fun x => x.1)).Nodup) :
    ∀ s, P s → ∀ x ∈ bs, rd (s.writeLine rgn knum line bs) x.1 = x.2 := by
  induction bs with
  | nil => exact fun _ _ _ hx => absurd hx List.not_mem_nil
  | cons y r ih =>
    intro s hs x hx
    obtain ⟨hy, hr⟩ := List.nodup_cons.mp hn
    have hs' := hP s hs y.1 y.2
    rcases List.mem_cons.mp hx with rfl | hx
    · have hlater := State.writeLine_keeps (rd := fun t => rd t x.1) (bs := r) (fun t ht z _ => hP t ht z.1 z.2)
        (fun t ht z hz => (hrd t ht z.1 z.2 x.1).trans (if_neg fun h => hy (List.mem_map.mpr ⟨z, hz, h.symm⟩))) _ hs'
      exact hlater.trans ((hrd s hs x.1 x.2 x.1).trans (if_pos rfl))
    · exact ih hr _ hs' x hx

end Line

/-- Bytes written in one memory leave the others. -/
theorem State.readByte_writeLine_other_memory (s : State) (rgn knum : Nat) (line q : Place) (bs : List (Nat × Byte)) (r k : Nat)
    (h : q.kind ≠ line.kind) : (s.writeLine rgn knum line bs).readByte r k q = s.readByte r k q :=
  State.writeLine_keeps (P := fun _ => True) (rd := fun t => t.readByte r k q) (fun _ _ _ _ => trivial)
    (fun t _ x _ => t.readByte_writeByte_other_memory rgn knum _ q x.2 r k (by rwa [Place.kind_plus])) s trivial

end Sys2Proof.Machine
end

section
namespace Sys2Proof.Machine

/-! ### A departed data write performs (05 R101; 12 R255) -/

theorem State.act?_id {s : State} {id : Nat} {a : Act} (h : s.act? id = some a) : a.id = id := by
  simpa using List.find?_some h

/-- Only a departed write may perform. -/
theorem State.mayPerform_job {s : State} {a : Act} {e : Entry} (h : s.mayPerform a = some e) : a.job = .flight e := by
  unfold State.mayPerform at h
  split at h
  · next hj =>
    split at h
    · cases h
      exact hj
    · cases h
  · cases h

/-- The machine in which a departed write has put its bytes at their places, and its act is done. -/
def State.landed (s : State) (a : Act) (e : Entry) (bs : List (Nat × Byte)) : State :=
  ((s.writeLine e.rgn e.knum e.line bs).dropAct a.id).endRelease a

theorem State.performWrite_data {s : State} {a : Act} {e : Entry} {bs : List (Nat × Byte)} (hack : e.ack = none) (hnote : e.note = none)
    (hkind : e.kind = .data bs) : s.performWrite a e = s.landed a e bs := by
  unfold State.performWrite State.landed
  simp only [hack, hkind, hnote]

theorem State.writeLine_threads (rgn knum : Nat) (line : Place) (bs : List (Nat × Byte)) :
    ∀ s : State, (s.writeLine rgn knum line bs).threads = s.threads := by
  induction bs with
  | nil => exact fun _ => rfl
  | cons x r ih =>
    intro s
    refine (ih _).trans ?_
    cases line with
    | global l k w => exact s.hbmPut_threads ..
    | _ => rfl

/-- A wait for this write alone ends with it; any other wait stays. -/
theorem State.endRelease_of_late_nil {s : State} {a : Act} {t : Thread} (ht : s.thread? a.cl a.slot = some t) (hl : t.late = []) :
    s.endRelease a = if t.wait = .release [a.id] then s.modThread a.cl a.slot Thread.goesOn else s := by
  unfold State.endRelease
  simp only [ht]
  rw [State.endWait_of_late_nil ht hl]

theorem State.sameMemory_endRelease (s : State) (a : Act) : s.sameMemory (s.endRelease a) := by
  unfold State.endRelease
  split
  · split
    · exact (s.keepsRest_endWait a.cl a.slot).memory
    · exact .refl s
  · exact .refl s

/-- Every byte reads as the written line leaves it. -/
theorem State.sameMemory_landed (s : State) (a : Act) (e : Entry) (bs : List (Nat × Byte)) :
    (s.writeLine e.rgn e.knum e.line bs).sameMemory (s.landed a e bs) :=
  (State.sameMemory_dropAct _ a.id).trans (State.sameMemory_endRelease _ a)

/-! ### A record that parks nothing, and the latch of a write's thread (12 R260, 19 R365) -/

/-- The arbiter of a fault queue with one record more. -/
def Region.keep (r : Record) (g : Region) : Region := { g with kept := g.kept ++ [r] }

/-- A record that parks nothing is kept where its queue is neither full nor failing (19 R365, R367). -/
theorem State.recorded_raise_of_room (s : State) (r : Record)
    (h : ∀ g, s.region? (s.fqOwner r.rgn) = some g → g.full = false ∧ g.failing = false) : s.recorded (s.raise r) r := by
  unfold State.recorded State.raise
  split
  · rfl
  · intro g hg
    obtain ⟨h1, h2⟩ := h g hg
    refine ⟨g.keep r, ?_, rfl⟩
    unfold State.raiseNow
    simp only [hg, h1, h2, Bool.or_self, Bool.and_false, Bool.false_and, Bool.false_eq_true, if_false]
    exact (State.region?_modRegion s (s.fqOwner r.rgn) (Region.keep r) (fun _ => rfl)).trans (congrArg (Option.map (Region.keep r)) hg)

/-- A raised record adds at most the work of its arbiter, under a new number. -/
theorem State.raise_acts {s : State} {r : Record} {x : Act} (hx : x ∈ (s.raise r).acts) : x ∈ s.acts ∨ x.id = s.seq := by
  unfold State.raise State.raiseNow at hx
  simp only at hx
  split at hx
  · exact .inl hx
  · split at hx
    · exact .inl hx
    · split at hx
      · exact .inl hx
      · split at hx
        · exact .inl hx
        · rcases List.mem_append.mp hx with h | h
          · exact .inl h
          · exact .inr (by rw [List.mem_singleton.mp h]; rfl)

/-- A failed write counts in the memory half of its thread's latch. -/
def Thread.latches (tr : Trap) (ord : Nat) (t : Thread) : Thread := { t with errMem := t.errMem.count tr.cause tr.i0 tr.i1 tr.i3 ord }

theorem ErrHalf.count_of_empty {h : ErrHalf} (cause : Nat) (i0 i1 i3 : Word) (ord : Nat) (hn : h.n = 0) :
    h.count cause i0 i1 i3 ord = { n := 1, cause := BitVec.ofNat 9 cause, i0 := i0, i1 := i1, i3 := i3, ord := ord } := by
  unfold ErrHalf.count
  rw [if_pos hn]

/-- A half that has counted a failure holds one. -/
theorem ErrHalf.count_n_ne_zero (h : ErrHalf) (cause : Nat) (i0 i1 i3 : Word) (ord : Nat) : (h.count cause i0 i1 i3 ord).n ≠ 0 := by
  unfold ErrHalf.count
  split
  · exact (by decide : (1 : BitVec 16) ≠ 0)
  · next hn =>
    simp only
    split
    · exact hn
    · next hmax => bv_omega

/-- The record of a write's failure: it names the thread and parks nothing. -/
def State.writeRecord (s : State) (a : Act) (e : Entry) (tr : Trap) : Record :=
  ⟨tr.cause, false, false, s.pstate a.cl, e.rgn, a.cl, a.slot, e.knum, 0, tr.i0, tr.i1, tr.i2, tr.i3⟩

/-- WHAT A FAILED WRITE LEAVES: no byte of memory and no frame differs, the latch of its thread has counted it, its act is gone, and
its record is raised where the queue takes it. -/
structure State.failsTo (s n : State) (a : Act) (e : Entry) (t : Thread) (tr : Trap) : Prop where
  memory : s.sameMemory n
  frames : n.frames = s.frames
  thread : ∃ ord, n.thread? a.cl a.slot = some (t.latches tr ord)
  gone : ∀ x ∈ n.acts, x.id = a.id → s.seq ≤ a.id
  recorded : (∀ g, s.region? (s.fqOwner e.rgn) = some g → g.full = false ∧ g.failing = false) → s.recorded n (s.writeRecord a e tr)

theorem State.recordsAlike.region?_fqOwner {s s' : State} (ha : s.recordsAlike s') (rgn : Nat) :
    s'.region? (s'.fqOwner rgn) = s.region? (s.fqOwner rgn) := by
  simp only [State.fqOwner, State.region?, ha.regions]

theorem State.recordsAlike.writeRecord {s s' : State} (ha : s.recordsAlike s') (a : Act) (e : Entry) (tr : Trap) :
    s'.writeRecord a e tr = s.writeRecord a e tr := by
  simp only [State.writeRecord, State.pstate, State.pair, State.pairOf, State.physOf, ha.pairs, ha.clmap]

/-- The latch of an act's thread counts a failure (12 R260). -/
def State.latchFailed (s : State) (a : Act) (tr : Trap) : State := (s.modThread a.cl a.slot (Thread.latches tr s.seq)).bump

section Failure
variable {s : State} {a : Act} {e : Entry} {t : Thread} {tr : Trap}

theorem State.writeFailed_eq (hcls : e.cls = 0) (hslot : a.slot < 512) :
    s.writeFailed a e tr = (s.raise (s.writeRecord a e tr)).latchFailed a tr := by
  unfold State.writeFailed State.report
  simp only [hcls, if_true, Nat.mod_eq_of_lt hslot]
  rfl

theorem State.latchFailed_dies (s : State) (a : Act) (tr : Trap) : (s.latchFailed a tr).dies = s.dies := rfl

theorem State.writeFailed_dies (hcls : e.cls = 0) (hslot : a.slot < 512) : (s.writeFailed a e tr).dies = s.dies := by
  rw [State.writeFailed_eq hcls hslot, State.latchFailed_dies]
  exact (s.raise_keeps _).2.2.2.2.2.2.2.2.2

/-- The latch counts where all else of a failure has been done. -/
theorem State.failsTo_latchFailed {x : State} (hmem : s.sameMemory x) (hframes : x.frames = s.frames) (ht : x.thread? a.cl a.slot = some t)
    (hgone : ∀ y ∈ x.acts, y.id = a.id → s.seq ≤ a.id)
    (hrec : (∀ g, s.region? (s.fqOwner e.rgn) = some g → g.full = false ∧ g.failing = false) → s.recorded x (s.writeRecord a e tr)) :
    s.failsTo (x.latchFailed a tr) a e t tr := by
  refine ⟨hmem.trans (State.sameMemory_of_eq rfl rfl rfl rfl rfl), hframes, ⟨x.seq, ?_⟩, hgone, hrec⟩
  exact (State.thread?_modThread x a.cl a.slot (Thread.latches tr x.seq) (fun _ => ⟨rfl, rfl⟩)).trans (congrArg _ ht)

theorem State.dropAct_gone (s : State) (id : Nat) : ∀ x ∈ (s.dropAct id).acts, x.id ≠ id := by
  intro x hx
  simpa using (List.mem_filter.mp hx).2

/-- A write fails, whatever the counters of the dies say of it. -/
theorem State.failsTo_writeFailed (hcls : e.cls = 0) (hslot : a.slot < 512) (ht : s.thread? a.cl a.slot = some t) (dies : List (Nat × Die)) :
    s.failsTo ((({ s with dies := dies } : State).dropAct a.id).writeFailed a e tr) a e t tr := by
  rw [State.writeFailed_eq hcls hslot]
  have hgone := ({ s with dies := dies } : State).dropAct_gone a.id
  have halike : s.recordsAlike (({ s with dies := dies } : State).dropAct a.id) := ⟨rfl, rfl, rfl, rfl⟩
  have hmem : s.sameMemory (({ s with dies := dies } : State).dropAct a.id) := State.sameMemory_of_eq rfl rfl rfl rfl rfl
  have hframes : (({ s with dies := dies } : State).dropAct a.id).frames = s.frames := rfl
  have hthreads : (({ s with dies := dies } : State).dropAct a.id).threads = s.threads := rfl
  have hseq : (({ s with dies := dies } : State).dropAct a.id).seq = s.seq := rfl
  generalize ({ s with dies := dies } : State).dropAct a.id = s' at hgone halike hmem hframes hthreads hseq ⊢
  rw [halike.writeRecord]
  generalize hr : s.writeRecord a e tr = r
  obtain ⟨-, hfr, hhbm, hhost, hlines, hkeys, -⟩ := s'.raise_keeps r
  refine State.failsTo_latchFailed (hmem.trans (State.sameMemory_of_eq hfr hhbm hlines hkeys hhost)) (hfr.trans hframes) ?_
    (fun x hx hid => ?_) fun hroom => ?_
  · rw [State.raise_thread?, State.thread?_of_threads hthreads, ht]
  · rcases State.raise_acts hx with hx | hx
    · exact absurd hid (hgone x hx)
    · omega
  · subst hr
    exact halike.recorded (s'.recorded_raise_of_room _ fun g hg => hroom g ((halike.region?_fqOwner e.rgn).symm.trans hg))

end Failure

end Sys2Proof.Machine
end

section
namespace Sys2Proof.Machine

/-! ### The events at the end of a departed data write (05 R101; 04 R99, R100; 22 R403) -/

section Departed
variable {s : State} {id : Nat} {a : Act} {e : Entry} {t : Thread} {bs : List (Nat × Byte)}

/-- What a landed write leaves of the thread that waited for it. -/
theorem State.landed_eq (ha : s.act? id = some a) (ht : s.thread? a.cl a.slot = some t) (hlate : t.late = []) :
    s.landed a e bs = if t.wait = .release [id] then ((s.writeLine e.rgn e.knum e.line bs).dropAct id).modThread a.cl a.slot Thread.goesOn
      else (s.writeLine e.rgn e.knum e.line bs).dropAct id := by
  have ht' : ((s.writeLine e.rgn e.knum e.line bs).dropAct a.id).thread? a.cl a.slot = some t :=
    (State.thread?_of_threads (State.writeLine_threads ..) ..).trans ht
  rw [State.landed, State.endRelease_of_late_nil ht' hlate, State.act?_id ha]

variable (ha : s.act? id = some a) (hm : s.mayPerform a = some e) (hack : e.ack = none) (hnote : e.note = none) (hkind : e.kind = .data bs)
include ha hm hack hnote hkind

theorem execWritePerform_data (hl : ∀ h, e.line ≠ .host h) : execWritePerform id false s = .next (s.landed a e bs) := by
  have hbad : s.atomicBad e = none := by
    unfold State.atomicBad
    rw [hkind]
  unfold execWritePerform
  simp only [ha, hm, hbad, State.performWrite_data hack hnote hkind, Option.isSome_none, Bool.false_eq_true, if_false]

theorem execApertureCompletion_data {h : Nat} (hl : e.line = .host h) : execApertureCompletion id 0 s = .next (s.landed a e bs) := by
  unfold execApertureCompletion
  simp only [ha, hm, hl, State.mayPerform_job hm, State.performWrite_data hack hnote hkind, if_true]

variable (hcls : e.cls = 0) (hthere : s.absent a = false)
include hcls hthere

/-- A mismatch toward HBM is counted, and the write fails (04 R99, R100). -/
theorem execWritePerform_mismatch {loc key : Nat} {w : Walked} (hl : e.line = .global loc key w) :
    execWritePerform id true s = .next (((s.countCrc (placeDie a.cl e.line)).dropAct a.id).writeFailed a e
      ⟨457, BitVec.ofNat 64 e.line.lineAddr, e.i1, e.words, 1⟩) := by
  have hwait : s.waitsForThread a e = false := by simp [State.waitsForThread, hthere]
  have hmis : s.writeMismatch a e = ((s.countCrc (placeDie a.cl e.line)).dropAct a.id).writeFailed a e
      ⟨457, BitVec.ofNat 64 e.line.lineAddr, e.i1, e.words, 1⟩ := by
    unfold State.writeMismatch
    simp only [hack, hkind, hnote, hcls, hl, entrySource, Option.isSome_none, Bool.false_eq_true, if_false, if_true]
    rfl
  unfold execWritePerform
  simp only [ha, hm, hwait, hmis, Bool.false_eq_true, if_false, if_true]
  simp only [hl]

omit hack hnote hkind in
/-- An aperture write that completes with an error fails (12 R260, 22 R403). -/
theorem execApertureCompletion_error {h : Nat} {st : BitVec 16} (hl : e.line = .host h) (hst : st ≠ 0) :
    execApertureCompletion id st s = .next ((s.dropAct id).writeFailed a e
      ⟨143, e.ea, e.i1, e.words, BitVec.ofNat 64 (2 ^ 63 + st.toNat)⟩) := by
  have hwait : s.waitsForThread a e = false := by simp [State.waitsForThread, hthere]
  unfold execApertureCompletion
  simp only [ha, hm, hl, State.mayPerform_job hm, hst, hwait, hcls, Bool.false_eq_true, if_false]
  rfl

end Departed

end Sys2Proof.Machine
end

section
namespace Sys2Proof.Machine

/-! ### A line's bytes, memory by memory -/

section LineBytes
variable {s : State} {rgn knum : Nat} {bs : List (Nat × Byte)}

theorem State.readByte_writeLine_global {loc key : Nat} {w : Walked} (h : s.holdsPlace rgn knum (.global loc key w))
    (hn : (bs.map (fun x => x.1)).Nodup) {x : Nat × Byte} (hx : x ∈ bs) (r k : Nat) (v : Walked) :
    (s.writeLine rgn knum (.global loc key w) bs).readByte r k (.global (loc + x.1) key v) = x.2 :=
  State.writeLine_reads (P := fun t => t.holdsPlace rgn knum (.global loc key w)) (rd := fun t j => t.readByte r k (.global (loc + j) key v))
    (fun _ ht _ b => State.holdsPlace_writeByte rgn knum _ b ht)
    (fun _ ht o _ _ => (State.readByte_writeByte_global (loc := loc + o) ht r k).trans (by simp only [Nat.add_left_cancel_iff])) hn s h x hx

theorem State.readByte_writeLine_global_other {loc key l : Nat} {w v : Walked} (h : s.holdsPlace rgn knum (.global loc key w))
    (hl : ∀ x ∈ bs, l ≠ loc + x.1) (r k : Nat) :
    (s.writeLine rgn knum (.global loc key w) bs).readByte r k (.global l key v) = s.readByte r k (.global l key v) :=
  State.writeLine_keeps (P := fun t => t.holdsPlace rgn knum (.global loc key w)) (rd := fun t => t.readByte r k (.global l key v))
    (fun _ ht x _ => State.holdsPlace_writeByte rgn knum _ x.2 ht)
    (fun _ ht x hx => (State.readByte_writeByte_global (loc := loc + x.1) ht r k).trans (if_neg (hl x hx))) s h

/-- A written line leaves every other line of HBM under every key. -/
theorem State.readByte_writeLine_global_other_line {loc key l n : Nat} {w v : Walked} (h : s.memsOk = true) (ha : loc % 64 = 0)
    (hb : ∀ x ∈ bs, x.1 < 64) (hl : l / 64 ≠ loc / 64) (r k : Nat) :
    (s.writeLine rgn knum (.global loc key w) bs).readByte r k (.global l n v) = s.readByte r k (.global l n v) :=
  State.writeLine_keeps (line := .global loc key w) (P := fun t => t.memsOk = true) (rd := fun t => t.readByte r k (.global l n v))
    (fun t ht x _ => t.memsOk_writeByte rgn knum _ x.2 ht)
    (fun _ ht x hx => State.hbmByte_hbmPut_other_line (State.memsOk_spec ht).1 x.2
      (show l / 64 ≠ (loc + x.1) / 64 by have := hb x hx; omega)) s h

theorem State.writeByte_empty_key {key : Nat} (h : s.keyOf key = none) (loc : Nat) (w : Walked) (b : Byte) :
    s.writeByte rgn knum (.global loc key w) b = s := by
  simp only [State.writeByte, State.hbmPut, h]

/-- A write whose key slot was emptied after its translation writes nothing (log 10). -/
theorem State.writeLine_empty_key {key : Nat} (h : s.keyOf key = none) (loc : Nat) (w : Walked) :
    s.writeLine rgn knum (.global loc key w) bs = s := by
  induction bs with
  | nil => rfl
  | cons x r ih => exact (congrArg (fun t => t.writeLine rgn knum (.global loc key w) r) (State.writeByte_empty_key h ..)).trans ih

theorem State.readByte_writeLine_host {a : Nat} (h : s.memsOk = true) (hn : (bs.map (fun x => x.1)).Nodup) {x : Nat × Byte} (hx : x ∈ bs)
    (r k : Nat) : (s.writeLine rgn knum (.host a) bs).readByte r k (.host (a + x.1)) = x.2 :=
  State.writeLine_reads (P := fun t => t.memsOk = true) (rd := fun t j => t.readByte r k (.host (a + j)))
    (fun t ht _ b => t.memsOk_writeByte rgn knum _ b ht)
    (fun _ ht _ _ _ => (State.readByte_writeByte_host ht r k).trans (by simp only [Nat.add_left_cancel_iff])) hn s h x hx

theorem State.readByte_writeLine_host_other {a j : Nat} (h : s.memsOk = true) (hj : ∀ x ∈ bs, j ≠ a + x.1) (r k : Nat) :
    (s.writeLine rgn knum (.host a) bs).readByte r k (.host j) = s.readByte r k (.host j) :=
  State.writeLine_keeps (P := fun t => t.memsOk = true) (rd := fun t => t.readByte r k (.host j))
    (fun t ht x _ => t.memsOk_writeByte rgn knum _ x.2 ht)
    (fun _ ht x hx => (State.readByte_writeByte_host ht r k).trans (if_neg (hj x hx))) s h

theorem State.readByte_writeLine_scratch {c o : Nat} {q : Bool} (h : s.holdsPlace rgn knum (.scratch c o q))
    (hn : (bs.map (fun x => x.1)).Nodup) {x : Nat × Byte} (hx : x ∈ bs) (v : Bool) :
    (s.writeLine rgn knum (.scratch c o q) bs).readByte rgn knum (.scratch c (o + x.1) v) = x.2 :=
  State.writeLine_reads (line := .scratch c o q) (P := fun t => t.holdsPlace rgn knum (.scratch c o q)) (rd := fun t j => t.readByte rgn knum (.scratch c (o + j) v))
    (fun _ ht _ b => State.holdsPlace_writeByte rgn knum _ b ht)
    (fun _ ht y _ _ => (State.readByte_writeByte_scratch (q := q) (o := o + y) ht).trans (by simp only [Nat.add_left_cancel_iff])) hn s h x hx

theorem State.readByte_writeLine_scratch_other {c o j : Nat} {q v : Bool} (h : s.holdsPlace rgn knum (.scratch c o q))
    (hj : ∀ x ∈ bs, j ≠ o + x.1) :
    (s.writeLine rgn knum (.scratch c o q) bs).readByte rgn knum (.scratch c j v) = s.readByte rgn knum (.scratch c j v) :=
  State.writeLine_keeps (line := .scratch c o q) (P := fun t => t.holdsPlace rgn knum (.scratch c o q)) (rd := fun t => t.readByte rgn knum (.scratch c j v))
    (fun _ ht x _ => State.holdsPlace_writeByte rgn knum _ x.2 ht)
    (fun _ ht x hx => (State.readByte_writeByte_scratch (q := q) (o := o + x.1) ht).trans (if_neg (hj x hx))) s h

/-- A line written to one scratchpad window leaves the window of every other frame. -/
theorem State.readByte_writeLine_other_frame {c o r n k j : Nat} {q v : Bool} (h : ¬ (r = rgn ∧ n = knum ∧ k = c)) :
    (s.writeLine rgn knum (.scratch c o q) bs).readByte r n (.scratch k j v) = s.readByte r n (.scratch k j v) :=
  State.writeLine_keeps (P := fun _ => True) (rd := fun t => t.readByte r n (.scratch k j v)) (fun _ _ _ _ => trivial)
    (fun _ _ x _ => State.readByte_writeByte_other_frame x.2 h) s trivial

end LineBytes

/-! ### Departed writes: they land, or fail -/

/-- What a failed write leaves of its thread: its latch holds a failure, the first with its own words, and nothing else differs. -/
theorem Thread.latches_spec (t : Thread) {tr : Trap} (ord : Nat) (hc : tr.cause < 512) :
    (t.latches tr ord).errMem.n ≠ 0 ∧
      (t.errMem.n = 0 → (t.latches tr ord).errMem.n = 1 ∧ (t.latches tr ord).errMem.cause.toNat = tr.cause ∧ (t.latches tr ord).errMem.i0 = tr.i0) ∧
      (∀ r, (t.latches tr ord).getG r = t.getG r) ∧ (t.latches tr ord).wait = t.wait := by
  refine ⟨t.errMem.count_n_ne_zero tr.cause tr.i0 tr.i1 tr.i3 ord, fun hn => ?_, fun _ => rfl, rfl⟩
  unfold Thread.latches
  simp only [ErrHalf.count_of_empty _ _ _ _ _ hn]
  exact ⟨trivial, (BitVec.toNat_ofNat ..).trans (Nat.mod_eq_of_lt hc), trivial⟩

/-- Settles O42: a write that lands changes memory byte by byte under the key that it names, and one that fails changes none; a line
that is written under another key first holds what it reads as under that key, all 64 bytes of it. -/
theorem departedWritesPerform : Obligations.DepartedWritesPerform := by
  unfold Obligations.DepartedWritesPerform
  refine ⟨fun s id a e t bs ha hm hack hcls hnote hkind ht hlate hslot => ?_, fun s id a e t bs hok ha hm hack hcls hnote hkind ht hlate hslot hb hn => ?_⟩
  · obtain rfl := State.act?_id ha
    intro s1 done lost
    have hdone : s.landed a e bs = done := State.landed_eq ha ht hlate
    have fails {o : Host.Outcome State Fault Refusal} {tr : Trap} (dies : List (Nat × Die))
        (hx : o = .next ((({ s with dies := dies } : State).dropAct a.id).writeFailed a e tr)) (hc : tr.cause < 512) (hi1 : tr.i1 = e.i1)
        (hi2 : tr.i2 = e.words) : lost tr.cause tr.i0 tr.i3 o := by
      obtain ⟨hmem, hframes, ⟨ord, hthread⟩, hgone, hrec⟩ := State.failsTo_writeFailed (tr := tr) hcls hslot ht dies
      obtain ⟨hlatch, hfirst, hregs, hwait⟩ := t.latches_spec ord hc
      rw [State.writeRecord, hi1, hi2] at hrec
      exact ⟨_, _, hx, hmem, hframes, hthread, hlatch, hfirst, hregs, hwait, hgone, hrec⟩
    refine ⟨fun hl => ?_, fun h hl => ?_, fun hthere => ⟨fun loc k w hl => ?_, fun h st hl hst => ?_⟩⟩
    · exact (execWritePerform_data ha hm hack hnote hkind hl).trans (congrArg _ hdone)
    · exact (execApertureCompletion_data ha hm hack hnote hkind hl).trans (congrArg _ hdone)
    · have hx := execWritePerform_mismatch ha hm hack hnote hkind hcls hthere hl
      have hcause : 457 < 512 := by decide
      refine ⟨fails (s.countCrc (placeDie a.cl e.line)).dies hx hcause rfl rfl, _, hx, ?_⟩
      rw [State.die, State.writeFailed_dies hcls hslot]
      exact congrArg Die.crc (s.die_modDie (placeDie a.cl e.line) (fun x => { x with crc := satInc x.crc }))
    · have hcause : 143 < 512 := by decide
      exact fails s.dies (execApertureCompletion_error ha hm hcls hthere hl hst) hcause rfl rfl
  · intro same
    have read (r k : Nat) (p : Place) : (s.landed a e bs).readByte r k p = (s.writeLine e.rgn e.knum e.line bs).readByte r k p :=
      s.sameMemory_landed a e bs r k p
    have other (p : Place) (h : p.kind ≠ e.line.kind) : same (s.landed a e bs) p := fun r k =>
      (read r k p).trans (s.readByte_writeLine_other_memory e.rgn e.knum e.line p bs r k h)
    have hwrite := execWritePerform_data ha hm hack hnote hkind
    refine ⟨fun loc key w kv hl ha64 hkey => ?_, fun loc key w hl hkey => ?_, fun h hl => ?_, fun c o q f hl hf => ?_⟩
    · simp only [hl] at read other hwrite
      have hp : s.holdsPlace e.rgn e.knum (.global loc key w) := ⟨hok, by rw [hkey]; rfl⟩
      refine ⟨_, hwrite (fun _ => Place.noConfusion), fun x hx r k v => ?_, fun l v hne r k => ?_, fun l n v hne r k => ?_, fun h => ?_, fun c o q => ?_⟩
      · exact (read ..).trans (State.readByte_writeLine_global hp hn hx r k v)
      · exact (read ..).trans (State.readByte_writeLine_global_other hp hne r k)
      · exact (read ..).trans (State.readByte_writeLine_global_other_line hok ha64 hb hne r k)
      · exact other (.host h) (by simp [Place.kind])
      · exact other (.scratch c o q) (by simp [Place.kind])
    · simp only [hl] at read hwrite
      exact ⟨_, hwrite (fun _ => Place.noConfusion), fun r k p => (read r k p).trans (by rw [State.writeLine_empty_key hkey])⟩
    · simp only [hl] at read other
      refine ⟨_, execApertureCompletion_data ha hm hack hnote hkind hl, fun x hx r k => ?_, fun j hne r k => ?_, fun l k v => ?_, fun c o q => ?_⟩
      · exact (read ..).trans (State.readByte_writeLine_host hok hn hx r k)
      · exact (read ..).trans (State.readByte_writeLine_host_other hok hne r k)
      · exact other (.global l k v) (by simp [Place.kind])
      · exact other (.scratch c o q) (by simp [Place.kind])
    · simp only [hl] at read other hwrite
      have hp : s.holdsPlace e.rgn e.knum (.scratch c o q) := ⟨hok, by rw [hf]; rfl⟩
      refine ⟨_, hwrite (fun _ => Place.noConfusion), fun x hx v => ?_, fun k v hne => ?_, fun r n k j v hne => ?_, fun h => ?_, fun l k v => ?_⟩
      · exact (read ..).trans (State.readByte_writeLine_scratch hp hn hx v)
      · exact (read ..).trans (State.readByte_writeLine_scratch_other hp hne)
      · exact (read ..).trans (State.readByte_writeLine_other_frame hne)
      · exact other (.host h) (by simp [Place.kind])
      · exact other (.global l k v) (by simp [Place.kind])

end Sys2Proof.Machine
end

section
namespace Sys2Proof.Machine

/-! ### Bytes in order, gathered by lines (13 R289; 14 R316) -/

theorem Place.isLocal_iff {p : Place} : p.isLocal = true ↔ ∃ c o, p = .scratch c o false := by
  constructor
  · intro h
    unfold Place.isLocal at h
    split at h
    · exact ⟨_, _, rfl⟩
    · cases h
  · rintro ⟨c, o, rfl⟩
    rfl

/-- A line of an own window, by its first byte. -/
def Place.localLine (p : Place) : Prop := p.isLocal = true ∧ p.off = 0

theorem Place.localLine_line {p : Place} (h : p.isLocal = true) : p.line.1.localLine := by
  obtain ⟨c, o, rfl⟩ := Place.isLocal_iff.1 h
  exact ⟨rfl, Nat.mul_mod_left ..⟩

theorem Place.line_plus_off {p : Place} (h : p.isLocal = true) : p.line.1.plus p.off = p := by
  obtain ⟨c, o, rfl⟩ := Place.isLocal_iff.1 h
  exact congrArg (Place.scratch c · false) (Nat.div_add_mod' o 64)

/-- A place of the same line is reached from the line by the place's own offset. -/
theorem Place.plus_off_of_sameLine {l p : Place} (hl : l.localLine) (h : l.sameLine p = true) : l.plus p.off = p := by
  obtain ⟨hloc, hoff⟩ := hl
  obtain ⟨c, o, rfl⟩ := Place.isLocal_iff.1 hloc
  cases p with
  | scratch d n q =>
    simp only [Place.sameLine, Bool.and_eq_true, beq_iff_eq] at h
    obtain ⟨⟨rfl, hline⟩, rfl⟩ := h
    simp only [Place.off, Place.line, Place.plus] at hoff ⊢
    congr 1
    omega
  | _ => cases h

/-- Byte b for place p stands in one of the lines. -/
def lineByte (g : List (Place × List (Nat × Byte))) (p : Place) (b : Byte) : Prop :=
  ∃ x ∈ g, ∃ o, (o, b) ∈ x.2 ∧ x.1.plus o = p

theorem lineByte_head {l : Place} {bs : List (Nat × Byte)} {o : Nat} {b : Byte} (acc : List (Place × List (Nat × Byte)))
    (h : (o, b) ∈ bs) : lineByte ((l, bs) :: acc) (l.plus o) b := ⟨_, List.mem_cons_self, o, h, rfl⟩

theorem lineByte.cons {acc : List (Place × List (Nat × Byte))} {p : Place} {b : Byte} (x : Place × List (Nat × Byte))
    (h : lineByte acc p b) : lineByte (x :: acc) p b := by
  obtain ⟨y, hy, hb⟩ := h
  exact ⟨y, List.mem_cons_of_mem x hy, hb⟩

/-- A byte that joins a line displaces none of another place. -/
theorem lineByte.merge {l p q : Place} {bs : List (Nat × Byte)} {acc : List (Place × List (Nat × Byte))} {b : Byte} (c : Byte)
    (hl : l.plus p.off = p) (hne : q ≠ p) (h : lineByte ((l, bs) :: acc) q b) :
    lineByte ((l, mergeBytes bs [(p.off, c)]) :: acc) q b := by
  obtain ⟨y, hy, o, ho, rfl⟩ := h
  rcases List.mem_cons.1 hy with rfl | hy
  · have hoff : p.off ≠ o := fun he => hne (by rw [← he, hl])
    exact lineByte_head acc (List.mem_append_left _ (List.mem_filter.2 ⟨ho, by simpa using hoff⟩))
  · exact lineByte.cons _ ⟨y, hy, o, ho, rfl⟩

/-- What gathering starts from: the places are of an own window, and so are the lines so far. -/
theorem groupLines_localLine {ps : List (Place × Byte)} : ∀ {acc : List (Place × List (Nat × Byte))}, (∀ x ∈ ps, x.1.isLocal = true) →
    (∀ x ∈ acc, x.1.localLine) → ∀ x ∈ groupLines ps acc, x.1.localLine := by
  induction ps with
  | nil => exact fun _ hacc x hx => hacc x (List.mem_reverse.1 hx)
  | cons y r ih =>
    intro acc hps hacc
    obtain ⟨hy, hr⟩ := List.forall_mem_cons.1 hps
    have hnew := Place.localLine_line hy
    match acc with
    | [] => exact ih hr (List.forall_mem_cons.2 ⟨hnew, hacc⟩)
    | (l, bs) :: acc =>
      unfold groupLines
      split
      · exact ih hr (List.forall_mem_cons.2 (List.forall_mem_cons.1 hacc))
      · exact ih hr (List.forall_mem_cons.2 ⟨hnew, hacc⟩)

/-- Gathering bytes of distinct places of an own window loses none: those of the lines so far and those still to come stand in the lines. -/
theorem lineByte_groupLines {ps : List (Place × Byte)} : ∀ {acc : List (Place × List (Nat × Byte))}, (∀ x ∈ ps, x.1.isLocal = true) →
    (∀ x ∈ acc, x.1.localLine) → (ps.map (fun x => x.1)).Nodup → ∀ p b,
    (p, b) ∈ ps ∨ (p ∉ ps.map (fun x => x.1) ∧ lineByte acc p b) → lineByte (groupLines ps acc) p b := by
  induction ps with
  | nil =>
    rintro acc - - - p b (h | ⟨-, x, hx, hb⟩)
    · cases h
    · exact ⟨x, List.mem_reverse.2 hx, hb⟩
  | cons y r ih =>
    obtain ⟨q, c⟩ := y
    intro acc hps hacc hnd p b h
    obtain ⟨hq, hr⟩ := List.forall_mem_cons.1 hps
    obtain ⟨hfresh, hnd⟩ := List.nodup_cons.1 hnd
    have hnew := Place.localLine_line hq
    -- any next accumulator that holds the head's byte and keeps those of other places will do
    have goOn {acc' : List (Place × List (Nat × Byte))} (hacc' : ∀ x ∈ acc', x.1.localLine) (hhead : lineByte acc' q c)
        (hkeep : p ≠ q → lineByte acc p b → lineByte acc' p b) : lineByte (groupLines r acc') p b := by
      refine ih hr hacc' hnd p b ?_
      rcases h with h | ⟨hnot, h⟩
      · rcases List.mem_cons.1 h with he | h
        · cases he
          exact .inr ⟨hfresh, hhead⟩
        · exact .inl h
      · obtain ⟨hne, hnot⟩ := not_or.1 (mt List.mem_cons.2 hnot)
        exact .inr ⟨hnot, hkeep hne h⟩
    have opened : lineByte (groupLines r ((q.line.1, [(q.off, c)]) :: acc)) p b :=
      goOn (List.forall_mem_cons.2 ⟨hnew, hacc⟩)
        (by simpa only [Place.line_plus_off hq] using lineByte_head (l := q.line.1) acc (List.mem_singleton.2 (Eq.refl (q.off, c))))
        fun _ => lineByte.cons _
    match acc with
    | [] => exact opened
    | (l, bs) :: acc =>
      obtain ⟨hl, hacc⟩ := List.forall_mem_cons.1 hacc
      unfold groupLines
      split
      · next hsame =>
        have hplus := Place.plus_off_of_sameLine hl hsame
        refine goOn (List.forall_mem_cons.2 ⟨hl, hacc⟩) ?_ fun hne hb => hb.merge c hplus hne
        have hmem : (q.off, c) ∈ mergeBytes bs [(q.off, c)] := List.mem_append_right _ (List.mem_singleton.2 rfl)
        simpa only [hplus] using lineByte_head (l := l) acc hmem
      · exact opened

theorem map_fst_offBytes (bs : List Byte) : ∀ off, (offBytes off bs).map (fun x => x.1) = List.range' off bs.length := by
  induction bs with
  | nil => exact fun _ => rfl
  | cons b r ih => exact fun off => congrArg (off :: ·) (ih (off + 1))

theorem mem_offBytes {bs : List Byte} : ∀ {off i : Nat} {v : Byte}, bs[i]? = some v → (off + i, v) ∈ offBytes off bs := by
  induction bs with
  | nil => exact fun h => nomatch h
  | cons b r ih =>
    intro off i v h
    cases i with
    | zero =>
      cases h
      exact List.mem_cons_self
    | succ i =>
      have hrest : (off + 1 + i, v) ∈ offBytes (off + 1) r := ih h
      rw [Nat.add_assoc, Nat.add_comm 1 i] at hrest
      exact List.mem_cons_of_mem _ hrest

/-- Bytes from an offset of an own window up, gathered by lines. -/
def windowLines (cl off : Nat) (bs : List Byte) : List (Place × List (Nat × Byte)) :=
  groupLines ((offBytes off bs).map (fun x => (.scratch cl x.1 false, x.2))) []

theorem windowLines_places_local (cl off : Nat) (bs : List Byte) :
    ∀ x ∈ (offBytes off bs).map (fun x => (Place.scratch cl x.1 false, x.2)), x.1.isLocal = true := by
  intro x hx
  obtain ⟨y, -, rfl⟩ := List.mem_map.1 hx
  rfl

theorem windowLines_isLocal (cl off : Nat) (bs : List Byte) : ∀ x ∈ windowLines cl off bs, x.1.isLocal = true := fun x hx =>
  (groupLines_localLine (windowLines_places_local cl off bs) (List.forall_mem_nil _) x hx).1

/-- Every byte of the window stands in the lines at its own place. -/
theorem lineByte_windowLines (cl off : Nat) {bs : List Byte} {i : Nat} {v : Byte} (h : bs[i]? = some v) :
    lineByte (windowLines cl off bs) (.scratch cl (off + i) false) v := by
  have hnodup : (((offBytes off bs).map (fun x => (Place.scratch cl x.1 false, x.2))).map (fun x => x.1)).Nodup := by
    have hmap : ((offBytes off bs).map (fun x => (Place.scratch cl x.1 false, x.2))).map (fun x => x.1) =
        ((offBytes off bs).map (fun x => x.1)).map (Place.scratch cl · false) := by
      rw [List.map_map, List.map_map]
      rfl
    rw [hmap, map_fst_offBytes]
    exact List.Pairwise.map _ (fun _ _ hne he => hne (Place.scratch.inj he).2.1) List.nodup_range'
  exact lineByte_groupLines (windowLines_places_local cl off bs) (List.forall_mem_nil _) hnodup _ _
    (.inl (List.mem_map.2 ⟨_, mem_offBytes h, rfl⟩))

/-! ### Lines sent to an own window (05 R114, R115) -/

/-- A write of these numbers, on its way, holds this line with these bytes. -/
def State.lineSent (s : State) (ids : List Nat) (x : Place × List (Nat × Byte)) : Prop :=
  ∃ a ∈ s.acts, a.id ∈ ids ∧ ∃ e, a.job = .flight e ∧ e.kind = .data x.2 ∧ e.line = x.1

theorem State.lineSent.onItsWay {s t : State} {ids : List Nat} {g : List (Place × List (Nat × Byte))} {p : Place} {b : Byte}
    (hs : ∀ x ∈ g, s.lineSent ids x) (hacts : ∀ a ∈ s.acts, a ∈ t.acts) (hb : lineByte g p b) : t.onItsWay ids p b := by
  obtain ⟨x, hx, o, ho, hp⟩ := hb
  obtain ⟨a, ha, hid, e, hjob, hkind, hline⟩ := hs x hx
  exact ⟨a, hacts a ha, hid, e, o, x.2, hjob, hkind, ho, hline ▸ hp⟩

section Sending
variable {cl slot rgn knum : Nat} {ea i1 words : Word}

/-- A line of an own window goes to its bank, under the next number. -/
theorem State.sendLines_cons_local (s : State) {l : Place} (bs : List (Nat × Byte)) (r : List (Place × List (Nat × Byte))) (ids : List Nat)
    (h : l.isLocal = true) :
    s.sendLines cl slot rgn knum ea i1 words ((l, bs) :: r) ids =
      (s.addAct 1 cl slot (s.meeting ids l (maskOf bs)) (.flight (engineEntry l bs ea i1 words rgn knum))).sendLines
        cl slot rgn knum ea i1 words r (ids ++ [s.seq]) := by
  obtain ⟨c, o, rfl⟩ := Place.isLocal_iff.1 h
  rfl

/-- WHAT SENDING LINES OF AN OWN WINDOW LEAVES: frames and threads as they were, the work and the numbers so far, and every line on its way. -/
theorem State.sendLines_local {r : List (Place × List (Nat × Byte))} (h : ∀ x ∈ r, x.1.isLocal = true) (s : State) (ids : List Nat) :
    let n := s.sendLines cl slot rgn knum ea i1 words r ids
    n.1.frames = s.frames ∧ n.1.threads = s.threads ∧ (∀ x, s.lineSent ids x → n.1.lineSent n.2 x) ∧ ∀ x ∈ r, n.1.lineSent n.2 x := by
  induction r generalizing s ids with
  | nil => exact ⟨rfl, rfl, fun _ => id, List.forall_mem_nil _⟩
  | cons y r ih =>
    obtain ⟨l, bs⟩ := y
    obtain ⟨hl, hr⟩ := List.forall_mem_cons.1 h
    rw [State.sendLines_cons_local s bs r ids hl]
    obtain ⟨hframes, hthreads, hkeep, hsent⟩ := ih hr
      (s.addAct 1 cl slot (s.meeting ids l (maskOf bs)) (.flight (engineEntry l bs ea i1 words rgn knum))) (ids ++ [s.seq])
    refine ⟨hframes, hthreads, fun x hx => hkeep x ?_, List.forall_mem_cons.2 ⟨hkeep _ ?_, hsent⟩⟩
    · obtain ⟨a, ha, hid, hx⟩ := hx
      exact ⟨a, List.mem_append_left _ ha, List.mem_append_left _ hid, hx⟩
    · exact ⟨_, List.mem_append_right _ (List.mem_singleton.2 rfl), List.mem_append_right _ (List.mem_singleton.2 rfl), _, rfl, rfl, rfl⟩

end Sending

end Sys2Proof.Machine
end

section
namespace Sys2Proof.Machine

/-! ### The batcher of a cluster's frame (08 R166) -/

/-- An element that is the first of two kinds is the first of any kind that lies between it and both. -/
theorem find?_eq_some_of_first {α : Type} {p q r : α → Bool} {a : α} {l : List α} (hp : l.find? p = some a) (hq : l.find? q = some a)
    (ha : r a = true) (hr : ∀ x, r x = true → p x = true ∨ q x = true) : l.find? r = some a := by
  induction l with
  | nil => cases hp
  | cons x t ih =>
    by_cases hx : x = a
    · simp [hx, ha]
    · have hpx : p x = false := by grind
      have hqx : q x = false := by grind
      have hrx : r x = false := by grind
      simp only [List.find?_cons, hpx, hqx, hrx] at hp hq ⊢
      exact ih hp hq

theorem State.cbFrame_spec {s : State} {cl : Nat} {f : Frame} {b : Batcher} (h : s.cbFrame cl = some (f, b)) :
    s.frames.find? (fun x => x.cl == cl && x.cb.isSome && !x.suspended) = some f ∧ f.cl = cl ∧ f.cb = some b ∧ f.suspended = false := by
  unfold State.cbFrame at h
  split at h
  · next g hg =>
    split at h
    · next hb =>
      cases h
      have hkey := List.find?_some hg
      simp only [Bool.and_eq_true, beq_iff_eq, Bool.not_eq_true'] at hkey
      exact ⟨hg, hkey.1.1, hb, hkey.2⟩
    · cases h
  · cases h

section Owner
variable {s : State} {cl : Nat} {f : Frame} {b : Batcher} (hc : s.cbFrame cl = some (f, b)) (hf : s.frame? cl f.rgn f.knum = some f)
include hc hf

/-- The frame that owns the batcher still owns it after an update that leaves it bound and resident. -/
theorem State.cbFrame_modFrame {h : Frame → Frame} {d : Batcher} (hk : ∀ x, (h x).cl = x.cl ∧ (h x).rgn = x.rgn ∧ (h x).knum = x.knum)
    (hs : (h f).suspended = f.suspended) (hd : (h f).cb = some d) : (s.modFrame cl f.rgn f.knum h).cbFrame cl = some (h f, d) := by
  obtain ⟨hfind, hcl, hcb, hres⟩ := State.cbFrame_spec hc
  have hfirst : (s.modFrame cl f.rgn f.knum h).frames.find? (fun x => x.cl == cl && x.cb.isSome && !x.suspended) = some (h f) := by
    unfold State.modFrame
    rw [List.find?_map, find?_eq_some_of_first hfind hf]
    · simp [hcl]
    · simp [hcl, (hk f).1, hs, hd, hres]
    · intro x hx
      by_cases hx' : x.cl = cl ∧ x.rgn = f.rgn ∧ x.knum = f.knum
      · exact .inr (by simp [hx'])
      · exact .inl (by simpa [hx'] using hx)
  unfold State.cbFrame
  simp only [hfirst, hd]

theorem State.cbFrame_setCb (d : Batcher) : (s.setCb f d).cbFrame cl = some ({ f with cb := some d }, d) := by
  obtain ⟨-, rfl, -, hres⟩ := State.cbFrame_spec hc
  exact State.cbFrame_modFrame (h := fun x => { x with cb := some d }) hc hf (fun _ => ⟨rfl, rfl, rfl⟩) rfl rfl

theorem State.cbFrame_setSem (k : Nat) (v : Sem) :
    (s.setSem cl f.rgn f.knum k v).cbFrame cl = some ({ f with sems := f.sems.set k v }, b) := by
  obtain ⟨-, -, hcb, -⟩ := State.cbFrame_spec hc
  exact State.cbFrame_modFrame (h := fun x => { x with sems := x.sems.set k v }) hc hf (fun _ => ⟨rfl, rfl, rfl⟩) rfl hcb

end Owner

theorem State.frame?_setCb {s : State} {f g : Frame} (d : Batcher) (h : s.frame? f.cl f.rgn f.knum = some g) :
    (s.setCb f d).frame? f.cl f.rgn f.knum = some { g with cb := some d } := by
  unfold State.setCb
  rw [State.frame?_modFrame, h]
  · rfl
  · exact fun x => ⟨rfl, rfl, rfl⟩

/-- Going on to the next formation, or ending, changes the batcher's `forming` alone. -/
theorem State.frame?_formNext {s : State} {f g : Frame} (b : Batcher) (h : s.frame? f.cl f.rgn f.knum = some g) :
    ∃ m, (s.formNext f b).frame? f.cl f.rgn f.knum = some { g with cb := some { b with forming := m } } := by
  simp only [State.formNext]
  split
  · refine ⟨true, ?_⟩
    rw [State.frame?_of_frames (State.tick_frames ..)]
    exact State.frame?_setCb _ h
  · exact ⟨false, State.frame?_setCb _ h⟩

theorem State.endSignal_of_open (s : State) (f : Frame) {b : Batcher} (h : b.closed = false) : s.endSignal f b = s.setCb f b := by
  simp [State.endSignal, h]

theorem State.formMore_eq {s : State} {f g : Frame} {b : Batcher} (h : s.frame? f.cl f.rgn f.knum = some g) (hb : g.cb = some b) :
    s.formMore f = s.formNext f b := by
  unfold State.formMore
  simp only [h, hb]

/-! ### A flight is formed (08 R170, R172) -/

/-- The batcher when a flight has left its stream. -/
def Batcher.issued (b : Batcher) (k : Nat) (m : List (Nat × Constraint)) (writes : List Nat) : Batcher :=
  { b with formed := b.formed + 1, stream := b.stream.filter (fun c => !m.any (fun x => x.1 == c.1)),
           flights := b.flights ++ [⟨k, b.formed, m, false, false, writes⟩] }

/-- The writes of the flight's list. -/
def State.listSent (s : State) (f : Frame) (b : Batcher) (k : Nat) (m : List (Nat × Constraint)) : State × List Nat :=
  s.sendLines f.cl 512 f.rgn f.knum 0 0x10000 0x32000000
    (windowLines f.cl (b.base + k * slotSize b.fmax) (flightList b.formed.toNat m)) []

theorem State.listSent_spec (s : State) (f : Frame) (b : Batcher) (k : Nat) (m : List (Nat × Constraint)) :
    (s.listSent f b k m).1.frames = s.frames ∧ (s.listSent f b k m).1.threads = s.threads ∧
      ∀ x ∈ windowLines f.cl (b.base + k * slotSize b.fmax) (flightList b.formed.toNat m), (s.listSent f b k m).1.lineSent (s.listSent f b k m).2 x := by
  obtain ⟨hframes, hthreads, -, hsent⟩ := State.sendLines_local (cl := f.cl) (slot := 512) (rgn := f.rgn) (knum := f.knum) (ea := 0)
    (i1 := 0x10000) (words := 0x32000000) (windowLines_isLocal f.cl (b.base + k * slotSize b.fmax) (flightList b.formed.toNat m)) s []
  exact ⟨hframes, hthreads, hsent⟩

theorem State.form_eq (s : State) (f : Frame) (b : Batcher) (k : Nat) (m : List (Nat × Constraint)) :
    s.form f b k m = ((s.listSent f b k m).1.setCb f (b.issued k m (s.listSent f b k m).2)).addAct 1 f.cl 512 (s.listSent f b k m).2
      (.tick (.formation f.cl)) := rfl

/-- WHAT FORMING A FLIGHT LEAVES: the batcher without the flight's constraints, the threads as they were, and every byte of the list on its
way to its place in the flight's slot. -/
theorem State.form_spec {s : State} {f : Frame} (b : Batcher) (k : Nat) (m : List (Nat × Constraint)) (hf : s.frame? f.cl f.rgn f.knum = some f) :
    ∃ w, (s.form f b k m).frame? f.cl f.rgn f.knum = some { f with cb := some (b.issued k m w) } ∧ (s.form f b k m).threads = s.threads ∧
      ∀ i v, (flightList b.formed.toNat m)[i]? = some v →
        (s.form f b k m).onItsWay w (.scratch f.cl (b.base + k * slotSize b.fmax + i) false) v := by
  obtain ⟨hframes, hthreads, hsent⟩ := s.listSent_spec f b k m
  rw [State.form_eq]
  generalize s.listSent f b k m = n at hframes hthreads hsent ⊢
  refine ⟨n.2, ?_, hthreads, fun i v hv => ?_⟩
  · rw [State.frame?_of_frames (State.addAct_frames ..)]
    exact State.frame?_setCb _ ((State.frame?_of_frames hframes ..).trans hf)
  · exact State.lineSent.onItsWay hsent (fun a ha => List.mem_append_left _ ha) (lineByte_windowLines f.cl _ hv)

/-! ### A flight is published (08 R172) -/

/-- The batcher when the flight of a slot is published. -/
def Batcher.publishing (b : Batcher) (x : Flight) : Batcher :=
  { b with flights := b.flights.map (fun y => if y.slot = x.slot then { y with published := true, writes := [] } else y) }

/-- Once the signal has been given, the batcher's own frame gives the end signal and goes on forming. -/
theorem State.publish_of_owner {s s1 : State} {f g : Frame} {b d : Batcher} {x : Flight}
    (hs : (s.setCb f (b.publishing x)).signal f.cl f.rgn f.knum b.fsem 1 = s1) (hg : s1.cbFrame f.cl = some (g, d))
    (hkey : g.rgn = f.rgn ∧ g.knum = f.knum) : s.publish f b x = (s1.endSignal f d).formMore f := by
  subst hs
  simp only [Batcher.publishing] at hg ⊢
  simp only [State.publish, hg, hkey, and_self, if_true]

/-- A published flight whose semaphore has no waiter: the semaphore is signalled once, and of the batcher only the flight and `forming`
change, while the stream is open. -/
theorem State.publish_spec {s : State} {cl : Nat} {f : Frame} {b : Batcher} (x : Flight) (hc : s.cbFrame cl = some (f, b))
    (hf : s.frame? cl f.rgn f.knum = some f) (hw : s.semWaiters cl f.rgn f.knum b.fsem = []) (hopen : b.closed = false) :
    ∃ m, (s.publish f b x).frame? cl f.rgn f.knum =
      some { f with cb := some { b.publishing x with forming := m }, sems := f.sems.set b.fsem ((f.sem b.fsem).signal 1) } := by
  obtain ⟨-, rfl, -, -⟩ := State.cbFrame_spec hc
  have hcb := State.cbFrame_setCb hc hf (b.publishing x)
  have hfr := State.frame?_setCb (b.publishing x) hf
  have hsignal : (s.setCb f (b.publishing x)).signal f.cl f.rgn f.knum b.fsem 1 =
      (s.setCb f (b.publishing x)).setSem f.cl f.rgn f.knum b.fsem ((f.sem b.fsem).signal 1) :=
    State.signal_of_no_waiters (f := { f with cb := some (b.publishing x) }) hfr Nat.one_ne_zero hw
  have howner := State.cbFrame_setSem hcb hfr b.fsem ((f.sem b.fsem).signal 1)
  have hsem := State.frame?_setCb (f := f) (b.publishing x) (State.frame?_setSem b.fsem ((f.sem b.fsem).signal 1) hfr)
  have hpublish : s.publish f b x = (((s.setCb f (b.publishing x)).setSem f.cl f.rgn f.knum b.fsem ((f.sem b.fsem).signal 1)).setCb f
      (b.publishing x)).formNext f (b.publishing x) := by
    rw [State.publish_of_owner hsignal howner ⟨rfl, rfl⟩, State.endSignal_of_open _ f (b := b.publishing x) hopen]
    exact State.formMore_eq hsem rfl
  rw [hpublish]
  exact State.frame?_formNext _ hsem

/-! ### The event (08 R170 to R172) -/

section Formation
variable {s : State} {cl : Nat} {f : Frame} {b : Batcher} (hc : s.cbFrame cl = some (f, b))
include hc

/-- A flight that is still to be published goes first: it waits for its list to be written. -/
theorem execFormation_unpublished {x : Flight} (hx : b.flights.find? (fun x => !x.published) = some x) :
    execFormation cl s = .next (if s.goneAll x.writes then s.publish f b x else s) := by
  unfold execFormation
  simp only [hc, hx]
  split <;> rfl

variable (hp : b.flights.find? (fun x => !x.published) = none)
include hp

theorem execFormation_forms {k : Nat} (hm : b.mayForm = true) (hk : b.freeSlot = some k) :
    execFormation cl s = .next (if b.nextFlight = [] then s.setCb f { b with forming := false } else s.form f b k b.nextFlight) := by
  unfold execFormation
  simp only [hc, hp, hm, hk, List.isEmpty_iff]

theorem execFormation_ends (hm : b.mayForm = false) :
    execFormation cl s = .next (if b.forming then s.setCb f { b with forming := false } else s) := by
  unfold execFormation
  simp only [hc, hp, hm]

end Formation

/-- Settles O46: forming sends the list line by line and takes its constraints off the stream; publishing signals once and leaves the rest
of the batcher. -/
theorem flightsAreFormed : Obligations.FlightsAreFormed := by
  unfold Obligations.FlightsAreFormed
  intro s cl f b hc hf
  obtain ⟨-, rfl, -, -⟩ := State.cbFrame_spec hc
  refine ⟨fun k hm hk hp => ⟨fun hnil => ?_, fun hne => ?_⟩, fun hm hp => execFormation_ends hc hp hm, fun x hx => ⟨fun hg => ?_, fun hg => ⟨?_, fun hw hopen hk => ?_⟩⟩⟩
  · exact (execFormation_forms hc hp hm hk).trans (by rw [if_pos hnil])
  · obtain ⟨w, hframe, hthreads, hlist⟩ := State.form_spec b k b.nextFlight hf
    exact ⟨_, _, w, (execFormation_forms hc hp hm hk).trans (by rw [if_neg hne]), hframe, hthreads, rfl, hlist⟩
  · exact (execFormation_unpublished hc hx).trans (by rw [hg]; rfl)
  · exact (execFormation_unpublished hc hx).trans (by rw [hg]; rfl)
  · obtain ⟨m, hframe⟩ := State.publish_spec x hc hf hw hopen
    exact ⟨_, _, hframe, Frame.sem_set_same f _ hk, rfl, rfl, rfl, rfl⟩

end Sys2Proof.Machine
end
